-- ==== Sys2Proof/Word.lean ====
section
/-!
DEFINITION. Word.lean: bytes and words, and the sparse map that memories and register files are kept in. A map lists
(key, value) pairs with keys strictly rising and no value equal to the one an unlisted key reads as, so that equal maps
are equal lists.
-/
namespace Sys2Proof

/-- A byte. -/
abbrev Byte := BitVec 8
/-- A 32-bit register or word. -/
abbrev Word := BitVec 32
/-- A 64-bit pair. -/
abbrev DWord := BitVec 64

/-- A sparse map from Nat, in canonical form (see `Cells.wf`). -/
abbrev Cells (α : Type) := List (Nat × α)

/-- What key `k` reads as; `z` where it is not listed. -/
def Cells.get {α : Type} (z : α) : Cells α → Nat → α
  | [], _ => z
  | (k', v) :: m, k => if k = k' then v else Cells.get z m k

/-- Put the entry for a key that is not listed in its place. -/
def Cells.insert {α : Type} : Cells α → Nat → α → Cells α
  | [], k, v => [(k, v)]
  | e :: m, k, v => if k < e.1 then (k, v) :: e :: m else e :: Cells.insert m k v

/-- Write `v` at `k`, keeping the canonical form: writing `z` removes the entry. -/
def Cells.set {α : Type} [DecidableEq α] (z : α) (m : Cells α) (k : Nat) (v : α) : Cells α :=
  let rest := m.filter (fun e => decide (e.1 ≠ k))
  if v = z then rest else Cells.insert rest k v

/-- Every key is above `lo`, keys strictly rise and no value is `z`. -/
def Cells.wfFrom {α : Type} [DecidableEq α] (z : α) : Nat → Cells α → Bool
  | _, [] => true
  | lo, (k, v) :: m => decide (lo ≤ k) && decide (v ≠ z) && Cells.wfFrom z (k + 1) m

/-- The canonical form. -/
def Cells.wf {α : Type} [DecidableEq α] (z : α) (m : Cells α) : Bool := Cells.wfFrom z 0 m

/-- Keep the entries whose key satisfies `p`. -/
def Cells.keep {α : Type} (p : Nat → Bool) (m : Cells α) : Cells α := m.filter (fun e => p e.1)

end Sys2Proof
end

