-- ==== Sys2Proof/Config.lean ====
section
/-!
DEFINITION. Config.lean: what an implementation fixes and the manual does not give. Each is an opaque constant, so that
nothing proved of the model rests on a value of it.
-/
namespace Sys2Proof.Config

/-- An unpredictable value (R1, R2): the n-th draw, at index k of that draw (log 4). -/
opaque unpred : Nat → Nat → BitVec 64

/-- Which of the two bracketing values a faithful function takes: function number, width and operand (R83, log 5). -/
opaque pickUp : Nat → BitVec 64 → Bool

/-- Bank (index into the die's cache-role banks) and set of a 4 KiB frame, given how many banks have the cache role
(R262: not architectural, log 6). -/
opaque bankSet : Nat → Nat → Nat × Nat

/-- Spatial-predictor entry of a frame (R268: not architectural, log 6). -/
opaque predIndex : Nat → Nat

/-- The length code an unpinned predictor entry learns (R268: the rule is not architectural, log 6). -/
opaque learned : Nat → Nat → BitVec 3

/-- The part's identity: serial number, microcode and ROM versions, measurements, signatures (R431, log 12). -/
opaque identity : Nat → BitVec 64

/-- The signature bytes over a report body: which algorithm, byte index, body (R431, log 12). -/
opaque signature : Nat → Nat → List (BitVec 8) → BitVec 8

/-- A byte of the module at the far end of an inter-module fibre (R397, log 13). -/
opaque farByte : Nat → Nat → BitVec 8

/-- A die's calibrated banded latencies, by entry (R157, R393, log 64). -/
opaque latency : Nat → Nat → BitVec 32

/-- How a die's own clock strays as time reaches an instant, by die: 0 a tick short, 1 a tick more, else none (R156,
log 39). -/
opaque stray : Nat → Nat → BitVec 2

end Sys2Proof.Config
end

