-- ==== Sys2Proof/Syntax.lean ====
section
/-!
DEFINITION. Syntax.lean: the instruction type. One constructor for each row of spec/opcode_table.json: the 220
instruction words (each bit field of the row is an argument, ignored fields included, so that no bit of a word is
lost), the row ILLOP, then the steps of the engines and the Henez packets. Which object such a step acts on stands in
State (`subj`), not here: the compiler gives no field to a constructor this far down so long an inductive.
-/
namespace Sys2Proof

/-- Every row of the opcode table. -/
inductive Instr where
  /-- IADD (R136). Adds two register operands modulo 2^w; bit w selects the 32-bit or 64-bit form. -/
  | iadd (d : BitVec 7) (a : BitVec 7) (b : BitVec 7) (u : Bool) (w : Bool)
  /-- IADD_IMM (R136). Adds a signed imm7 to a register operand modulo 2^w. -/
  | iaddImm (d : BitVec 7) (a : BitVec 7) (i : BitVec 7) (u : Bool) (w : Bool)
  /-- ISUB (R136). Subtracts register B from register A modulo 2^w. -/
  | isub (d : BitVec 7) (a : BitVec 7) (b : BitVec 7) (u : Bool) (w : Bool)
  /-- ISUB_IMM (R136). Subtracts a signed imm7 from register A modulo 2^w. -/
  | isubImm (d : BitVec 7) (a : BitVec 7) (i : BitVec 7) (u : Bool) (w : Bool)
  /-- IMUL (R136). Writes the low half of the product of two register operands. -/
  | imul (d : BitVec 7) (a : BitVec 7) (b : BitVec 7) (u : Bool) (w : Bool)
  /-- IMUL_IMM (R136). Writes the low half of the product of a register and a signed imm7. -/
  | imulImm (d : BitVec 7) (a : BitVec 7) (i : BitVec 7) (u : Bool) (w : Bool)
  /-- IMULH_I (R136). Writes the high half of the signed product of two register operands. -/
  | imulhI (d : BitVec 7) (a : BitVec 7) (b : BitVec 7) (u : Bool) (w : Bool)
  /-- IMULH_I_IMM (R136). Writes the high half of the signed 32-bit product of a register and a signed imm7. -/
  | imulhIImm (d : BitVec 7) (a : BitVec 7) (i : BitVec 7) (u : Bool)
  /-- IMULH_B (R136). Writes the high half of the unsigned product of two register operands. -/
  | imulhB (d : BitVec 7) (a : BitVec 7) (b : BitVec 7) (u : Bool) (w : Bool)
  /-- IMULH_B_IMM (R136). Writes the high half of the unsigned 32-bit product of a register and an unsigned imm7. -/
  | imulhBImm (d : BitVec 7) (a : BitVec 7) (i : BitVec 7) (u : Bool)
  /-- IMAD (R136). Writes A times B plus the old D, modulo 2^w. -/
  | imad (d : BitVec 7) (a : BitVec 7) (b : BitVec 7) (u : Bool) (w : Bool)
  /-- IMAD_IMM (R136). Writes A times a signed imm7 plus the old D, modulo 2^w. -/
  | imadImm (d : BitVec 7) (a : BitVec 7) (i : BitVec 7) (u : Bool) (w : Bool)
  /-- IMADW_I (R136). Adds the sign-extended 64-bit product of two 32-bit registers to the pair D. -/
  | imadwI (d : BitVec 7) (a : BitVec 7) (b : BitVec 7) (u : Bool)
  /-- IMADW_I_IMM (R136). Adds the signed 64-bit product of a 32-bit register and an imm7 to the pair D. -/
  | imadwIImm (d : BitVec 7) (a : BitVec 7) (i : BitVec 7) (u : Bool)
  /-- IMADW_B (R136). Adds the zero-extended 64-bit product of two 32-bit registers to the pair D. -/
  | imadwB (d : BitVec 7) (a : BitVec 7) (b : BitVec 7) (u : Bool)
  /-- IMADW_B_IMM (R136). Adds the unsigned 64-bit product of a 32-bit register and an imm7 to the pair D. -/
  | imadwBImm (d : BitVec 7) (a : BitVec 7) (i : BitVec 7) (u : Bool)
  /-- INEG (R136). Writes the negation of A modulo 2^w. -/
  | ineg (d : BitVec 7) (a : BitVec 7) (z : BitVec 7) (u : Bool) (w : Bool)
  /-- IABS (R136). Writes the signed absolute value of A modulo 2^w. -/
  | iabs (d : BitVec 7) (a : BitVec 7) (z : BitVec 7) (u : Bool) (w : Bool)
  /-- IMIN_I (R136). Writes the signed minimum of two register operands. -/
  | iminI (d : BitVec 7) (a : BitVec 7) (b : BitVec 7) (u : Bool) (w : Bool)
  /-- IMIN_I_IMM (R136). Writes the signed minimum of a register and a signed imm7. -/
  | iminIImm (d : BitVec 7) (a : BitVec 7) (i : BitVec 7) (u : Bool) (w : Bool)
  /-- IMIN_B (R136). Writes the unsigned minimum of two register operands. -/
  | iminB (d : BitVec 7) (a : BitVec 7) (b : BitVec 7) (u : Bool) (w : Bool)
  /-- IMIN_B_IMM (R136). Writes the unsigned minimum of a register and an unsigned imm7. -/
  | iminBImm (d : BitVec 7) (a : BitVec 7) (i : BitVec 7) (u : Bool) (w : Bool)
  /-- IMAX_I (R136). Writes the signed maximum of two register operands. -/
  | imaxI (d : BitVec 7) (a : BitVec 7) (b : BitVec 7) (u : Bool) (w : Bool)
  /-- IMAX_I_IMM (R136). Writes the signed maximum of a register and a signed imm7. -/
  | imaxIImm (d : BitVec 7) (a : BitVec 7) (i : BitVec 7) (u : Bool) (w : Bool)
  /-- IMAX_B (R136). Writes the unsigned maximum of two register operands. -/
  | imaxB (d : BitVec 7) (a : BitVec 7) (b : BitVec 7) (u : Bool) (w : Bool)
  /-- IMAX_B_IMM (R136). Writes the unsigned maximum of a register and an unsigned imm7. -/
  | imaxBImm (d : BitVec 7) (a : BitVec 7) (i : BitVec 7) (u : Bool) (w : Bool)
  /-- AND (R136). Writes the bitwise AND of two register operands. -/
  | and (d : BitVec 7) (a : BitVec 7) (b : BitVec 7) (u : Bool) (w : Bool)
  /-- AND_IMM (R136). Writes the bitwise AND of a register and a sign-extended imm7. -/
  | andImm (d : BitVec 7) (a : BitVec 7) (i : BitVec 7) (u : Bool) (w : Bool)
  /-- OR (R136). Writes the bitwise OR of two register operands. -/
  | or (d : BitVec 7) (a : BitVec 7) (b : BitVec 7) (u : Bool) (w : Bool)
  /-- OR_IMM (R136). Writes the bitwise OR of a register and a sign-extended imm7. -/
  | orImm (d : BitVec 7) (a : BitVec 7) (i : BitVec 7) (u : Bool) (w : Bool)
  /-- XOR (R136). Writes the bitwise XOR of two register operands. -/
  | xor (d : BitVec 7) (a : BitVec 7) (b : BitVec 7) (u : Bool) (w : Bool)
  /-- XOR_IMM (R136). Writes the bitwise XOR of a register and a sign-extended imm7. -/
  | xorImm (d : BitVec 7) (a : BitVec 7) (i : BitVec 7) (u : Bool) (w : Bool)
  /-- ANDN (R136). Writes A AND NOT B for two register operands. -/
  | andn (d : BitVec 7) (a : BitVec 7) (b : BitVec 7) (u : Bool) (w : Bool)
  /-- ANDN_IMM (R136). Writes A AND NOT a sign-extended imm7. -/
  | andnImm (d : BitVec 7) (a : BitVec 7) (i : BitVec 7) (u : Bool) (w : Bool)
  /-- NOT (R136). Writes the bitwise complement of A. -/
  | not (d : BitVec 7) (a : BitVec 7) (z : BitVec 7) (u : Bool) (w : Bool)
  /-- SHL (R137). Shifts A left by a register count, giving 0 for counts of w or more. -/
  | shl (d : BitVec 7) (a : BitVec 7) (b : BitVec 7) (u : Bool) (w : Bool)
  /-- SHL_IMM (R137). Shifts A left by an unsigned imm7 count. -/
  | shlImm (d : BitVec 7) (a : BitVec 7) (i : BitVec 7) (u : Bool) (w : Bool)
  /-- SHR (R137). Shifts A right with zero fill by a register count. -/
  | shr (d : BitVec 7) (a : BitVec 7) (b : BitVec 7) (u : Bool) (w : Bool)
  /-- SHR_IMM (R137). Shifts A right with zero fill by an unsigned imm7 count. -/
  | shrImm (d : BitVec 7) (a : BitVec 7) (i : BitVec 7) (u : Bool) (w : Bool)
  /-- SAR (R137). Shifts A right with sign fill by a register count. -/
  | sar (d : BitVec 7) (a : BitVec 7) (b : BitVec 7) (u : Bool) (w : Bool)
  /-- SAR_IMM (R137). Shifts A right with sign fill by an unsigned imm7 count. -/
  | sarImm (d : BitVec 7) (a : BitVec 7) (i : BitVec 7) (u : Bool) (w : Bool)
  /-- ROL (R137). Rotates A left by a register count modulo w. -/
  | rol (d : BitVec 7) (a : BitVec 7) (b : BitVec 7) (u : Bool) (w : Bool)
  /-- ROL_IMM (R137). Rotates A left by an unsigned imm7 count modulo w. -/
  | rolImm (d : BitVec 7) (a : BitVec 7) (i : BitVec 7) (u : Bool) (w : Bool)
  /-- BFX_B (R138). Extracts a bit field of A, zero-extended, under a field specifier register. -/
  | bfxB (d : BitVec 7) (a : BitVec 7) (b : BitVec 7) (u : Bool) (w : Bool)
  /-- BFX_I (R138). Extracts a bit field of A, sign-extended, under a field specifier register. -/
  | bfxI (d : BitVec 7) (a : BitVec 7) (b : BitVec 7) (u : Bool) (w : Bool)
  /-- BFI (R138). Inserts the low bits of A into a bit field of D. -/
  | bfi (d : BitVec 7) (a : BitVec 7) (b : BitVec 7) (u : Bool) (w : Bool)
  /-- POPC (R136). Writes the number of one bits of A as a 32-bit value. -/
  | popc (d : BitVec 7) (a : BitVec 7) (z : BitVec 7) (u : Bool) (w : Bool)
  /-- CLZ (R136). Writes the number of leading zero bits of A. -/
  | clz (d : BitVec 7) (a : BitVec 7) (z : BitVec 7) (u : Bool) (w : Bool)
  /-- CTZ (R136). Writes the number of trailing zero bits of A. -/
  | ctz (d : BitVec 7) (a : BitVec 7) (z : BitVec 7) (u : Bool) (w : Bool)
  /-- BREV (R136). Writes the bit reversal of A. -/
  | brev (d : BitVec 7) (a : BitVec 7) (z : BitVec 7) (u : Bool) (w : Bool)
  /-- PRMT (R139). Selects bytes of A and B under the selector held in D. -/
  | prmt (d : BitVec 7) (a : BitVec 7) (b : BitVec 7) (u : Bool)
  /-- MOV (R136). Copies register A to D. -/
  | mov (d : BitVec 7) (a : BitVec 7) (z : BitVec 7) (u : Bool) (w : Bool)
  /-- MOV_IMM (R136). Writes a sign-extended imm7 to D. -/
  | movImm (d : BitVec 7) (y : BitVec 7) (i : BitVec 7) (u : Bool) (w : Bool)
  /-- ICMP_EQ (R49). Writes 1 when A equals register B, else 0. -/
  | icmpEq (d : BitVec 7) (a : BitVec 7) (b : BitVec 7) (u : Bool) (w : Bool)
  /-- ICMP_EQ_IMM (R49). Writes 1 when A equals a signed imm7, else 0. -/
  | icmpEqImm (d : BitVec 7) (a : BitVec 7) (i : BitVec 7) (u : Bool) (w : Bool)
  /-- ICMP_NE (R49). Writes 1 when A differs from register B, else 0. -/
  | icmpNe (d : BitVec 7) (a : BitVec 7) (b : BitVec 7) (u : Bool) (w : Bool)
  /-- ICMP_NE_IMM (R49). Writes 1 when A differs from a signed imm7, else 0. -/
  | icmpNeImm (d : BitVec 7) (a : BitVec 7) (i : BitVec 7) (u : Bool) (w : Bool)
  /-- ICMP_LT_I (R49). Writes 1 when A is signed-less than register B. -/
  | icmpLtI (d : BitVec 7) (a : BitVec 7) (b : BitVec 7) (u : Bool) (w : Bool)
  /-- ICMP_LT_I_IMM (R49). Writes 1 when A is signed-less than a signed imm7. -/
  | icmpLtIImm (d : BitVec 7) (a : BitVec 7) (i : BitVec 7) (u : Bool) (w : Bool)
  /-- ICMP_LE_I (R49). Writes 1 when A is signed-less than or equal to register B. -/
  | icmpLeI (d : BitVec 7) (a : BitVec 7) (b : BitVec 7) (u : Bool) (w : Bool)
  /-- ICMP_LE_I_IMM (R49). Writes 1 when A is signed-less than or equal to a signed imm7. -/
  | icmpLeIImm (d : BitVec 7) (a : BitVec 7) (i : BitVec 7) (u : Bool) (w : Bool)
  /-- ICMP_GT_I (R49). Writes 1 when A is signed-greater than register B. -/
  | icmpGtI (d : BitVec 7) (a : BitVec 7) (b : BitVec 7) (u : Bool) (w : Bool)
  /-- ICMP_GT_I_IMM (R49). Writes 1 when A is signed-greater than a signed imm7. -/
  | icmpGtIImm (d : BitVec 7) (a : BitVec 7) (i : BitVec 7) (u : Bool) (w : Bool)
  /-- ICMP_GE_I (R49). Writes 1 when A is signed-greater than or equal to register B. -/
  | icmpGeI (d : BitVec 7) (a : BitVec 7) (b : BitVec 7) (u : Bool) (w : Bool)
  /-- ICMP_GE_I_IMM (R49). Writes 1 when A is signed-greater than or equal to a signed imm7. -/
  | icmpGeIImm (d : BitVec 7) (a : BitVec 7) (i : BitVec 7) (u : Bool) (w : Bool)
  /-- ICMP_LT_B (R49). Writes 1 when A is unsigned-less than register B. -/
  | icmpLtB (d : BitVec 7) (a : BitVec 7) (b : BitVec 7) (u : Bool) (w : Bool)
  /-- ICMP_LT_B_IMM (R49). Writes 1 when A is unsigned-less than an unsigned imm7. -/
  | icmpLtBImm (d : BitVec 7) (a : BitVec 7) (i : BitVec 7) (u : Bool) (w : Bool)
  /-- ICMP_LE_B (R49). Writes 1 when A is unsigned-less than or equal to register B. -/
  | icmpLeB (d : BitVec 7) (a : BitVec 7) (b : BitVec 7) (u : Bool) (w : Bool)
  /-- ICMP_LE_B_IMM (R49). Writes 1 when A is unsigned-less than or equal to an unsigned imm7. -/
  | icmpLeBImm (d : BitVec 7) (a : BitVec 7) (i : BitVec 7) (u : Bool) (w : Bool)
  /-- ICMP_GT_B (R49). Writes 1 when A is unsigned-greater than register B. -/
  | icmpGtB (d : BitVec 7) (a : BitVec 7) (b : BitVec 7) (u : Bool) (w : Bool)
  /-- ICMP_GT_B_IMM (R49). Writes 1 when A is unsigned-greater than an unsigned imm7. -/
  | icmpGtBImm (d : BitVec 7) (a : BitVec 7) (i : BitVec 7) (u : Bool) (w : Bool)
  /-- ICMP_GE_B (R49). Writes 1 when A is unsigned-greater than or equal to register B. -/
  | icmpGeB (d : BitVec 7) (a : BitVec 7) (b : BitVec 7) (u : Bool) (w : Bool)
  /-- ICMP_GE_B_IMM (R49). Writes 1 when A is unsigned-greater than or equal to an unsigned imm7. -/
  | icmpGeBImm (d : BitVec 7) (a : BitVec 7) (i : BitVec 7) (u : Bool) (w : Bool)
  /-- SEL (R136). Writes A when the old 32-bit v[D] is nonzero, else B. -/
  | sel (d : BitVec 7) (a : BitVec 7) (b : BitVec 7) (u : Bool) (w : Bool)
  /-- FADD (R141). Writes A plus B, correctly rounded in mode m, for type t. -/
  | fadd (d : BitVec 7) (a : BitVec 7) (b : BitVec 7) (u : Bool) (m : BitVec 2) (t : BitVec 2)
  /-- FSUB (R141). Writes A minus B, correctly rounded in mode m. -/
  | fsub (d : BitVec 7) (a : BitVec 7) (b : BitVec 7) (u : Bool) (m : BitVec 2) (t : BitVec 2)
  /-- FMUL (R141). Writes A times B, correctly rounded in mode m. -/
  | fmul (d : BitVec 7) (a : BitVec 7) (b : BitVec 7) (u : Bool) (m : BitVec 2) (t : BitVec 2)
  /-- FFMA (R141). Writes A times B plus the old D with one rounding in mode m. -/
  | ffma (d : BitVec 7) (a : BitVec 7) (b : BitVec 7) (u : Bool) (m : BitVec 2) (t : BitVec 2)
  /-- FDIV (R82). Writes A divided by B, correctly rounded in mode m. -/
  | fdiv (d : BitVec 7) (a : BitVec 7) (b : BitVec 7) (u : Bool) (m : BitVec 2) (t : BitVec 2)
  /-- FSQRT (R82). Writes the square root of A, correctly rounded in mode m. -/
  | fsqrt (d : BitVec 7) (a : BitVec 7) (z : BitVec 7) (u : Bool) (m : BitVec 2) (t : BitVec 2)
  /-- FRCP_CR (R82). Writes the correctly rounded reciprocal of A. -/
  | frcpCr (d : BitVec 7) (a : BitVec 7) (z : BitVec 7) (u : Bool) (m : BitVec 2) (t : BitVec 2)
  /-- FRSQ_CR (R82). Writes the correctly rounded reciprocal square root of A. -/
  | frsqCr (d : BitVec 7) (a : BitVec 7) (z : BitVec 7) (u : Bool) (m : BitVec 2) (t : BitVec 2)
  /-- FSCALE (R82). Writes A times 2 to the signed 32-bit B, rounded once. -/
  | fscale (d : BitVec 7) (a : BitVec 7) (b : BitVec 7) (u : Bool) (m : BitVec 2) (t : BitVec 2)
  /-- FRND (R87). Rounds A to an integral value in direction m. -/
  | frnd (d : BitVec 7) (a : BitVec 7) (z : BitVec 7) (u : Bool) (m : BitVec 2) (t : BitVec 2)
  /-- FNEG (R80). Inverts the sign bit of A. -/
  | fneg (d : BitVec 7) (a : BitVec 7) (z : BitVec 7) (u : Bool) (t : BitVec 2)
  /-- FABS (R80). Clears the sign bit of A. -/
  | fabs (d : BitVec 7) (a : BitVec 7) (z : BitVec 7) (u : Bool) (t : BitVec 2)
  /-- FMIN (R84). Writes the IEEE minimum of A and B, NaN if either is NaN. -/
  | fmin (d : BitVec 7) (a : BitVec 7) (b : BitVec 7) (u : Bool) (t : BitVec 2)
  /-- FMAX (R84). Writes the IEEE maximum of A and B, NaN if either is NaN. -/
  | fmax (d : BitVec 7) (a : BitVec 7) (b : BitVec 7) (u : Bool) (t : BitVec 2)
  /-- FMINN (R84). Writes minimumNumber of A and B. -/
  | fminn (d : BitVec 7) (a : BitVec 7) (b : BitVec 7) (u : Bool) (t : BitVec 2)
  /-- FMAXN (R84). Writes maximumNumber of A and B. -/
  | fmaxn (d : BitVec 7) (a : BitVec 7) (b : BitVec 7) (u : Bool) (t : BitVec 2)
  /-- FCLASS (R86). Writes a one-hot class mask of A. -/
  | fclass (d : BitVec 7) (a : BitVec 7) (z : BitVec 7) (u : Bool) (t : BitVec 2)
  /-- FFREXP (R87). Writes the fraction of A to D and its exponent to v[B]. -/
  | ffrexp (d : BitVec 7) (a : BitVec 7) (b : BitVec 7) (u : Bool) (t : BitVec 2)
  /-- FCMP_EQ (R85). Writes 1 when A equals B, 0 when either is NaN. -/
  | fcmpEq (d : BitVec 7) (a : BitVec 7) (b : BitVec 7) (u : Bool) (t : BitVec 2)
  /-- FCMP_LT (R85). Writes 1 when A is less than B. -/
  | fcmpLt (d : BitVec 7) (a : BitVec 7) (b : BitVec 7) (u : Bool) (t : BitVec 2)
  /-- FCMP_LE (R85). Writes 1 when A is less than or equal to B. -/
  | fcmpLe (d : BitVec 7) (a : BitVec 7) (b : BitVec 7) (u : Bool) (t : BitVec 2)
  /-- FCMP_UN (R85). Writes 1 when either operand is NaN. -/
  | fcmpUn (d : BitVec 7) (a : BitVec 7) (b : BitVec 7) (u : Bool) (t : BitVec 2)
  /-- FCMP_NE (R85). Writes 1 when A differs from B, and when either is NaN. -/
  | fcmpNe (d : BitVec 7) (a : BitVec 7) (b : BitVec 7) (u : Bool) (t : BitVec 2)
  /-- FCMP_GT (R85). Writes 1 when A is greater than B. -/
  | fcmpGt (d : BitVec 7) (a : BitVec 7) (b : BitVec 7) (u : Bool) (t : BitVec 2)
  /-- FCMP_GE (R85). Writes 1 when A is greater than or equal to B. -/
  | fcmpGe (d : BitVec 7) (a : BitVec 7) (b : BitVec 7) (u : Bool) (t : BitVec 2)
  /-- FCMP_ORD (R85). Writes 1 when neither operand is NaN. -/
  | fcmpOrd (d : BitVec 7) (a : BitVec 7) (b : BitVec 7) (u : Bool) (t : BitVec 2)
  /-- FEXP2 (R83). Writes a faithful FP32 2 to the power A. -/
  | fexp2 (d : BitVec 7) (a : BitVec 7) (z : BitVec 7) (u : Bool)
  /-- FLOG2 (R83). Writes a faithful FP32 base-2 logarithm of A. -/
  | flog2 (d : BitVec 7) (a : BitVec 7) (z : BitVec 7) (u : Bool)
  /-- FSIN (R83). Writes a faithful FP32 sine of A. -/
  | fsin (d : BitVec 7) (a : BitVec 7) (z : BitVec 7) (u : Bool)
  /-- FCOS (R83). Writes a faithful FP32 cosine of A. -/
  | fcos (d : BitVec 7) (a : BitVec 7) (z : BitVec 7) (u : Bool)
  /-- FTANH (R83). Writes a faithful FP32 hyperbolic tangent of A. -/
  | ftanh (d : BitVec 7) (a : BitVec 7) (z : BitVec 7) (u : Bool)
  /-- FRCP (R83). Writes a faithful reciprocal of A within 1 ulp. -/
  | frcp (d : BitVec 7) (a : BitVec 7) (z : BitVec 7) (u : Bool) (t : BitVec 2)
  /-- FRSQ (R83). Writes a faithful reciprocal square root of A within 1 ulp. -/
  | frsq (d : BitVec 7) (a : BitVec 7) (z : BitVec 7) (u : Bool) (t : BitVec 2)
  /-- CVT (R142). Converts A from the source type to the destination type by R88. -/
  | cvt (d : BitVec 7) (a : BitVec 7) (q : Bool) (m : BitVec 2) (s : BitVec 4) (u : Bool) (t : BitVec 4)
  /-- CVTPK (R143). Narrows A to format n and writes it into element p of D. -/
  | cvtpk (d : BitVec 7) (a : BitVec 7) (p : BitVec 4) (q : Bool) (m : BitVec 2) (u : Bool) (n : BitVec 4)
  /-- CVTUPK (R143). Widens element p of A in format n exactly to FP32 or i32. -/
  | cvtupk (d : BitVec 7) (a : BitVec 7) (p : BitVec 4) (u : Bool) (n : BitVec 4)
  /-- CVTSC_MUL (R92). Multiplies FP32 A by the E8M0 scale in B, rounded RNE. -/
  | cvtscMul (d : BitVec 7) (a : BitVec 7) (b : BitVec 7) (u : Bool)
  /-- CVTSC_EXP (R92). Writes the E8M0 scale code for a block whose maximum magnitude is A. -/
  | cvtscExp (d : BitVec 7) (a : BitVec 7) (n : BitVec 4) (u : Bool)
  /-- SHFL_IDX (R145). Reads v[A] of the thread named by the selector. -/
  | shflIdx (d : BitVec 7) (a : BitVec 7) (b : BitVec 7)
  /-- SHFL_UP (R145). Reads v[A] of thread i minus the selector. -/
  | shflUp (d : BitVec 7) (a : BitVec 7) (b : BitVec 7)
  /-- SHFL_DOWN (R145). Reads v[A] of thread i plus the selector. -/
  | shflDown (d : BitVec 7) (a : BitVec 7) (b : BitVec 7)
  /-- SHFL_XOR (R145). Reads v[A] of thread i XOR the selector. -/
  | shflXor (d : BitVec 7) (a : BitVec 7) (b : BitVec 7)
  /-- VOTE_ANY (R146). Writes 1 to every issuing thread when any predicate is nonzero. -/
  | voteAny (d : BitVec 7) (a : BitVec 7) (z : BitVec 7)
  /-- VOTE_ALL (R146). Writes 1 when every issuing thread's predicate is nonzero. -/
  | voteAll (d : BitVec 7) (a : BitVec 7) (z : BitVec 7)
  /-- VOTE_BALLOT (R146). Writes the mask of issuing threads whose predicate is nonzero. -/
  | voteBallot (d : BitVec 7) (a : BitVec 7) (z : BitVec 7)
  /-- ELECT (R146). Writes 1 to the lowest-numbered issuing thread and 0 to the others. -/
  | elect (d : BitVec 7) (y : BitVec 7) (z : BitVec 7)
  /-- REDG (R147). Reduces v[A] over the issuing threads by the fixed tree of R93. -/
  | redg (d : BitVec 7) (a : BitVec 7) (o : BitVec 3) (t : BitVec 4)
  /-- SCANG_INCL (R147). Writes each issuing thread its inclusive scan under R94. -/
  | scangIncl (d : BitVec 7) (a : BitVec 7) (o : BitVec 3) (t : BitVec 4)
  /-- SCANG_EXCL (R147). Writes each issuing thread its exclusive scan under R94. -/
  | scangExcl (d : BitVec 7) (a : BitVec 7) (o : BitVec 3) (t : BitVec 4)
  /-- NOP (R150). Does nothing. -/
  | nop (x : BitVec 7) (y : BitVec 7) (z : BitVec 7) (u : Bool)
  /-- BRA (R148). Branches by a register or literal word offset and ends the clause. -/
  | bra (x : BitVec 7) (y : BitVec 7) (b : BitVec 7) (u : Bool)
  /-- BRA_IMM (R148). Branches by a signed imm7 word offset and ends the clause. -/
  | braImm (x : BitVec 7) (y : BitVec 7) (i : BitVec 7) (u : Bool)
  /-- BRZ (R148). Branches by a register offset when the 32-bit condition is zero. -/
  | brz (x : BitVec 7) (a : BitVec 7) (b : BitVec 7) (u : Bool)
  /-- BRZ_IMM (R148). Branches by a signed imm7 offset when the condition is zero. -/
  | brzImm (x : BitVec 7) (a : BitVec 7) (i : BitVec 7) (u : Bool)
  /-- BRNZ (R148). Branches by a register offset when the condition is nonzero. -/
  | brnz (x : BitVec 7) (a : BitVec 7) (b : BitVec 7) (u : Bool)
  /-- BRNZ_IMM (R148). Branches by a signed imm7 offset when the condition is nonzero. -/
  | brnzImm (x : BitVec 7) (a : BitVec 7) (i : BitVec 7) (u : Bool)
  /-- JMPR (R149). Jumps to the absolute address in a register pair. -/
  | jmpr (x : BitVec 7) (a : BitVec 7) (z : BitVec 7) (u : Bool)
  /-- CALL (R149). Branches by a register offset and writes the next-clause address to pair D. -/
  | call (d : BitVec 7) (a : BitVec 7) (z : BitVec 7) (u : Bool)
  /-- CALL_IMM (R149). Branches by a signed imm7 offset and writes the return pair. -/
  | callImm (d : BitVec 7) (y : BitVec 7) (i : BitVec 7) (u : Bool)
  /-- CALLR (R149). Jumps to a register-pair address and writes the return pair. -/
  | callr (d : BitVec 7) (a : BitVec 7) (z : BitVec 7) (u : Bool)
  /-- RET (R149). Jumps to the absolute address in a register pair. -/
  | ret (x : BitVec 7) (a : BitVec 7) (z : BitVec 7) (u : Bool)
  /-- YIELD (R106). Ends the clause and parks the issuing threads. -/
  | yield (x : BitVec 7) (y : BitVec 7) (z : BitVec 7)
  /-- WSYNC (R109). Ends the clause and puts each issuing thread in WAIT with its mask. -/
  | wsync (x : BitVec 7) (a : BitVec 7) (z : BitVec 7)
  /-- EXIT (R112). Ends the clause and puts the issuing threads in DONE. -/
  | exit (x : BitVec 7) (y : BitVec 7) (z : BitVec 7)
  /-- TRAP (R161). Records a pending USER_TRAP with argument n, taken at the clause end. -/
  | trap (x : BitVec 7) (y : BitVec 7) (i : BitVec 7) (u : Bool)
  /-- BKPT (R161). Records a pending BREAK with argument n when BKEN enables it. -/
  | bkpt (x : BitVec 7) (y : BitVec 7) (i : BitVec 7) (u : Bool)
  /-- WBASE (R119). Sets the group's window base from a register or literal. -/
  | wbase (x : BitVec 7) (a : BitVec 7) (z : BitVec 7) (u : Bool)
  /-- WBASE_IMM (R119). Sets the group's window base from an unsigned imm7. -/
  | wbaseImm (x : BitVec 7) (y : BitVec 7) (i : BitVec 7) (u : Bool)
  /-- RBACQ (R120). Requests n more register blocks from a register count and ends the clause. -/
  | rbacq (x : BitVec 7) (a : BitVec 7) (z : BitVec 7) (u : Bool)
  /-- RBACQ_IMM (R120). Requests an imm7 count of register blocks and ends the clause. -/
  | rbacqImm (x : BitVec 7) (y : BitVec 7) (i : BitVec 7) (u : Bool)
  /-- RBREL (R122). Releases the last n register blocks, count from a register. -/
  | rbrel (x : BitVec 7) (a : BitVec 7) (z : BitVec 7) (u : Bool)
  /-- RBREL_IMM (R122). Releases the last n register blocks, count from an imm7. -/
  | rbrelImm (x : BitVec 7) (y : BitVec 7) (i : BitVec 7) (u : Bool)
  /-- RQUOTA (R124). Moves n blocks of register budget from one role of the team to another. -/
  | rquota (x : BitVec 7) (a : BitVec 7) (t : BitVec 2) (f : BitVec 2) (u : Bool)
  /-- FETCHT (R152). Takes the next coordinate of the launch's tile dispenser into three registers. -/
  | fetcht (d : BitVec 7) (y : BitVec 7) (z : BitVec 7) (u : Bool)
  /-- MOVS (R153). Reads a 32-bit special register. -/
  | movs (d : BitVec 7) (y : BitVec 7) (s : BitVec 7) (u : Bool)
  /-- MOVC (R153). Reads a 32-bit control register. -/
  | movc (d : BitVec 7) (y : BitVec 7) (c : BitVec 7) (u : Bool)
  /-- MOVC_W (R153). Writes a writable control register from A. -/
  | movcW (x : BitVec 7) (a : BitVec 7) (c : BitVec 7) (u : Bool)
  /-- MOVS_64 (R153). Reads a 64-bit special register into a pair. -/
  | movs64 (d : BitVec 7) (y : BitVec 7) (s : BitVec 7) (u : Bool)
  /-- LD (R213). Loads from memory with optional acquire or non-caching order. -/
  | ld (d : BitVec 7) (a : BitVec 7) (o : BitVec 2) (t : BitVec 4) (u : Bool)
  /-- LD_SPAN (R214). Loads from memory with a rind fill-length hint of 2^k grains. -/
  | ldSpan (d : BitVec 7) (a : BitVec 7) (k : BitVec 3) (t : BitVec 4) (u : Bool)
  /-- ST (R215). Stores to memory through the store queue or side log, optionally releasing. -/
  | st (d : BitVec 7) (a : BitVec 7) (r : Bool) (t : BitVec 4) (u : Bool)
  /-- LDL (R216). Loads from local store, optionally as an acquire. -/
  | ldl (d : BitVec 7) (a : BitVec 7) (q : Bool) (t : BitVec 4) (u : Bool)
  /-- STL (R216). Stores to local store, optionally releasing at CORE scope. -/
  | stl (d : BitVec 7) (a : BitVec 7) (r : Bool) (t : BitVec 4) (u : Bool)
  /-- PREF (R217). Asks that 2^k grains be filled into the L1 or the rind. -/
  | pref (x : BitVec 7) (a : BitVec 7) (k : BitVec 3) (l : BitVec 2) (u : Bool)
  /-- PQRY (R218). Writes the translation and attributes of an address to a pair. -/
  | pqry (d : BitVec 7) (a : BitVec 7) (z : BitVec 7) (u : Bool)
  /-- ATOM_ADD (R221). Atomically adds at the home and returns the old value. -/
  | atomAdd (d : BitVec 7) (a : BitVec 7) (p : Bool) (o : BitVec 2) (t : BitVec 3) (u : Bool)
  /-- ATOM_SUB (R221). Atomically subtracts at the home and returns the old value. -/
  | atomSub (d : BitVec 7) (a : BitVec 7) (p : Bool) (o : BitVec 2) (t : BitVec 3) (u : Bool)
  /-- ATOM_MIN (R221). Atomically stores the minimum and returns the old value. -/
  | atomMin (d : BitVec 7) (a : BitVec 7) (p : Bool) (o : BitVec 2) (t : BitVec 3) (u : Bool)
  /-- ATOM_MAX (R221). Atomically stores the maximum and returns the old value. -/
  | atomMax (d : BitVec 7) (a : BitVec 7) (p : Bool) (o : BitVec 2) (t : BitVec 3) (u : Bool)
  /-- ATOM_AND (R221). Atomically ANDs at the home and returns the old value. -/
  | atomAnd (d : BitVec 7) (a : BitVec 7) (p : Bool) (o : BitVec 2) (t : BitVec 3) (u : Bool)
  /-- ATOM_OR (R221). Atomically ORs at the home and returns the old value. -/
  | atomOr (d : BitVec 7) (a : BitVec 7) (p : Bool) (o : BitVec 2) (t : BitVec 3) (u : Bool)
  /-- ATOM_XOR (R221). Atomically XORs at the home and returns the old value. -/
  | atomXor (d : BitVec 7) (a : BitVec 7) (p : Bool) (o : BitVec 2) (t : BitVec 3) (u : Bool)
  /-- ATOM_SWAP (R221). Atomically swaps in a value and returns the old value. -/
  | atomSwap (d : BitVec 7) (a : BitVec 7) (p : Bool) (o : BitVec 2) (t : BitVec 3) (u : Bool)
  /-- ATOM_CAS (R221). Atomically compares and swaps, returning the old value. -/
  | atomCas (d : BitVec 7) (a : BitVec 7) (p : Bool) (o : BitVec 2) (t : BitVec 3) (u : Bool)
  /-- ATOM_INCW (R221). Atomically increments with wrap at a bound. -/
  | atomIncw (d : BitVec 7) (a : BitVec 7) (p : Bool) (o : BitVec 2) (t : BitVec 3) (u : Bool)
  /-- ATOM_ADDB (R221). Atomically adds only when the sum stays within a bound. -/
  | atomAddb (d : BitVec 7) (a : BitVec 7) (p : Bool) (o : BitVec 2) (t : BitVec 3) (u : Bool)
  /-- ATOM_FADD (R221). Atomically adds a float, rounded RNE, and returns the old value. -/
  | atomFadd (d : BitVec 7) (a : BitVec 7) (p : Bool) (o : BitVec 2) (t : BitVec 3) (u : Bool)
  /-- ACCOPEN (R285). Opens an accumulator range once it passes its checks and obtains capacity. -/
  | accopen (d : BitVec 7) (a : BitVec 7) (b : BitVec 7) (u : Bool)
  /-- ACCCLOSE (R286). Releases and makes a close pending on an open range. -/
  | accclose (x : BitVec 7) (a : BitVec 7) (z : BitVec 7) (u : Bool)
  /-- ACCSCALE (R287). Sends one contribution that scales accumulator rows by a factor. -/
  | accscale (d : BitVec 7) (a : BitVec 7) (b : BitVec 7) (u : Bool)
  /-- ACCZERO (R288). Clears bytes within an open range or within no range. -/
  | acczero (x : BitVec 7) (a : BitVec 7) (b : BitVec 7) (u : Bool)
  /-- RED_FAST (R290). Contributes or reduces a float by addition in arrival order. -/
  | redFast (d : BitVec 7) (a : BitVec 7) (z : BitVec 7) (u : Bool) (w : Bool)
  /-- RED_ORD (R290). Sends a numbered ORD contribution to an open range. -/
  | redOrd (d : BitVec 7) (a : BitVec 7) (b : BitVec 7) (u : Bool) (w : Bool)
  /-- RED_MIN (R290). Reduces a float by FMIN at the home. -/
  | redMin (d : BitVec 7) (a : BitVec 7) (z : BitVec 7) (u : Bool) (w : Bool)
  /-- RED_MAX (R290). Reduces a float by FMAX at the home. -/
  | redMax (d : BitVec 7) (a : BitVec 7) (z : BitVec 7) (u : Bool) (w : Bool)
  /-- REDI_ADD (R290). Reduces an integer by wrapping addition at the home. -/
  | rediAdd (d : BitVec 7) (a : BitVec 7) (z : BitVec 7) (u : Bool) (w : Bool)
  /-- REDI_MIN_I (R290). Reduces an integer by signed minimum at the home. -/
  | rediMinI (d : BitVec 7) (a : BitVec 7) (z : BitVec 7) (u : Bool) (w : Bool)
  /-- REDI_MIN_B (R290). Reduces an integer by unsigned minimum at the home. -/
  | rediMinB (d : BitVec 7) (a : BitVec 7) (z : BitVec 7) (u : Bool) (w : Bool)
  /-- REDI_MAX_I (R290). Reduces an integer by signed maximum at the home. -/
  | rediMaxI (d : BitVec 7) (a : BitVec 7) (z : BitVec 7) (u : Bool) (w : Bool)
  /-- REDI_MAX_B (R290). Reduces an integer by unsigned maximum at the home. -/
  | rediMaxB (d : BitVec 7) (a : BitVec 7) (z : BitVec 7) (u : Bool) (w : Bool)
  /-- REDI_AND (R290). Reduces an integer by bitwise AND at the home. -/
  | rediAnd (d : BitVec 7) (a : BitVec 7) (z : BitVec 7) (u : Bool) (w : Bool)
  /-- REDI_OR (R290). Reduces an integer by bitwise OR at the home. -/
  | rediOr (d : BitVec 7) (a : BitVec 7) (z : BitVec 7) (u : Bool) (w : Bool)
  /-- REDI_XOR (R290). Reduces an integer by bitwise XOR at the home. -/
  | rediXor (d : BitVec 7) (a : BitVec 7) (z : BitVec 7) (u : Bool) (w : Bool)
  /-- CFLUSH (R291). Writes dirty rind grains of a range to HBM and marks them clean. -/
  | cflush (x : BitVec 7) (a : BitVec 7) (b : BitVec 7) (u : Bool)
  /-- CINV (R291). Writes back and drops rind grains and replicas of a range and invalidates L1 sectors. -/
  | cinv (x : BitVec 7) (a : BitVec 7) (b : BitVec 7) (u : Bool)
  /-- CSPAN (R292). Pins or unpins spatial-predictor fill lengths for the frames of a range. -/
  | cspan (d : BitVec 7) (a : BitVec 7) (c : Bool) (k : BitVec 3) (u : Bool)
  /-- BINIT (R305). Initialises a barrier object, releasing its waiters with BAR_INVAL. -/
  | binit (d : BitVec 7) (a : BitVec 7) (z : BitVec 7) (u : Bool)
  /-- BARV (R306). Arrives on a barrier with a register count, as a CORE-scope release. -/
  | barv (x : BitVec 7) (a : BitVec 7) (b : BitVec 7) (u : Bool)
  /-- BARV_IMM (R306). Arrives on a barrier with an imm7 count. -/
  | barvImm (x : BitVec 7) (a : BitVec 7) (i : BitVec 7) (u : Bool)
  /-- BEXP (R307). Adds expected bytes to a barrier's current local phase. -/
  | bexp (x : BitVec 7) (a : BitVec 7) (b : BitVec 7) (u : Bool)
  /-- BWAIT (R308). Ends the clause and blocks the group until a barrier phase completes. -/
  | bwait (x : BitVec 7) (a : BitVec 7) (b : BitVec 7) (u : Bool)
  /-- BTEST (R309). Tests one bit of a barrier phase and validity without blocking. -/
  | btest (d : BitVec 7) (a : BitVec 7) (b : BitVec 7) (u : Bool)
  /-- BINVAL (R305). Invalidates a barrier object, releasing its waiters with BAR_INVAL. -/
  | binval (x : BitVec 7) (a : BitVec 7) (z : BitVec 7) (u : Bool)
  /-- BSYNC (R310). Arrives and waits on the local phase with a time-out, ending the clause. -/
  | bsync (x : BitVec 7) (a : BitVec 7) (b : BitVec 7) (u : Bool)
  /-- CQRY (R338). Reads a command ring's state summary. -/
  | cqry (d : BitVec 7) (y : BitVec 7) (i : BitVec 7) (u : Bool)
  /-- MOVTS (R362). Writes a valid shape to a tile's shape register. -/
  | movts (d : BitVec 7) (a : BitVec 7) (z : BitVec 7) (u : Bool)
  /-- MOVST (R362). Reads a tile's shape register. -/
  | movst (d : BitVec 7) (a : BitVec 7) (z : BitVec 7) (u : Bool)
  /-- TLD (R361). Loads a tile's shape size of bytes from memory, setting it filling. -/
  | tld (d : BitVec 7) (a : BitVec 7) (z : BitVec 7) (u : Bool)
  /-- TLD_OB (R361). Loads a tile from an operand-buffer slot. -/
  | tldOb (d : BitVec 7) (a : BitVec 7) (z : BitVec 7) (u : Bool)
  /-- TST (R361). Stores a tile's shape size of bytes to memory as stores of the group. -/
  | tst (d : BitVec 7) (a : BitVec 7) (z : BitVec 7) (u : Bool)
  /-- TZERO (R362). Zeroes every byte of a standalone ready tile. -/
  | tzero (d : BitVec 7) (y : BitVec 7) (z : BitVec 7) (u : Bool)
  /-- TWR (R362). Writes one element of a tile. -/
  | twr (d : BitVec 7) (a : BitVec 7) (b : BitVec 7) (u : Bool)
  /-- TRD (R362). Reads one element of a tile. -/
  | trd (d : BitVec 7) (a : BitVec 7) (b : BitVec 7) (u : Bool)
  /-- TRING (R347). Enables or disables a tile ring by its descriptor. -/
  | tring (d : BitVec 7) (a : BitVec 7) (z : BitVec 7) (u : Bool)
  /-- TREL (R348). Releases the tile at a ring's consumer pointer. -/
  | trel (d : BitVec 7) (y : BitVec 7) (z : BitVec 7) (u : Bool)
  /-- MMAI (R364). Checks a parameter block and issues a matrix operation to the group's queue. -/
  | mmai (x : BitVec 7) (a : BitVec 7) (z : BitVec 7) (u : Bool)
  /-- MMAQ (R365). Reads the matrix engine's governor and in-flight status. -/
  | mmaq (d : BitVec 7) (y : BitVec 7) (z : BitVec 7) (u : Bool)
  /-- LDMETA (R361). Loads 2048 bytes from memory into a metadata slot. -/
  | ldmeta (d : BitVec 7) (a : BitVec 7) (z : BitVec 7) (u : Bool)
  /-- PUT (R382). Sends bytes to memory or a gang peer's local store on another island. -/
  | put (d : BitVec 7) (a : BitVec 7) (o : BitVec 2) (u : Bool)
  /-- PUTN (R382). Puts bytes and then increments a notify counter at the destination. -/
  | putn (d : BitVec 7) (a : BitVec 7) (o : BitVec 2) (u : Bool)
  /-- GET (R382). Fetches bytes from another island into the local side. -/
  | get (d : BitVec 7) (a : BitVec 7) (o : BitVec 2) (u : Bool)
  /-- MPUT (R382). Puts local-store bytes to every island of a mask. -/
  | mput (d : BitVec 7) (a : BitVec 7) (o : BitVec 2) (u : Bool)
  /-- RATOM (R384). Performs an atomic at a remote island's home and returns the old value. -/
  | ratom (d : BitVec 7) (y : BitVec 7) (t : BitVec 3) (o : BitVec 4) (u : Bool)
  /-- RRED (R385). Sends numbered reduction elements to a remote island. -/
  | rred (d : BitVec 7) (y : BitVec 7) (o : Bool) (w : Bool) (u : Bool)
  /-- GBARV (R394). Makes one gang-barrier arrival of the team naming a local barrier. -/
  | gbarv (x : BitVec 7) (a : BitVec 7) (z : BitVec 7) (u : Bool)
  /-- FQRY (R398). Reads a fabric state item. -/
  | fqry (d : BitVec 7) (y : BitVec 7) (i : BitVec 7) (u : Bool)
  /-- ILLOP (R47). An instruction word whose OP value, U bit or must-be-zero mod7 bits match no assigned encoding raises ILLOP, precise at that instruction. -/
  | illop (word : BitVec 32)
  /-- CLAUSE_ISSUE (R114). A free lane takes the best-ranked ready clause, fetching and checking its header. -/
  | clauseIssue
  /-- CLAUSE_END (R105). A clause finishes on its lane and the group's thread states and PCs are updated in one step. -/
  | clauseEnd
  /-- LL_COMPLETE (R19). A long-latency instruction completes for all its threads and its flag's pending count falls. -/
  | llComplete
  /-- RBACQ_GRANT (R120). A pending register-block request is granted once budget and free blocks allow. -/
  | rbacqGrant
  /-- FAULT_RECORD_ENQUEUE (R167). A fault record enters the die's fault queue, waiting while it is full. -/
  | faultRecordEnqueue
  /-- FAULT_RECORD_HANDLING (R168). The command core takes a fault record and acts on it by code and debug bit. -/
  | faultRecordHandling
  /-- PREEMPTION_REQUEST (R171). A pre-emption request reaches a core and stops issue of the named teams. -/
  | preemptionRequest
  /-- DRAIN_COMPLETE (R172). The team's in-flight work has come to rest and it enters SAVING. -/
  | drainComplete
  /-- IMAGE_WRITTEN (R175). The team's context image is written, its resources freed and it enters SAVED. -/
  | imageWritten
  /-- RESUME_REQUEST (R175). A resume request moves a saved team to WAITING after the restore checks. -/
  | resumeRequest
  /-- RESOURCES_RESERVED (R185). A waiting team obtains all its resources at once and enters LOADING. -/
  | resourcesReserved
  /-- LOAD_COMPLETE (R186). Every section is written back and the team enters RUN. -/
  | loadComplete
  /-- STORE_QUEUE_DEPART (R196). A store leaves its group's store queue, updating the L1 and going to its home. -/
  | storeQueueDepart
  /-- HOME_APPLY (R188). A home applies a store, atomic, replay or landed byte in coherence order. -/
  | homeApply
  /-- STORE_ACKNOWLEDGEMENT (R196). A home's acknowledgement of a store or atomic reaches the issuing core. -/
  | storeAcknowledgement
  /-- HOME_READ (R188). A read is served at its home with the latest value in coherence order. -/
  | homeRead
  /-- FILL_COMPLETE (R264). Fetched grains arrive from HBM and join the adjacent rind blocks. -/
  | fillComplete
  /-- L1_FILL (R191). Load data returns to the core and installs the grain's sectors where permitted. -/
  | l1Fill
  /-- RELEASE_PERFORM (R200). A held release performs once its earlier accesses and side-log entries are done. -/
  | releasePerform
  /-- PROMOTION (R207). A promotion reaches its victim core, draining store queues and invalidating its L1. -/
  | promotion
  /-- MAP_REQUEST (R241). The command engine receives a map request and acts on the entry's FILL policy. -/
  | mapRequest
  /-- MAP_NOTICE (R242). A map notice reaches a core; held accesses retranslate and logged entries replay. -/
  | mapNotice
  /-- DECLINE_NOTICE (R242). A declined map reaches a core; held groups take NOT_MAPPED and log entries are discarded. -/
  | declineNotice
  /-- SHOOTDOWN (R238). A shoot-down reaches a target and sweeps its cached translations. -/
  | shootdown
  /-- SHOOTDOWN_ACK (R238). A target acknowledges once accesses under old translations have performed. -/
  | shootdownAck
  /-- PAGE_CHANGE_STEP (R250). The next step of a page change begins when the previous one has completed. -/
  | pageChangeStep
  /-- CONTRIBUTION_ARRIVAL (R276). A contribution reaches its range's home and is applied, pooled, refused or discarded. -/
  | contributionArrival
  /-- ACCOPEN_CAPACITY (R279). A held ACCOPEN obtains capacity and opens its range. -/
  | accopenCapacity
  /-- ACC_CLOSE_POINT (R278). A closing range with REMAIN 0 and an empty pool becomes ordinary dirty grains. -/
  | accClosePoint
  /-- ARRIVAL_RETRY (R173). A refused arrival is sent again until the receiving engine accepts it. -/
  | arrivalRetry
  /-- BYTES_LANDED (R296). Copy or get bytes naming a barrier perform and are counted. -/
  | bytesLanded
  /-- PUT_ACKNOWLEDGEMENT (R389). A put's acknowledgement returns and is counted at its barrier. -/
  | putAcknowledgement
  /-- REMOTE_ARRIVAL (R301). A partner's BARV arrives at the object's remote section. -/
  | remoteArrival
  /-- GANG_COMPLETION (R394). A gang generation's completion is delivered to each team's named barrier. -/
  | gangCompletion
  /-- GANG_ARRIVAL (R394). A team's gang arrival travels on the control wavelength and is counted. -/
  | gangArrival
  /-- BSYNC_TIMEOUT (R310). A BSYNC wait expires and the group is released with BAR_TIMEOUT. -/
  | bsyncTimeout
  /-- WAIT_FOR_WALK (R314). The command core walks the wait-for table on its timer. -/
  | waitForWalk
  /-- COPY_NOTIFY (R318). A write to a ring's notify word makes the copy engine take published entries. -/
  | copyNotify
  /-- RING_RESTART (R321). A write to a stopped ring's DONE word restarts it at the value written. -/
  | ringRestart
  /-- COPY_LANDING (R331). A copy element is written at its destination and counted. -/
  | copyLanding
  /-- COPY_TILE_DELIVERY (R332). Once the ring tile at P is empty, the engine fills it and makes it ready. -/
  | copyTileDelivery
  /-- COPY_ENTRY_COMPLETE (R324). An entry's bytes, count and bits are done and DONE advances. -/
  | copyEntryComplete
  /-- KSTEP_FIRE (R353). A k-step fires once its tiles are ready, its window has room and the governor allows. -/
  | kstepFire
  /-- KSTEP_READS_COMPLETE (R348). A k-step's tile reads finish, releasing ring tiles and draining tiles. -/
  | kstepReadsComplete
  /-- MMAI_QUEUE_ENTRY (R354). An operation waiting on a full queue enters the group's operation queue. -/
  | mmaiQueueEntry
  /-- GOVERNOR_WINDOW (R360). A new 64-clk window renews the core's k-step budget. -/
  | governorWindow
  /-- DISPENSER_REQUEST (R413). A FETCHT request reaches the home die's dispenser and takes an index. -/
  | dispenserRequest
  /-- STATIC_EXHAUST_RELEASE (R414). A held static-order request receives all ones once the space or shares are exhausted. -/
  | staticExhaustRelease
  /-- FABRIC_SLOT (R372). A 25 ns slot begins and each plane's lasers send under the rotation. -/
  | fabricSlot
  /-- PACKET_RECEIVE (R374). A packet arrives at a port and is delivered in stream order, relayed or held. -/
  | packetReceive
  /-- PACKET_ACK (R374). A receiving port's acknowledgement reaches the source. -/
  | packetAck
  /-- PACKET_RETRANSMIT (R378). An unacknowledged packet times out after 500 ns and is sent again. -/
  | packetRetransmit
  /-- PLANE_BLACKOUT (R391). A plane's 200 ns blackout begins on its fixed timetable. -/
  | planeBlackout
  /-- BLACKOUT_END (R391). A plane's blackout ends and it carries traffic again. -/
  | blackoutEnd
  /-- LINK_STEP_DOWN (R392). The error rate over 1024 slots exceeds the threshold and a step to two-level is announced. -/
  | linkStepDown
  /-- LINK_STEP_DONE (R392). Eight slots after the announcement the link runs two-level. -/
  | linkStepDone
  /-- LINK_PROBE_START (R392). After 64 µs without errors the link begins PAM4 test frames. -/
  | linkProbeStart
  /-- LINK_PROBE_PASS (R392). Sixteen clean test frames return the link to PAM4. -/
  | linkProbePass
  /-- LINK_PROBE_FAIL (R392). An errored test frame returns the link to two-level. -/
  | linkProbeFail
  /-- RETRAIN_REQUEST (R392). Either end, or excess two-level errors, requests a link retrain. -/
  | retrainRequest
  /-- RETRAIN_ACCEPT (R392). The other end accepts and the link retrains. -/
  | retrainAccept
  /-- RETRAIN_DEFER (R392). The other end defers a retrain for 1 ms. -/
  | retrainDefer
  /-- RETRAIN_LOCKED (R392). The link locks within 50 µs and returns to PAM4. -/
  | retrainLocked
  /-- RETRAIN_TIMEOUT (R392). The link fails to lock within 50 µs and goes DOWN. -/
  | retrainTimeout
  /-- SLOT_MARK (R373). A slot mark on the control wavelength aligns slots and trims the time counter. -/
  | slotMark
  /-- TOFF_MEASUREMENT (R156). The lease holder re-measures every die's time offset at least every 10 ms. -/
  | toffMeasurement
  /-- LEASE_RENEWAL (R422). Every 2 ms the leader renews the lease with the next launch number and ceiling. -/
  | leaseRenewal
  /-- RENEWAL_HEARD (R422). A follower hears a renewal and adopts its term. -/
  | renewalHeard
  /-- RENEWAL_ACKNOWLEDGEMENT (R423). A joined die's acknowledgement of a renewal reaches the leader. -/
  | renewalAcknowledgement
  /-- LEASE_TIMEOUT (R422). A follower hears no renewal for 10 ms and starts its election timer. -/
  | leaseTimeout
  /-- ELECTION_TIMER (R422). A die's rank timer expires with no claim heard and it claims the lease. -/
  | electionTimer
  /-- CLAIM_HEARD (R422). A claim with a higher term makes an electing die or leader a follower. -/
  | claimHeard
  /-- LEADER_LAPSE (R422). A leader 10 ms past its last sent renewal stops every leader duty. -/
  | leaderLapse
  /-- DIE_RESET (R429). Power good or an ordered reset puts a die in SELFTEST. -/
  | dieReset
  /-- SELFTEST_COMPLETE (R429). Self-test ends, fencing failed units or the die. -/
  | selftestComplete
  /-- IMAGE_VERIFY (R429). Microcode images are read from flash and both signatures checked. -/
  | imageVerify
  /-- IDENTITY_EXCHANGE (R429). Partner dies exchange and verify identity reports over the die-to-die link. -/
  | identityExchange
  /-- PARTNER_SILENT (R429). The partner stays silent for 100 ms and the die forms an island of one die. -/
  | partnerSilent
  /-- PANEL_JOIN (R429). The lease holder verifies the island's report and the die joins with a new incarnation. -/
  | panelJoin
  /-- JOIN_TIMEOUT (R429). No leader within 500 ms and no claim won fences the die. -/
  | joinTimeout
  /-- DIE_FENCE (R435). A die is fenced at run time, stopping its launches and clearing its DIEMASK bit. -/
  | dieFence
  /-- SUPPLY_SAG (R432). The core rail falls below threshold and the clock steps to 1.9 GHz. -/
  | supplySag
  /-- SAG_RECOVERY (R432). After 10 µs above threshold the clock returns to 2.1 GHz. -/
  | sagRecovery
  /-- POWER_CAP_UPDATE (R432). Every 100 µs firmware sets KCAP from measured power. -/
  | powerCapUpdate
  /-- ECC_ERROR (R433). An uncorrectable read is repeated once and classed transient or lasting. -/
  | eccError
  /-- DIE_LINK_ERROR (R433). A die-to-die packet fails, is repeated, and on lasting failure halves the link. -/
  | dieLinkError
  /-- HOST_READ (R425). A host port reads device memory, served at the home. -/
  | hostRead
  /-- HOST_WRITE (R428). A host port writes device memory, directly to HBM outside the window. -/
  | hostWrite
  /-- QUEUE_ENABLE (R402). The host writes STATE 1; the descriptor is checked and the queue runs. -/
  | queueEnable
  /-- QUEUE_DISABLE (R402). The host writes STATE 0 and the queue takes no further packet. -/
  | queueDisable
  /-- REGISTER_WRITE (R401). A write to a register or descriptor field that has no row of its own. -/
  | registerWrite
  /-- ATTESTATION_REQUEST (R431). The host increments the challenge count and the lease holder writes a signed attestation report. -/
  | attestationRequest
  /-- HENEZ_NOP (R405). A NOP packet does nothing. -/
  | henezNop
  /-- LAUNCH (R406). A LAUNCH packet is accepted, numbered and planned. -/
  | henezLaunch
  /-- LAUNCH_IND (R406). A LAUNCH_IND packet reads its extents from memory after earlier launches retire. -/
  | henezLaunchInd
  /-- LAUNCH_PLACE (R27). Once resources are free a launch is placed and its groups started. -/
  | launchPlace
  /-- LAUNCH_RETIRE (R27). After all teams exit and owed work finishes, resources are freed and the completion record written. -/
  | launchRetire
  /-- WAIT (R415). A WAIT packet arms a watch entry and stalls its queue until the condition holds. -/
  | henezWait
  /-- SIGNAL_STORE (R417). A SIGNAL stores VALUE after earlier launches retire, as a PANEL-scope release. -/
  | henezSignalStore
  /-- SIGNAL_ADD (R417). A SIGNAL atomically adds VALUE after earlier launches retire. -/
  | henezSignalAdd
  /-- LOOP (R418). A LOOP reads its count and repeats its body that many times. -/
  | henezLoop
  /-- ENDLOOP (R418). An ENDLOOP closes the innermost LOOP body. -/
  | henezEndloop
  /-- IF (R418). An IF tests its condition once and selects a branch of packets. -/
  | henezIf
  /-- ELSE (R418). An ELSE divides the innermost IF. -/
  | henezElse
  /-- ENDIF (R418). An ENDIF closes the innermost IF. -/
  | henezEndif
  /-- BANKROLE (R419). A BANKROLE packet is checked and queued for the die. -/
  | henezBankrole
  /-- BANKROLE_EXECUTE (R258). With no launch on the die, the bank-role change runs its steps. -/
  | bankroleExecute
  /-- PAGEMODE (R419). A PAGEMODE packet changes or removes pages by the procedure of R250. -/
  | henezPagemode
  /-- TOPO (R419). A TOPO packet installs a new set of topology tables when accepted. -/
  | henezTopo
  /-- PREEMPT (R419). A PREEMPT with RESUME 0 pre-empts a launch and holds it saved. -/
  | henezPreempt
  /-- PREEMPT_RESUME (R419). A PREEMPT with RESUME 1 releases the hold and requests a resume. -/
  | henezPreemptResume
  /-- PREEMPT_ABORT (R419). A PREEMPT with ABORT 1 frees a held launch with STATUS 4. -/
  | henezPreemptAbort
  /-- MAP (R419). A MAP packet writes the leaf for a FILL 2 request and sends map notices. -/
  | henezMap
  /-- MAP_DECLINE (R419). A MAP packet with DECLINE 1 declines a FILL 2 request. -/
  | henezMapDecline
  /-- XFER_SEND (R419). An XFER sends bytes to another module over an inter-module port. -/
  | henezXferSend
  /-- XFER_FETCH (R419). An XFER fetches bytes from another module over an inter-module port. -/
  | henezXferFetch
  /-- PACKET_OPCODE_NOT_ASSIGNED (R404). A Henez packet whose opcode is not assigned halts its queue with ERR 1 and takes no effect. -/
  | henezUnassigned
  deriving DecidableEq, Repr

end Sys2Proof
end

