-- ==== Sys2Proof/Machine/Forms.lean ====
section
/-!
DEFINITION. Forms.lean: what the opcode map says of each instruction word beside its effect: the role of each
operand field (R35 to R40, R48, R52 to R62), which words are long-latency (R46), which must end a clause (R43) and
which modifier and selector values are accepted (R41, R45 step 2).
-/
namespace Sys2Proof

/-- The role of an operand field (R36 to R40). The number is how many registers it names. -/
inductive Operand where
  | src (n : Nat) (code : BitVec 7)      -- only read: the source column of R36
  | dst (n : Nat) (code : BitVec 7)      -- written: the destination column of R36
  | rw (n : Nat) (code : BitVec 7)       -- read and written: the destination column (R37)
  | fetch3 (code : BitVec 7)             -- three registers, at most 109 (R38)
  | tile (code : BitVec 7)
  | ring (code : BitVec 7)
  | slot (code : BitVec 7)
  | srcElt (tile code : BitVec 7)        -- a tile element read from registers: a pair when the tile's EW is 64 (R362)
  | dstElt (tile code : BitVec 7)        -- a tile element written to registers
  deriving DecidableEq, Repr

/-- Registers of an integer operand: a pair in the 64-bit variants (R48). -/
def wd (w : Bool) : Nat := if w then 2 else 1

/-- Registers of a floating-point operand by type code t (R51). -/
def ft (t : BitVec 2) : Nat := if t = 0 then 2 else 1

/-- Registers of an operand by the type codes of R50. -/
def tySize (t : BitVec 4) : Nat := if t = 6 ∨ t = 7 ∨ t = 8 then 2 else 1

/-- Bits of the narrow codes of R53. -/
def narrowWidth (n : BitVec 4) : Nat := if n = 4 ∨ n = 10 ∨ n = 11 then 4 else if n = 5 ∨ n = 6 then 16 else 8

/-- Registers of one operand of an atomic type (R57, R220). -/
def atomRegs (t : BitVec 3) : Nat := if t = 6 then 4 else if t = 2 ∨ t = 3 ∨ t = 5 then 2 else 1

/-- Types that atomic operation o accepts (the table of R57). -/
def atomTypeOk (o : Nat) (t : BitVec 3) : Bool :=
  if o = 8 then t = 0 ∨ t = 2 ∨ t = 6
  else if o = 9 ∨ o = 10 then t = 0 ∨ t = 2
  else if o = 11 then t = 4 ∨ t = 5
  else o < 8 ∧ t.toNat < 4

/-- Operation and type of REDG and SCANG (R54). -/
def crossOk (o : BitVec 3) (t : BitVec 4) : Bool :=
  4 ≤ t.toNat ∧ t.toNat ≤ 9 ∧ o.toNat < 6 ∧ ¬ (3 ≤ o.toNat ∧ 8 ≤ t.toNat)

/-- 32-bit special register numbers (R154). -/
def special32 (n : Nat) : Bool := n ≤ 0x0E ∨ (0x18 ≤ n ∧ n ≤ 0x3B)

/-- 64-bit special register numbers (R154). -/
def special64 (n : Nat) : Bool := n = 0x10 ∨ n = 0x11 ∨ (0x40 ≤ n ∧ n ≤ 0x7B)

/-- Control register numbers (R158). -/
def controlOk (n : Nat) : Bool := n ≤ 5

/-- Control registers that MOVC.w may write (R158). -/
def controlWritable (n : Nat) : Bool := n ≤ 1

/-- Items that FQRY lists (R398). -/
def fqryOk (n : Nat) : Bool := n ≤ 7 ∨ (0x10 ≤ n ∧ n ≤ 0x4D) ∨ n = 0x4E

/-- The operand fields of an instruction word with their roles; the steps of the engines have none. -/
def Instr.operands : Instr → List Operand
  | .iadd d a b _ w => [.dst (wd w) d, .src (wd w) a, .src (wd w) b]
  | .iaddImm d a _ _ w => [.dst (wd w) d, .src (wd w) a]
  | .isub d a b _ w => [.dst (wd w) d, .src (wd w) a, .src (wd w) b]
  | .isubImm d a _ _ w => [.dst (wd w) d, .src (wd w) a]
  | .imul d a b _ w => [.dst (wd w) d, .src (wd w) a, .src (wd w) b]
  | .imulImm d a _ _ w => [.dst (wd w) d, .src (wd w) a]
  | .imulhI d a b _ w => [.dst (wd w) d, .src (wd w) a, .src (wd w) b]
  | .imulhIImm d a _ _ => [.dst 1 d, .src 1 a]
  | .imulhB d a b _ w => [.dst (wd w) d, .src (wd w) a, .src (wd w) b]
  | .imulhBImm d a _ _ => [.dst 1 d, .src 1 a]
  | .imad d a b _ w => [.rw (wd w) d, .src (wd w) a, .src (wd w) b]
  | .imadImm d a _ _ w => [.rw (wd w) d, .src (wd w) a]
  | .imadwI d a b _ => [.rw 2 d, .src 1 a, .src 1 b]
  | .imadwIImm d a _ _ => [.rw 2 d, .src 1 a]
  | .imadwB d a b _ => [.rw 2 d, .src 1 a, .src 1 b]
  | .imadwBImm d a _ _ => [.rw 2 d, .src 1 a]
  | .ineg d a _ _ w => [.dst (wd w) d, .src (wd w) a]
  | .iabs d a _ _ w => [.dst (wd w) d, .src (wd w) a]
  | .iminI d a b _ w => [.dst (wd w) d, .src (wd w) a, .src (wd w) b]
  | .iminIImm d a _ _ w => [.dst (wd w) d, .src (wd w) a]
  | .iminB d a b _ w => [.dst (wd w) d, .src (wd w) a, .src (wd w) b]
  | .iminBImm d a _ _ w => [.dst (wd w) d, .src (wd w) a]
  | .imaxI d a b _ w => [.dst (wd w) d, .src (wd w) a, .src (wd w) b]
  | .imaxIImm d a _ _ w => [.dst (wd w) d, .src (wd w) a]
  | .imaxB d a b _ w => [.dst (wd w) d, .src (wd w) a, .src (wd w) b]
  | .imaxBImm d a _ _ w => [.dst (wd w) d, .src (wd w) a]
  | .and d a b _ w => [.dst (wd w) d, .src (wd w) a, .src (wd w) b]
  | .andImm d a _ _ w => [.dst (wd w) d, .src (wd w) a]
  | .or d a b _ w => [.dst (wd w) d, .src (wd w) a, .src (wd w) b]
  | .orImm d a _ _ w => [.dst (wd w) d, .src (wd w) a]
  | .xor d a b _ w => [.dst (wd w) d, .src (wd w) a, .src (wd w) b]
  | .xorImm d a _ _ w => [.dst (wd w) d, .src (wd w) a]
  | .andn d a b _ w => [.dst (wd w) d, .src (wd w) a, .src (wd w) b]
  | .andnImm d a _ _ w => [.dst (wd w) d, .src (wd w) a]
  | .not d a _ _ w => [.dst (wd w) d, .src (wd w) a]
  | .shl d a b _ w => [.dst (wd w) d, .src (wd w) a, .src (wd w) b]
  | .shlImm d a _ _ w => [.dst (wd w) d, .src (wd w) a]
  | .shr d a b _ w => [.dst (wd w) d, .src (wd w) a, .src (wd w) b]
  | .shrImm d a _ _ w => [.dst (wd w) d, .src (wd w) a]
  | .sar d a b _ w => [.dst (wd w) d, .src (wd w) a, .src (wd w) b]
  | .sarImm d a _ _ w => [.dst (wd w) d, .src (wd w) a]
  | .rol d a b _ w => [.dst (wd w) d, .src (wd w) a, .src (wd w) b]
  | .rolImm d a _ _ w => [.dst (wd w) d, .src (wd w) a]
  | .bfxB d a b _ w => [.dst (wd w) d, .src (wd w) a, .src 1 b]
  | .bfxI d a b _ w => [.dst (wd w) d, .src (wd w) a, .src 1 b]
  | .bfi d a b _ w => [.rw (wd w) d, .src (wd w) a, .src 1 b]
  | .popc d a _ _ w => [.dst 1 d, .src (wd w) a]
  | .clz d a _ _ w => [.dst 1 d, .src (wd w) a]
  | .ctz d a _ _ w => [.dst 1 d, .src (wd w) a]
  | .brev d a _ _ w => [.dst (wd w) d, .src (wd w) a]
  | .prmt d a b _ => [.rw 1 d, .src 1 a, .src 1 b]
  | .mov d a _ _ w => [.dst (wd w) d, .src (wd w) a]
  | .movImm d _ _ _ w => [.dst (wd w) d]
  | .icmpEq d a b _ w => [.dst 1 d, .src (wd w) a, .src (wd w) b]
  | .icmpEqImm d a _ _ w => [.dst 1 d, .src (wd w) a]
  | .icmpNe d a b _ w => [.dst 1 d, .src (wd w) a, .src (wd w) b]
  | .icmpNeImm d a _ _ w => [.dst 1 d, .src (wd w) a]
  | .icmpLtI d a b _ w => [.dst 1 d, .src (wd w) a, .src (wd w) b]
  | .icmpLtIImm d a _ _ w => [.dst 1 d, .src (wd w) a]
  | .icmpLeI d a b _ w => [.dst 1 d, .src (wd w) a, .src (wd w) b]
  | .icmpLeIImm d a _ _ w => [.dst 1 d, .src (wd w) a]
  | .icmpGtI d a b _ w => [.dst 1 d, .src (wd w) a, .src (wd w) b]
  | .icmpGtIImm d a _ _ w => [.dst 1 d, .src (wd w) a]
  | .icmpGeI d a b _ w => [.dst 1 d, .src (wd w) a, .src (wd w) b]
  | .icmpGeIImm d a _ _ w => [.dst 1 d, .src (wd w) a]
  | .icmpLtB d a b _ w => [.dst 1 d, .src (wd w) a, .src (wd w) b]
  | .icmpLtBImm d a _ _ w => [.dst 1 d, .src (wd w) a]
  | .icmpLeB d a b _ w => [.dst 1 d, .src (wd w) a, .src (wd w) b]
  | .icmpLeBImm d a _ _ w => [.dst 1 d, .src (wd w) a]
  | .icmpGtB d a b _ w => [.dst 1 d, .src (wd w) a, .src (wd w) b]
  | .icmpGtBImm d a _ _ w => [.dst 1 d, .src (wd w) a]
  | .icmpGeB d a b _ w => [.dst 1 d, .src (wd w) a, .src (wd w) b]
  | .icmpGeBImm d a _ _ w => [.dst 1 d, .src (wd w) a]
  | .sel d a b _ w => [.rw (wd w) d, .src (wd w) a, .src (wd w) b]
  | .fadd d a b _ _ t => [.dst (ft t) d, .src (ft t) a, .src (ft t) b]
  | .fsub d a b _ _ t => [.dst (ft t) d, .src (ft t) a, .src (ft t) b]
  | .fmul d a b _ _ t => [.dst (ft t) d, .src (ft t) a, .src (ft t) b]
  | .ffma d a b _ _ t => [.rw (ft t) d, .src (ft t) a, .src (ft t) b]
  | .fdiv d a b _ _ t => [.dst (ft t) d, .src (ft t) a, .src (ft t) b]
  | .fsqrt d a _ _ _ t => [.dst (ft t) d, .src (ft t) a]
  | .frcpCr d a _ _ _ t => [.dst (ft t) d, .src (ft t) a]
  | .frsqCr d a _ _ _ t => [.dst (ft t) d, .src (ft t) a]
  | .fscale d a b _ _ t => [.dst (ft t) d, .src (ft t) a, .src 1 b]
  | .frnd d a _ _ _ t => [.dst (ft t) d, .src (ft t) a]
  | .fneg d a _ _ t => [.dst (ft t) d, .src (ft t) a]
  | .fabs d a _ _ t => [.dst (ft t) d, .src (ft t) a]
  | .fmin d a b _ t => [.dst (ft t) d, .src (ft t) a, .src (ft t) b]
  | .fmax d a b _ t => [.dst (ft t) d, .src (ft t) a, .src (ft t) b]
  | .fminn d a b _ t => [.dst (ft t) d, .src (ft t) a, .src (ft t) b]
  | .fmaxn d a b _ t => [.dst (ft t) d, .src (ft t) a, .src (ft t) b]
  | .fclass d a _ _ t => [.dst 1 d, .src (ft t) a]
  | .ffrexp d a b _ t => [.dst (ft t) d, .src (ft t) a, .dst 1 b]
  | .fcmpEq d a b _ t => [.dst 1 d, .src (ft t) a, .src (ft t) b]
  | .fcmpLt d a b _ t => [.dst 1 d, .src (ft t) a, .src (ft t) b]
  | .fcmpLe d a b _ t => [.dst 1 d, .src (ft t) a, .src (ft t) b]
  | .fcmpUn d a b _ t => [.dst 1 d, .src (ft t) a, .src (ft t) b]
  | .fcmpNe d a b _ t => [.dst 1 d, .src (ft t) a, .src (ft t) b]
  | .fcmpGt d a b _ t => [.dst 1 d, .src (ft t) a, .src (ft t) b]
  | .fcmpGe d a b _ t => [.dst 1 d, .src (ft t) a, .src (ft t) b]
  | .fcmpOrd d a b _ t => [.dst 1 d, .src (ft t) a, .src (ft t) b]
  | .fexp2 d a _ _ => [.dst 1 d, .src 1 a]
  | .flog2 d a _ _ => [.dst 1 d, .src 1 a]
  | .fsin d a _ _ => [.dst 1 d, .src 1 a]
  | .fcos d a _ _ => [.dst 1 d, .src 1 a]
  | .ftanh d a _ _ => [.dst 1 d, .src 1 a]
  | .frcp d a _ _ t => [.dst (ft t) d, .src (ft t) a]
  | .frsq d a _ _ t => [.dst (ft t) d, .src (ft t) a]
  | .cvt d a _ _ s _ t => [.dst (tySize t) d, .src (tySize s) a]
  | .cvtpk d a _ _ _ _ _ => [.rw 1 d, .src 1 a]
  | .cvtupk d a _ _ _ => [.dst 1 d, .src 1 a]
  | .cvtscMul d a b _ => [.dst 1 d, .src 1 a, .src 1 b]
  | .cvtscExp d a _ _ => [.dst 1 d, .src 1 a]
  | .shflIdx d a b => [.dst 1 d, .src 1 a, .src 1 b]
  | .shflUp d a b => [.dst 1 d, .src 1 a, .src 1 b]
  | .shflDown d a b => [.dst 1 d, .src 1 a, .src 1 b]
  | .shflXor d a b => [.dst 1 d, .src 1 a, .src 1 b]
  | .voteAny d a _ => [.dst 1 d, .src 1 a]
  | .voteAll d a _ => [.dst 1 d, .src 1 a]
  | .voteBallot d a _ => [.dst 1 d, .src 1 a]
  | .elect d _ _ => [.dst 1 d]
  | .redg d a _ t => [.dst (tySize t) d, .src (tySize t) a]
  | .scangIncl d a _ t => [.dst (tySize t) d, .src (tySize t) a]
  | .scangExcl d a _ t => [.dst (tySize t) d, .src (tySize t) a]
  | .nop _ _ _ _ => []
  | .bra _ _ b _ => [.src 1 b]
  | .braImm _ _ _ _ => []
  | .brz _ a b _ => [.src 1 a, .src 1 b]
  | .brzImm _ a _ _ => [.src 1 a]
  | .brnz _ a b _ => [.src 1 a, .src 1 b]
  | .brnzImm _ a _ _ => [.src 1 a]
  | .jmpr _ a _ _ => [.src 2 a]
  | .call d a _ _ => [.dst 2 d, .src 1 a]
  | .callImm d _ _ _ => [.dst 2 d]
  | .callr d a _ _ => [.dst 2 d, .src 2 a]
  | .ret _ a _ _ => [.src 2 a]
  | .yield _ _ _ => []
  | .wsync _ a _ => [.src 1 a]
  | .exit _ _ _ => []
  | .trap _ _ _ _ => []
  | .bkpt _ _ _ _ => []
  | .wbase _ a _ _ => [.src 1 a]
  | .wbaseImm _ _ _ _ => []
  | .rbacq _ a _ _ => [.src 1 a]
  | .rbacqImm _ _ _ _ => []
  | .rbrel _ a _ _ => [.src 1 a]
  | .rbrelImm _ _ _ _ => []
  | .rquota _ a _ _ _ => [.src 1 a]
  | .fetcht d _ _ _ => [.fetch3 d]
  | .movs d _ _ _ => [.dst 1 d]
  | .movc d _ _ _ => [.dst 1 d]
  | .movcW _ a _ _ => [.src 1 a]
  | .movs64 d _ _ _ => [.dst 2 d]
  | .ld d a _ t _ => [.dst (tySize t) d, .src 2 a]
  | .ldSpan d a _ t _ => [.dst (tySize t) d, .src 2 a]
  | .st d a _ t _ => [.src (tySize t) d, .src 2 a]
  | .ldl d a _ t _ => [.dst (tySize t) d, .src 1 a]
  | .stl d a _ t _ => [.src (tySize t) d, .src 1 a]
  | .pref _ a _ _ _ => [.src 2 a]
  | .pqry d a _ _ => [.dst 2 d, .src 2 a]
  | .atomAdd d a p _ t _ => [.rw (atomRegs t) d, .src (if p then 4 else 2) a]
  | .atomSub d a p _ t _ => [.rw (atomRegs t) d, .src (if p then 4 else 2) a]
  | .atomMin d a p _ t _ => [.rw (atomRegs t) d, .src (if p then 4 else 2) a]
  | .atomMax d a p _ t _ => [.rw (atomRegs t) d, .src (if p then 4 else 2) a]
  | .atomAnd d a p _ t _ => [.rw (atomRegs t) d, .src (if p then 4 else 2) a]
  | .atomOr d a p _ t _ => [.rw (atomRegs t) d, .src (if p then 4 else 2) a]
  | .atomXor d a p _ t _ => [.rw (atomRegs t) d, .src (if p then 4 else 2) a]
  | .atomSwap d a p _ t _ => [.rw (atomRegs t) d, .src (if p then 4 else 2) a]
  | .atomCas d a p _ t _ => [.rw (2 * atomRegs t) d, .src (if p then 4 else 2) a]
  | .atomIncw d a p _ t _ => [.rw (atomRegs t) d, .src (if p then 4 else 2) a]
  | .atomAddb d a p _ t _ => [.rw (2 * atomRegs t) d, .src (if p then 4 else 2) a]
  | .atomFadd d a p _ t _ => [.rw (atomRegs t) d, .src (if p then 4 else 2) a]
  | .accopen d a b _ => [.src 2 d, .src 2 a, .src 1 b]
  | .accclose _ a _ _ => [.src 2 a]
  | .accscale d a b _ => [.src 2 d, .src 2 a, .src 1 b]
  | .acczero _ a b _ => [.src 2 a, .src 1 b]
  | .redFast d a _ _ w => [.src (wd w) d, .src 2 a]
  | .redOrd d a b _ w => [.src (wd w) d, .src 2 a, .src 1 b]
  | .redMin d a _ _ w => [.src (wd w) d, .src 2 a]
  | .redMax d a _ _ w => [.src (wd w) d, .src 2 a]
  | .rediAdd d a _ _ w => [.src (wd w) d, .src 2 a]
  | .rediMinI d a _ _ w => [.src (wd w) d, .src 2 a]
  | .rediMinB d a _ _ w => [.src (wd w) d, .src 2 a]
  | .rediMaxI d a _ _ w => [.src (wd w) d, .src 2 a]
  | .rediMaxB d a _ _ w => [.src (wd w) d, .src 2 a]
  | .rediAnd d a _ _ w => [.src (wd w) d, .src 2 a]
  | .rediOr d a _ _ w => [.src (wd w) d, .src 2 a]
  | .rediXor d a _ _ w => [.src (wd w) d, .src 2 a]
  | .cflush _ a b _ => [.src 2 a, .src 1 b]
  | .cinv _ a b _ => [.src 2 a, .src 1 b]
  | .cspan d a _ _ _ => [.src 1 d, .src 2 a]
  | .binit d a _ _ => [.src 2 d, .src 1 a]
  | .barv _ a b _ => [.src 1 a, .src 1 b]
  | .barvImm _ a _ _ => [.src 1 a]
  | .bexp _ a b _ => [.src 1 a, .src 1 b]
  | .bwait _ a b _ => [.src 1 a, .src 1 b]
  | .btest d a b _ => [.dst 1 d, .src 1 a, .src 1 b]
  | .binval _ a _ _ => [.src 1 a]
  | .bsync _ a b _ => [.src 1 a, .src 1 b]
  | .cqry d _ _ _ => [.dst 1 d]
  | .movts d a _ _ => [.tile d, .src 1 a]
  | .movst d a _ _ => [.dst 1 d, .tile a]
  | .tld d a _ _ => [.tile d, .src 2 a]
  | .tldOb d a _ _ => [.tile d, .src 1 a]
  | .tst d a _ _ => [.tile d, .src 2 a]
  | .tzero d _ _ _ => [.tile d]
  | .twr d a b _ => [.tile d, .srcElt d a, .src 1 b]
  | .trd d a b _ => [.tile a, .dstElt a d, .src 1 b]
  | .tring d a _ _ => [.ring d, .src 1 a]
  | .trel d _ _ _ => [.ring d]
  | .mmai _ a _ _ => [.src 1 a]
  | .mmaq d _ _ _ => [.dst 1 d]
  | .ldmeta d a _ _ => [.slot d, .src 2 a]
  | .put d a _ _ => [.src 4 d, .src 1 a]
  | .putn d a _ _ => [.src 4 d, .src 1 a]
  | .get d a _ _ => [.src 4 d, .src 1 a]
  | .mput d a _ _ => [.src 4 d, .src 1 a]
  | .ratom d _ _ _ _ => [.rw 4 d]
  | .rred d _ _ _ _ => [.src 4 d]
  | .gbarv _ a _ _ => [.src 1 a]
  | .fqry d _ _ _ => [.dst 1 d]
  | .illop _ => []
  | .clauseIssue => []
  | .clauseEnd => []
  | .llComplete => []
  | .rbacqGrant => []
  | .faultRecordEnqueue => []
  | .faultRecordHandling => []
  | .preemptionRequest => []
  | .drainComplete => []
  | .imageWritten => []
  | .resumeRequest => []
  | .resourcesReserved => []
  | .loadComplete => []
  | .storeQueueDepart => []
  | .homeApply => []
  | .storeAcknowledgement => []
  | .homeRead => []
  | .fillComplete => []
  | .l1Fill => []
  | .releasePerform => []
  | .promotion => []
  | .mapRequest => []
  | .mapNotice => []
  | .declineNotice => []
  | .shootdown => []
  | .shootdownAck => []
  | .pageChangeStep => []
  | .contributionArrival => []
  | .accopenCapacity => []
  | .accClosePoint => []
  | .arrivalRetry => []
  | .bytesLanded => []
  | .putAcknowledgement => []
  | .remoteArrival => []
  | .gangCompletion => []
  | .gangArrival => []
  | .bsyncTimeout => []
  | .waitForWalk => []
  | .copyNotify => []
  | .ringRestart => []
  | .copyLanding => []
  | .copyTileDelivery => []
  | .copyEntryComplete => []
  | .kstepFire => []
  | .kstepReadsComplete => []
  | .mmaiQueueEntry => []
  | .governorWindow => []
  | .dispenserRequest => []
  | .staticExhaustRelease => []
  | .fabricSlot => []
  | .packetReceive => []
  | .packetAck => []
  | .packetRetransmit => []
  | .planeBlackout => []
  | .blackoutEnd => []
  | .linkStepDown => []
  | .linkStepDone => []
  | .linkProbeStart => []
  | .linkProbePass => []
  | .linkProbeFail => []
  | .retrainRequest => []
  | .retrainAccept => []
  | .retrainDefer => []
  | .retrainLocked => []
  | .retrainTimeout => []
  | .slotMark => []
  | .toffMeasurement => []
  | .leaseRenewal => []
  | .renewalHeard => []
  | .renewalAcknowledgement => []
  | .leaseTimeout => []
  | .electionTimer => []
  | .claimHeard => []
  | .leaderLapse => []
  | .dieReset => []
  | .selftestComplete => []
  | .imageVerify => []
  | .identityExchange => []
  | .partnerSilent => []
  | .panelJoin => []
  | .joinTimeout => []
  | .dieFence => []
  | .supplySag => []
  | .sagRecovery => []
  | .powerCapUpdate => []
  | .eccError => []
  | .dieLinkError => []
  | .hostRead => []
  | .hostWrite => []
  | .queueEnable => []
  | .queueDisable => []
  | .registerWrite => []
  | .attestationRequest => []
  | .henezNop => []
  | .henezLaunch => []
  | .henezLaunchInd => []
  | .launchPlace => []
  | .launchRetire => []
  | .henezWait => []
  | .henezSignalStore => []
  | .henezSignalAdd => []
  | .henezLoop => []
  | .henezEndloop => []
  | .henezIf => []
  | .henezElse => []
  | .henezEndif => []
  | .henezBankrole => []
  | .bankroleExecute => []
  | .henezPagemode => []
  | .henezTopo => []
  | .henezPreempt => []
  | .henezPreemptResume => []
  | .henezPreemptAbort => []
  | .henezMap => []
  | .henezMapDecline => []
  | .henezXferSend => []
  | .henezXferFetch => []
  | .henezUnassigned => []

/-- The OP values that the map marks long-latency; a word of such an OP is one even where a later check rejects it (R46). -/
def llOp (op : Nat) : Bool :=
  decide (op = 0x218) || (decide (0x260 ≤ op) && decide (op ≤ 0x264)) || decide (op = 0x266) ||
    (decide (0x270 ≤ op) && decide (op ≤ 0x27B)) || (decide (0x2E0 ≤ op) && decide (op ≤ 0x2EB)) ||
    (decide (0x2F0 ≤ op) && decide (op ≤ 0x301)) || (decide (0x352 ≤ op) && decide (op ≤ 0x354)) || decide (op = 0x35A) ||
    decide (op = 0x35C) || (decide (0x390 ≤ op) && decide (op ≤ 0x395))

/-- Long-latency instructions (R46; the LL column of the opcode map). -/
def Instr.isLL : Instr → Bool
  | .iadd _ _ _ _ _ => false
  | .iaddImm _ _ _ _ _ => false
  | .isub _ _ _ _ _ => false
  | .isubImm _ _ _ _ _ => false
  | .imul _ _ _ _ _ => false
  | .imulImm _ _ _ _ _ => false
  | .imulhI _ _ _ _ _ => false
  | .imulhIImm _ _ _ _ => false
  | .imulhB _ _ _ _ _ => false
  | .imulhBImm _ _ _ _ => false
  | .imad _ _ _ _ _ => false
  | .imadImm _ _ _ _ _ => false
  | .imadwI _ _ _ _ => false
  | .imadwIImm _ _ _ _ => false
  | .imadwB _ _ _ _ => false
  | .imadwBImm _ _ _ _ => false
  | .ineg _ _ _ _ _ => false
  | .iabs _ _ _ _ _ => false
  | .iminI _ _ _ _ _ => false
  | .iminIImm _ _ _ _ _ => false
  | .iminB _ _ _ _ _ => false
  | .iminBImm _ _ _ _ _ => false
  | .imaxI _ _ _ _ _ => false
  | .imaxIImm _ _ _ _ _ => false
  | .imaxB _ _ _ _ _ => false
  | .imaxBImm _ _ _ _ _ => false
  | .and _ _ _ _ _ => false
  | .andImm _ _ _ _ _ => false
  | .or _ _ _ _ _ => false
  | .orImm _ _ _ _ _ => false
  | .xor _ _ _ _ _ => false
  | .xorImm _ _ _ _ _ => false
  | .andn _ _ _ _ _ => false
  | .andnImm _ _ _ _ _ => false
  | .not _ _ _ _ _ => false
  | .shl _ _ _ _ _ => false
  | .shlImm _ _ _ _ _ => false
  | .shr _ _ _ _ _ => false
  | .shrImm _ _ _ _ _ => false
  | .sar _ _ _ _ _ => false
  | .sarImm _ _ _ _ _ => false
  | .rol _ _ _ _ _ => false
  | .rolImm _ _ _ _ _ => false
  | .bfxB _ _ _ _ _ => false
  | .bfxI _ _ _ _ _ => false
  | .bfi _ _ _ _ _ => false
  | .popc _ _ _ _ _ => false
  | .clz _ _ _ _ _ => false
  | .ctz _ _ _ _ _ => false
  | .brev _ _ _ _ _ => false
  | .prmt _ _ _ _ => false
  | .mov _ _ _ _ _ => false
  | .movImm _ _ _ _ _ => false
  | .icmpEq _ _ _ _ _ => false
  | .icmpEqImm _ _ _ _ _ => false
  | .icmpNe _ _ _ _ _ => false
  | .icmpNeImm _ _ _ _ _ => false
  | .icmpLtI _ _ _ _ _ => false
  | .icmpLtIImm _ _ _ _ _ => false
  | .icmpLeI _ _ _ _ _ => false
  | .icmpLeIImm _ _ _ _ _ => false
  | .icmpGtI _ _ _ _ _ => false
  | .icmpGtIImm _ _ _ _ _ => false
  | .icmpGeI _ _ _ _ _ => false
  | .icmpGeIImm _ _ _ _ _ => false
  | .icmpLtB _ _ _ _ _ => false
  | .icmpLtBImm _ _ _ _ _ => false
  | .icmpLeB _ _ _ _ _ => false
  | .icmpLeBImm _ _ _ _ _ => false
  | .icmpGtB _ _ _ _ _ => false
  | .icmpGtBImm _ _ _ _ _ => false
  | .icmpGeB _ _ _ _ _ => false
  | .icmpGeBImm _ _ _ _ _ => false
  | .sel _ _ _ _ _ => false
  | .fadd _ _ _ _ _ _ => false
  | .fsub _ _ _ _ _ _ => false
  | .fmul _ _ _ _ _ _ => false
  | .ffma _ _ _ _ _ _ => false
  | .fdiv _ _ _ _ _ _ => false
  | .fsqrt _ _ _ _ _ _ => false
  | .frcpCr _ _ _ _ _ _ => false
  | .frsqCr _ _ _ _ _ _ => false
  | .fscale _ _ _ _ _ _ => false
  | .frnd _ _ _ _ _ _ => false
  | .fneg _ _ _ _ _ => false
  | .fabs _ _ _ _ _ => false
  | .fmin _ _ _ _ _ => false
  | .fmax _ _ _ _ _ => false
  | .fminn _ _ _ _ _ => false
  | .fmaxn _ _ _ _ _ => false
  | .fclass _ _ _ _ _ => false
  | .ffrexp _ _ _ _ _ => false
  | .fcmpEq _ _ _ _ _ => false
  | .fcmpLt _ _ _ _ _ => false
  | .fcmpLe _ _ _ _ _ => false
  | .fcmpUn _ _ _ _ _ => false
  | .fcmpNe _ _ _ _ _ => false
  | .fcmpGt _ _ _ _ _ => false
  | .fcmpGe _ _ _ _ _ => false
  | .fcmpOrd _ _ _ _ _ => false
  | .fexp2 _ _ _ _ => false
  | .flog2 _ _ _ _ => false
  | .fsin _ _ _ _ => false
  | .fcos _ _ _ _ => false
  | .ftanh _ _ _ _ => false
  | .frcp _ _ _ _ _ => false
  | .frsq _ _ _ _ _ => false
  | .cvt _ _ _ _ _ _ _ => false
  | .cvtpk _ _ _ _ _ _ _ => false
  | .cvtupk _ _ _ _ _ => false
  | .cvtscMul _ _ _ _ => false
  | .cvtscExp _ _ _ _ => false
  | .shflIdx _ _ _ => false
  | .shflUp _ _ _ => false
  | .shflDown _ _ _ => false
  | .shflXor _ _ _ => false
  | .voteAny _ _ _ => false
  | .voteAll _ _ _ => false
  | .voteBallot _ _ _ => false
  | .elect _ _ _ => false
  | .redg _ _ _ _ => false
  | .scangIncl _ _ _ _ => false
  | .scangExcl _ _ _ _ => false
  | .nop _ _ _ _ => false
  | .bra _ _ _ _ => false
  | .braImm _ _ _ _ => false
  | .brz _ _ _ _ => false
  | .brzImm _ _ _ _ => false
  | .brnz _ _ _ _ => false
  | .brnzImm _ _ _ _ => false
  | .jmpr _ _ _ _ => false
  | .call _ _ _ _ => false
  | .callImm _ _ _ _ => false
  | .callr _ _ _ _ => false
  | .ret _ _ _ _ => false
  | .yield _ _ _ => false
  | .wsync _ _ _ => false
  | .exit _ _ _ => false
  | .trap _ _ _ _ => false
  | .bkpt _ _ _ _ => false
  | .wbase _ _ _ _ => false
  | .wbaseImm _ _ _ _ => false
  | .rbacq _ _ _ _ => false
  | .rbacqImm _ _ _ _ => false
  | .rbrel _ _ _ _ => false
  | .rbrelImm _ _ _ _ => false
  | .rquota _ _ _ _ _ => false
  | .fetcht _ _ _ _ => true
  | .movs _ _ _ _ => false
  | .movc _ _ _ _ => false
  | .movcW _ _ _ _ => false
  | .movs64 _ _ _ _ => false
  | .ld _ _ _ _ _ => true
  | .ldSpan _ _ _ _ _ => true
  | .st _ _ _ _ _ => true
  | .ldl _ _ _ _ _ => true
  | .stl _ _ _ _ _ => true
  | .pref _ _ _ _ _ => false
  | .pqry _ _ _ _ => true
  | .atomAdd _ _ _ _ _ _ => true
  | .atomSub _ _ _ _ _ _ => true
  | .atomMin _ _ _ _ _ _ => true
  | .atomMax _ _ _ _ _ _ => true
  | .atomAnd _ _ _ _ _ _ => true
  | .atomOr _ _ _ _ _ _ => true
  | .atomXor _ _ _ _ _ _ => true
  | .atomSwap _ _ _ _ _ _ => true
  | .atomCas _ _ _ _ _ _ => true
  | .atomIncw _ _ _ _ _ _ => true
  | .atomAddb _ _ _ _ _ _ => true
  | .atomFadd _ _ _ _ _ _ => true
  | .accopen _ _ _ _ => true
  | .accclose _ _ _ _ => true
  | .accscale _ _ _ _ => true
  | .acczero _ _ _ _ => true
  | .redFast _ _ _ _ _ => true
  | .redOrd _ _ _ _ _ => true
  | .redMin _ _ _ _ _ => true
  | .redMax _ _ _ _ _ => true
  | .rediAdd _ _ _ _ _ => true
  | .rediMinI _ _ _ _ _ => true
  | .rediMinB _ _ _ _ _ => true
  | .rediMaxI _ _ _ _ _ => true
  | .rediMaxB _ _ _ _ _ => true
  | .rediAnd _ _ _ _ _ => true
  | .rediOr _ _ _ _ _ => true
  | .rediXor _ _ _ _ _ => true
  | .cflush _ _ _ _ => true
  | .cinv _ _ _ _ => true
  | .cspan _ _ _ _ _ => false
  | .binit _ _ _ _ => false
  | .barv _ _ _ _ => false
  | .barvImm _ _ _ _ => false
  | .bexp _ _ _ _ => false
  | .bwait _ _ _ _ => false
  | .btest _ _ _ _ => false
  | .binval _ _ _ _ => false
  | .bsync _ _ _ _ => false
  | .cqry _ _ _ _ => false
  | .movts _ _ _ _ => false
  | .movst _ _ _ _ => false
  | .tld _ _ _ _ => true
  | .tldOb _ _ _ _ => true
  | .tst _ _ _ _ => true
  | .tzero _ _ _ _ => false
  | .twr _ _ _ _ => false
  | .trd _ _ _ _ => false
  | .tring _ _ _ _ => false
  | .trel _ _ _ _ => false
  | .mmai _ _ _ _ => true
  | .mmaq _ _ _ _ => false
  | .ldmeta _ _ _ _ => true
  | .put _ _ _ _ => true
  | .putn _ _ _ _ => true
  | .get _ _ _ _ => true
  | .mput _ _ _ _ => true
  | .ratom _ _ _ _ _ => true
  | .rred _ _ _ _ _ => true
  | .gbarv _ _ _ _ => false
  | .fqry _ _ _ _ => false
  | .illop w => llOp (w.extractLsb' 0 10).toNat
  | .clauseIssue => false
  | .clauseEnd => false
  | .llComplete => false
  | .rbacqGrant => false
  | .faultRecordEnqueue => false
  | .faultRecordHandling => false
  | .preemptionRequest => false
  | .drainComplete => false
  | .imageWritten => false
  | .resumeRequest => false
  | .resourcesReserved => false
  | .loadComplete => false
  | .storeQueueDepart => false
  | .homeApply => false
  | .storeAcknowledgement => false
  | .homeRead => false
  | .fillComplete => false
  | .l1Fill => false
  | .releasePerform => false
  | .promotion => false
  | .mapRequest => false
  | .mapNotice => false
  | .declineNotice => false
  | .shootdown => false
  | .shootdownAck => false
  | .pageChangeStep => false
  | .contributionArrival => false
  | .accopenCapacity => false
  | .accClosePoint => false
  | .arrivalRetry => false
  | .bytesLanded => false
  | .putAcknowledgement => false
  | .remoteArrival => false
  | .gangCompletion => false
  | .gangArrival => false
  | .bsyncTimeout => false
  | .waitForWalk => false
  | .copyNotify => false
  | .ringRestart => false
  | .copyLanding => false
  | .copyTileDelivery => false
  | .copyEntryComplete => false
  | .kstepFire => false
  | .kstepReadsComplete => false
  | .mmaiQueueEntry => false
  | .governorWindow => false
  | .dispenserRequest => false
  | .staticExhaustRelease => false
  | .fabricSlot => false
  | .packetReceive => false
  | .packetAck => false
  | .packetRetransmit => false
  | .planeBlackout => false
  | .blackoutEnd => false
  | .linkStepDown => false
  | .linkStepDone => false
  | .linkProbeStart => false
  | .linkProbePass => false
  | .linkProbeFail => false
  | .retrainRequest => false
  | .retrainAccept => false
  | .retrainDefer => false
  | .retrainLocked => false
  | .retrainTimeout => false
  | .slotMark => false
  | .toffMeasurement => false
  | .leaseRenewal => false
  | .renewalHeard => false
  | .renewalAcknowledgement => false
  | .leaseTimeout => false
  | .electionTimer => false
  | .claimHeard => false
  | .leaderLapse => false
  | .dieReset => false
  | .selftestComplete => false
  | .imageVerify => false
  | .identityExchange => false
  | .partnerSilent => false
  | .panelJoin => false
  | .joinTimeout => false
  | .dieFence => false
  | .supplySag => false
  | .sagRecovery => false
  | .powerCapUpdate => false
  | .eccError => false
  | .dieLinkError => false
  | .hostRead => false
  | .hostWrite => false
  | .queueEnable => false
  | .queueDisable => false
  | .registerWrite => false
  | .attestationRequest => false
  | .henezNop => false
  | .henezLaunch => false
  | .henezLaunchInd => false
  | .launchPlace => false
  | .launchRetire => false
  | .henezWait => false
  | .henezSignalStore => false
  | .henezSignalAdd => false
  | .henezLoop => false
  | .henezEndloop => false
  | .henezIf => false
  | .henezElse => false
  | .henezEndif => false
  | .henezBankrole => false
  | .bankroleExecute => false
  | .henezPagemode => false
  | .henezTopo => false
  | .henezPreempt => false
  | .henezPreemptResume => false
  | .henezPreemptAbort => false
  | .henezMap => false
  | .henezMapDecline => false
  | .henezXferSend => false
  | .henezXferFetch => false
  | .henezUnassigned => false

/-- Clause-end instructions (R43). -/
def Instr.isClauseEnd : Instr → Bool
  | .iadd _ _ _ _ _ => false
  | .iaddImm _ _ _ _ _ => false
  | .isub _ _ _ _ _ => false
  | .isubImm _ _ _ _ _ => false
  | .imul _ _ _ _ _ => false
  | .imulImm _ _ _ _ _ => false
  | .imulhI _ _ _ _ _ => false
  | .imulhIImm _ _ _ _ => false
  | .imulhB _ _ _ _ _ => false
  | .imulhBImm _ _ _ _ => false
  | .imad _ _ _ _ _ => false
  | .imadImm _ _ _ _ _ => false
  | .imadwI _ _ _ _ => false
  | .imadwIImm _ _ _ _ => false
  | .imadwB _ _ _ _ => false
  | .imadwBImm _ _ _ _ => false
  | .ineg _ _ _ _ _ => false
  | .iabs _ _ _ _ _ => false
  | .iminI _ _ _ _ _ => false
  | .iminIImm _ _ _ _ _ => false
  | .iminB _ _ _ _ _ => false
  | .iminBImm _ _ _ _ _ => false
  | .imaxI _ _ _ _ _ => false
  | .imaxIImm _ _ _ _ _ => false
  | .imaxB _ _ _ _ _ => false
  | .imaxBImm _ _ _ _ _ => false
  | .and _ _ _ _ _ => false
  | .andImm _ _ _ _ _ => false
  | .or _ _ _ _ _ => false
  | .orImm _ _ _ _ _ => false
  | .xor _ _ _ _ _ => false
  | .xorImm _ _ _ _ _ => false
  | .andn _ _ _ _ _ => false
  | .andnImm _ _ _ _ _ => false
  | .not _ _ _ _ _ => false
  | .shl _ _ _ _ _ => false
  | .shlImm _ _ _ _ _ => false
  | .shr _ _ _ _ _ => false
  | .shrImm _ _ _ _ _ => false
  | .sar _ _ _ _ _ => false
  | .sarImm _ _ _ _ _ => false
  | .rol _ _ _ _ _ => false
  | .rolImm _ _ _ _ _ => false
  | .bfxB _ _ _ _ _ => false
  | .bfxI _ _ _ _ _ => false
  | .bfi _ _ _ _ _ => false
  | .popc _ _ _ _ _ => false
  | .clz _ _ _ _ _ => false
  | .ctz _ _ _ _ _ => false
  | .brev _ _ _ _ _ => false
  | .prmt _ _ _ _ => false
  | .mov _ _ _ _ _ => false
  | .movImm _ _ _ _ _ => false
  | .icmpEq _ _ _ _ _ => false
  | .icmpEqImm _ _ _ _ _ => false
  | .icmpNe _ _ _ _ _ => false
  | .icmpNeImm _ _ _ _ _ => false
  | .icmpLtI _ _ _ _ _ => false
  | .icmpLtIImm _ _ _ _ _ => false
  | .icmpLeI _ _ _ _ _ => false
  | .icmpLeIImm _ _ _ _ _ => false
  | .icmpGtI _ _ _ _ _ => false
  | .icmpGtIImm _ _ _ _ _ => false
  | .icmpGeI _ _ _ _ _ => false
  | .icmpGeIImm _ _ _ _ _ => false
  | .icmpLtB _ _ _ _ _ => false
  | .icmpLtBImm _ _ _ _ _ => false
  | .icmpLeB _ _ _ _ _ => false
  | .icmpLeBImm _ _ _ _ _ => false
  | .icmpGtB _ _ _ _ _ => false
  | .icmpGtBImm _ _ _ _ _ => false
  | .icmpGeB _ _ _ _ _ => false
  | .icmpGeBImm _ _ _ _ _ => false
  | .sel _ _ _ _ _ => false
  | .fadd _ _ _ _ _ _ => false
  | .fsub _ _ _ _ _ _ => false
  | .fmul _ _ _ _ _ _ => false
  | .ffma _ _ _ _ _ _ => false
  | .fdiv _ _ _ _ _ _ => false
  | .fsqrt _ _ _ _ _ _ => false
  | .frcpCr _ _ _ _ _ _ => false
  | .frsqCr _ _ _ _ _ _ => false
  | .fscale _ _ _ _ _ _ => false
  | .frnd _ _ _ _ _ _ => false
  | .fneg _ _ _ _ _ => false
  | .fabs _ _ _ _ _ => false
  | .fmin _ _ _ _ _ => false
  | .fmax _ _ _ _ _ => false
  | .fminn _ _ _ _ _ => false
  | .fmaxn _ _ _ _ _ => false
  | .fclass _ _ _ _ _ => false
  | .ffrexp _ _ _ _ _ => false
  | .fcmpEq _ _ _ _ _ => false
  | .fcmpLt _ _ _ _ _ => false
  | .fcmpLe _ _ _ _ _ => false
  | .fcmpUn _ _ _ _ _ => false
  | .fcmpNe _ _ _ _ _ => false
  | .fcmpGt _ _ _ _ _ => false
  | .fcmpGe _ _ _ _ _ => false
  | .fcmpOrd _ _ _ _ _ => false
  | .fexp2 _ _ _ _ => false
  | .flog2 _ _ _ _ => false
  | .fsin _ _ _ _ => false
  | .fcos _ _ _ _ => false
  | .ftanh _ _ _ _ => false
  | .frcp _ _ _ _ _ => false
  | .frsq _ _ _ _ _ => false
  | .cvt _ _ _ _ _ _ _ => false
  | .cvtpk _ _ _ _ _ _ _ => false
  | .cvtupk _ _ _ _ _ => false
  | .cvtscMul _ _ _ _ => false
  | .cvtscExp _ _ _ _ => false
  | .shflIdx _ _ _ => false
  | .shflUp _ _ _ => false
  | .shflDown _ _ _ => false
  | .shflXor _ _ _ => false
  | .voteAny _ _ _ => false
  | .voteAll _ _ _ => false
  | .voteBallot _ _ _ => false
  | .elect _ _ _ => false
  | .redg _ _ _ _ => false
  | .scangIncl _ _ _ _ => false
  | .scangExcl _ _ _ _ => false
  | .nop _ _ _ _ => false
  | .bra _ _ _ _ => true
  | .braImm _ _ _ _ => true
  | .brz _ _ _ _ => true
  | .brzImm _ _ _ _ => true
  | .brnz _ _ _ _ => true
  | .brnzImm _ _ _ _ => true
  | .jmpr _ _ _ _ => true
  | .call _ _ _ _ => true
  | .callImm _ _ _ _ => true
  | .callr _ _ _ _ => true
  | .ret _ _ _ _ => true
  | .yield _ _ _ => true
  | .wsync _ _ _ => true
  | .exit _ _ _ => true
  | .trap _ _ _ _ => false
  | .bkpt _ _ _ _ => false
  | .wbase _ _ _ _ => false
  | .wbaseImm _ _ _ _ => false
  | .rbacq _ _ _ _ => true
  | .rbacqImm _ _ _ _ => true
  | .rbrel _ _ _ _ => false
  | .rbrelImm _ _ _ _ => false
  | .rquota _ _ _ _ _ => false
  | .fetcht _ _ _ _ => false
  | .movs _ _ _ _ => false
  | .movc _ _ _ _ => false
  | .movcW _ _ _ _ => false
  | .movs64 _ _ _ _ => false
  | .ld _ _ _ _ _ => false
  | .ldSpan _ _ _ _ _ => false
  | .st _ _ _ _ _ => false
  | .ldl _ _ _ _ _ => false
  | .stl _ _ _ _ _ => false
  | .pref _ _ _ _ _ => false
  | .pqry _ _ _ _ => false
  | .atomAdd _ _ _ _ _ _ => false
  | .atomSub _ _ _ _ _ _ => false
  | .atomMin _ _ _ _ _ _ => false
  | .atomMax _ _ _ _ _ _ => false
  | .atomAnd _ _ _ _ _ _ => false
  | .atomOr _ _ _ _ _ _ => false
  | .atomXor _ _ _ _ _ _ => false
  | .atomSwap _ _ _ _ _ _ => false
  | .atomCas _ _ _ _ _ _ => false
  | .atomIncw _ _ _ _ _ _ => false
  | .atomAddb _ _ _ _ _ _ => false
  | .atomFadd _ _ _ _ _ _ => false
  | .accopen _ _ _ _ => false
  | .accclose _ _ _ _ => false
  | .accscale _ _ _ _ => false
  | .acczero _ _ _ _ => false
  | .redFast _ _ _ _ _ => false
  | .redOrd _ _ _ _ _ => false
  | .redMin _ _ _ _ _ => false
  | .redMax _ _ _ _ _ => false
  | .rediAdd _ _ _ _ _ => false
  | .rediMinI _ _ _ _ _ => false
  | .rediMinB _ _ _ _ _ => false
  | .rediMaxI _ _ _ _ _ => false
  | .rediMaxB _ _ _ _ _ => false
  | .rediAnd _ _ _ _ _ => false
  | .rediOr _ _ _ _ _ => false
  | .rediXor _ _ _ _ _ => false
  | .cflush _ _ _ _ => false
  | .cinv _ _ _ _ => false
  | .cspan _ _ _ _ _ => false
  | .binit _ _ _ _ => false
  | .barv _ _ _ _ => false
  | .barvImm _ _ _ _ => false
  | .bexp _ _ _ _ => false
  | .bwait _ _ _ _ => true
  | .btest _ _ _ _ => false
  | .binval _ _ _ _ => false
  | .bsync _ _ _ _ => true
  | .cqry _ _ _ _ => false
  | .movts _ _ _ _ => false
  | .movst _ _ _ _ => false
  | .tld _ _ _ _ => false
  | .tldOb _ _ _ _ => false
  | .tst _ _ _ _ => false
  | .tzero _ _ _ _ => false
  | .twr _ _ _ _ => false
  | .trd _ _ _ _ => false
  | .tring _ _ _ _ => false
  | .trel _ _ _ _ => false
  | .mmai _ _ _ _ => false
  | .mmaq _ _ _ _ => false
  | .ldmeta _ _ _ _ => false
  | .put _ _ _ _ => false
  | .putn _ _ _ _ => false
  | .get _ _ _ _ => false
  | .mput _ _ _ _ => false
  | .ratom _ _ _ _ _ => false
  | .rred _ _ _ _ _ => false
  | .gbarv _ _ _ _ => false
  | .fqry _ _ _ _ => false
  | .illop _ => false
  | .clauseIssue => false
  | .clauseEnd => false
  | .llComplete => false
  | .rbacqGrant => false
  | .faultRecordEnqueue => false
  | .faultRecordHandling => false
  | .preemptionRequest => false
  | .drainComplete => false
  | .imageWritten => false
  | .resumeRequest => false
  | .resourcesReserved => false
  | .loadComplete => false
  | .storeQueueDepart => false
  | .homeApply => false
  | .storeAcknowledgement => false
  | .homeRead => false
  | .fillComplete => false
  | .l1Fill => false
  | .releasePerform => false
  | .promotion => false
  | .mapRequest => false
  | .mapNotice => false
  | .declineNotice => false
  | .shootdown => false
  | .shootdownAck => false
  | .pageChangeStep => false
  | .contributionArrival => false
  | .accopenCapacity => false
  | .accClosePoint => false
  | .arrivalRetry => false
  | .bytesLanded => false
  | .putAcknowledgement => false
  | .remoteArrival => false
  | .gangCompletion => false
  | .gangArrival => false
  | .bsyncTimeout => false
  | .waitForWalk => false
  | .copyNotify => false
  | .ringRestart => false
  | .copyLanding => false
  | .copyTileDelivery => false
  | .copyEntryComplete => false
  | .kstepFire => false
  | .kstepReadsComplete => false
  | .mmaiQueueEntry => false
  | .governorWindow => false
  | .dispenserRequest => false
  | .staticExhaustRelease => false
  | .fabricSlot => false
  | .packetReceive => false
  | .packetAck => false
  | .packetRetransmit => false
  | .planeBlackout => false
  | .blackoutEnd => false
  | .linkStepDown => false
  | .linkStepDone => false
  | .linkProbeStart => false
  | .linkProbePass => false
  | .linkProbeFail => false
  | .retrainRequest => false
  | .retrainAccept => false
  | .retrainDefer => false
  | .retrainLocked => false
  | .retrainTimeout => false
  | .slotMark => false
  | .toffMeasurement => false
  | .leaseRenewal => false
  | .renewalHeard => false
  | .renewalAcknowledgement => false
  | .leaseTimeout => false
  | .electionTimer => false
  | .claimHeard => false
  | .leaderLapse => false
  | .dieReset => false
  | .selftestComplete => false
  | .imageVerify => false
  | .identityExchange => false
  | .partnerSilent => false
  | .panelJoin => false
  | .joinTimeout => false
  | .dieFence => false
  | .supplySag => false
  | .sagRecovery => false
  | .powerCapUpdate => false
  | .eccError => false
  | .dieLinkError => false
  | .hostRead => false
  | .hostWrite => false
  | .queueEnable => false
  | .queueDisable => false
  | .registerWrite => false
  | .attestationRequest => false
  | .henezNop => false
  | .henezLaunch => false
  | .henezLaunchInd => false
  | .launchPlace => false
  | .launchRetire => false
  | .henezWait => false
  | .henezSignalStore => false
  | .henezSignalAdd => false
  | .henezLoop => false
  | .henezEndloop => false
  | .henezIf => false
  | .henezElse => false
  | .henezEndif => false
  | .henezBankrole => false
  | .bankroleExecute => false
  | .henezPagemode => false
  | .henezTopo => false
  | .henezPreempt => false
  | .henezPreemptResume => false
  | .henezPreemptAbort => false
  | .henezMap => false
  | .henezMapDecline => false
  | .henezXferSend => false
  | .henezXferFetch => false
  | .henezUnassigned => false

/-- Modifier subfields and B selectors are accepted (R41, R45 step 2); `illop` words never are. -/
def Instr.modOk : Instr → Bool
  | .iadd _ _ _ _ _ => true
  | .iaddImm _ _ _ _ _ => true
  | .isub _ _ _ _ _ => true
  | .isubImm _ _ _ _ _ => true
  | .imul _ _ _ _ _ => true
  | .imulImm _ _ _ _ _ => true
  | .imulhI _ _ _ _ _ => true
  | .imulhIImm _ _ _ _ => true
  | .imulhB _ _ _ _ _ => true
  | .imulhBImm _ _ _ _ => true
  | .imad _ _ _ _ _ => true
  | .imadImm _ _ _ _ _ => true
  | .imadwI _ _ _ _ => true
  | .imadwIImm _ _ _ _ => true
  | .imadwB _ _ _ _ => true
  | .imadwBImm _ _ _ _ => true
  | .ineg _ _ _ _ _ => true
  | .iabs _ _ _ _ _ => true
  | .iminI _ _ _ _ _ => true
  | .iminIImm _ _ _ _ _ => true
  | .iminB _ _ _ _ _ => true
  | .iminBImm _ _ _ _ _ => true
  | .imaxI _ _ _ _ _ => true
  | .imaxIImm _ _ _ _ _ => true
  | .imaxB _ _ _ _ _ => true
  | .imaxBImm _ _ _ _ _ => true
  | .and _ _ _ _ _ => true
  | .andImm _ _ _ _ _ => true
  | .or _ _ _ _ _ => true
  | .orImm _ _ _ _ _ => true
  | .xor _ _ _ _ _ => true
  | .xorImm _ _ _ _ _ => true
  | .andn _ _ _ _ _ => true
  | .andnImm _ _ _ _ _ => true
  | .not _ _ _ _ _ => true
  | .shl _ _ _ _ _ => true
  | .shlImm _ _ _ _ _ => true
  | .shr _ _ _ _ _ => true
  | .shrImm _ _ _ _ _ => true
  | .sar _ _ _ _ _ => true
  | .sarImm _ _ _ _ _ => true
  | .rol _ _ _ _ _ => true
  | .rolImm _ _ _ _ _ => true
  | .bfxB _ _ _ _ _ => true
  | .bfxI _ _ _ _ _ => true
  | .bfi _ _ _ _ _ => true
  | .popc _ _ _ _ _ => true
  | .clz _ _ _ _ _ => true
  | .ctz _ _ _ _ _ => true
  | .brev _ _ _ _ _ => true
  | .prmt _ _ _ _ => true
  | .mov _ _ _ _ _ => true
  | .movImm _ _ _ _ _ => true
  | .icmpEq _ _ _ _ _ => true
  | .icmpEqImm _ _ _ _ _ => true
  | .icmpNe _ _ _ _ _ => true
  | .icmpNeImm _ _ _ _ _ => true
  | .icmpLtI _ _ _ _ _ => true
  | .icmpLtIImm _ _ _ _ _ => true
  | .icmpLeI _ _ _ _ _ => true
  | .icmpLeIImm _ _ _ _ _ => true
  | .icmpGtI _ _ _ _ _ => true
  | .icmpGtIImm _ _ _ _ _ => true
  | .icmpGeI _ _ _ _ _ => true
  | .icmpGeIImm _ _ _ _ _ => true
  | .icmpLtB _ _ _ _ _ => true
  | .icmpLtBImm _ _ _ _ _ => true
  | .icmpLeB _ _ _ _ _ => true
  | .icmpLeBImm _ _ _ _ _ => true
  | .icmpGtB _ _ _ _ _ => true
  | .icmpGtBImm _ _ _ _ _ => true
  | .icmpGeB _ _ _ _ _ => true
  | .icmpGeBImm _ _ _ _ _ => true
  | .sel _ _ _ _ _ => true
  | .fadd _ _ _ _ _ t => t ≠ 3
  | .fsub _ _ _ _ _ t => t ≠ 3
  | .fmul _ _ _ _ _ t => t ≠ 3
  | .ffma _ _ _ _ _ t => t ≠ 3
  | .fdiv _ _ _ _ _ t => t.toNat < 2
  | .fsqrt _ _ _ _ _ t => t.toNat < 2
  | .frcpCr _ _ _ _ _ t => t.toNat < 2
  | .frsqCr _ _ _ _ _ t => t.toNat < 2
  | .fscale _ _ _ _ _ t => t.toNat < 2
  | .frnd _ _ _ _ _ t => t.toNat < 2
  | .fneg _ _ _ _ t => t ≠ 3
  | .fabs _ _ _ _ t => t ≠ 3
  | .fmin _ _ _ _ t => t ≠ 3
  | .fmax _ _ _ _ t => t ≠ 3
  | .fminn _ _ _ _ t => t ≠ 3
  | .fmaxn _ _ _ _ t => t ≠ 3
  | .fclass _ _ _ _ t => t.toNat < 2
  | .ffrexp _ _ _ _ t => t.toNat < 2
  | .fcmpEq _ _ _ _ t => t.toNat < 2
  | .fcmpLt _ _ _ _ t => t.toNat < 2
  | .fcmpLe _ _ _ _ t => t.toNat < 2
  | .fcmpUn _ _ _ _ t => t.toNat < 2
  | .fcmpNe _ _ _ _ t => t.toNat < 2
  | .fcmpGt _ _ _ _ t => t.toNat < 2
  | .fcmpGe _ _ _ _ t => t.toNat < 2
  | .fcmpOrd _ _ _ _ t => t.toNat < 2
  | .fexp2 _ _ _ _ => true
  | .flog2 _ _ _ _ => true
  | .fsin _ _ _ _ => true
  | .fcos _ _ _ _ => true
  | .ftanh _ _ _ _ => true
  | .frcp _ _ _ _ t => t.toNat < 2
  | .frsq _ _ _ _ t => t.toNat < 2
  | .cvt _ _ _ _ s _ t => s.toNat < 12 && t.toNat < 12
  | .cvtpk _ _ p _ _ _ n => p.toNat < 32 / narrowWidth n && n.toNat < 12
  | .cvtupk _ _ p _ n => p.toNat < 32 / narrowWidth n && n.toNat < 12
  | .cvtscMul _ _ _ _ => true
  | .cvtscExp _ _ n _ => n.toNat < 5
  | .shflIdx _ _ _ => true
  | .shflUp _ _ _ => true
  | .shflDown _ _ _ => true
  | .shflXor _ _ _ => true
  | .voteAny _ _ _ => true
  | .voteAll _ _ _ => true
  | .voteBallot _ _ _ => true
  | .elect _ _ _ => true
  | .redg _ _ o t => crossOk o t
  | .scangIncl _ _ o t => crossOk o t
  | .scangExcl _ _ o t => crossOk o t
  | .nop _ _ _ _ => true
  | .bra _ _ _ _ => true
  | .braImm _ _ _ _ => true
  | .brz _ _ _ _ => true
  | .brzImm _ _ _ _ => true
  | .brnz _ _ _ _ => true
  | .brnzImm _ _ _ _ => true
  | .jmpr _ _ _ _ => true
  | .call _ _ _ _ => true
  | .callImm _ _ _ _ => true
  | .callr _ _ _ _ => true
  | .ret _ _ _ _ => true
  | .yield _ _ _ => true
  | .wsync _ _ _ => true
  | .exit _ _ _ => true
  | .trap _ _ _ _ => true
  | .bkpt _ _ _ _ => true
  | .wbase _ _ _ _ => true
  | .wbaseImm _ _ _ _ => true
  | .rbacq _ _ _ _ => true
  | .rbacqImm _ _ _ _ => true
  | .rbrel _ _ _ _ => true
  | .rbrelImm _ _ _ _ => true
  | .rquota _ _ _ _ _ => true
  | .fetcht _ _ _ _ => true
  | .movs _ _ s _ => special32 s.toNat
  | .movc _ _ c _ => controlOk c.toNat
  | .movcW _ _ c _ => controlWritable c.toNat
  | .movs64 _ _ s _ => special64 s.toNat
  | .ld _ _ o _ _ => o ≠ 3
  | .ldSpan _ _ _ _ _ => true
  | .st _ _ _ _ _ => true
  | .ldl _ _ _ _ _ => true
  | .stl _ _ _ _ _ => true
  | .pref _ _ _ l _ => l.toNat < 2
  | .pqry _ _ _ _ => true
  | .atomAdd _ _ _ _ t _ => atomTypeOk 0 t
  | .atomSub _ _ _ _ t _ => atomTypeOk 1 t
  | .atomMin _ _ _ _ t _ => atomTypeOk 2 t
  | .atomMax _ _ _ _ t _ => atomTypeOk 3 t
  | .atomAnd _ _ _ _ t _ => atomTypeOk 4 t
  | .atomOr _ _ _ _ t _ => atomTypeOk 5 t
  | .atomXor _ _ _ _ t _ => atomTypeOk 6 t
  | .atomSwap _ _ _ _ t _ => atomTypeOk 7 t
  | .atomCas _ _ _ _ t _ => atomTypeOk 8 t
  | .atomIncw _ _ _ _ t _ => atomTypeOk 9 t
  | .atomAddb _ _ _ _ t _ => atomTypeOk 10 t
  | .atomFadd _ _ _ _ t _ => atomTypeOk 11 t
  | .accopen _ _ _ _ => true
  | .accclose _ _ _ _ => true
  | .accscale _ _ _ _ => true
  | .acczero _ _ _ _ => true
  | .redFast _ _ _ _ _ => true
  | .redOrd _ _ _ _ _ => true
  | .redMin _ _ _ _ _ => true
  | .redMax _ _ _ _ _ => true
  | .rediAdd _ _ _ _ _ => true
  | .rediMinI _ _ _ _ _ => true
  | .rediMinB _ _ _ _ _ => true
  | .rediMaxI _ _ _ _ _ => true
  | .rediMaxB _ _ _ _ _ => true
  | .rediAnd _ _ _ _ _ => true
  | .rediOr _ _ _ _ _ => true
  | .rediXor _ _ _ _ _ => true
  | .cflush _ _ _ _ => true
  | .cinv _ _ _ _ => true
  | .cspan _ _ _ _ _ => true
  | .binit _ _ _ _ => true
  | .barv _ _ _ _ => true
  | .barvImm _ _ _ _ => true
  | .bexp _ _ _ _ => true
  | .bwait _ _ _ _ => true
  | .btest _ _ _ _ => true
  | .binval _ _ _ _ => true
  | .bsync _ _ _ _ => true
  | .cqry _ _ i _ => i.toNat < 4
  | .movts _ _ _ _ => true
  | .movst _ _ _ _ => true
  | .tld _ _ _ _ => true
  | .tldOb _ _ _ _ => true
  | .tst _ _ _ _ => true
  | .tzero _ _ _ _ => true
  | .twr _ _ _ _ => true
  | .trd _ _ _ _ => true
  | .tring _ _ _ _ => true
  | .trel _ _ _ _ => true
  | .mmai _ _ _ _ => true
  | .mmaq _ _ _ _ => true
  | .ldmeta _ _ _ _ => true
  | .put _ _ o _ => o ≠ 3
  | .putn _ _ o _ => o ≠ 3
  | .get _ _ o _ => o ≠ 3
  | .mput _ _ o _ => o ≠ 3
  | .ratom _ _ t o _ => atomTypeOk o.toNat t
  | .rred _ _ _ _ _ => true
  | .gbarv _ _ _ _ => true
  | .fqry _ _ i _ => fqryOk i.toNat
  | .illop _ => false
  | .clauseIssue => true
  | .clauseEnd => true
  | .llComplete => true
  | .rbacqGrant => true
  | .faultRecordEnqueue => true
  | .faultRecordHandling => true
  | .preemptionRequest => true
  | .drainComplete => true
  | .imageWritten => true
  | .resumeRequest => true
  | .resourcesReserved => true
  | .loadComplete => true
  | .storeQueueDepart => true
  | .homeApply => true
  | .storeAcknowledgement => true
  | .homeRead => true
  | .fillComplete => true
  | .l1Fill => true
  | .releasePerform => true
  | .promotion => true
  | .mapRequest => true
  | .mapNotice => true
  | .declineNotice => true
  | .shootdown => true
  | .shootdownAck => true
  | .pageChangeStep => true
  | .contributionArrival => true
  | .accopenCapacity => true
  | .accClosePoint => true
  | .arrivalRetry => true
  | .bytesLanded => true
  | .putAcknowledgement => true
  | .remoteArrival => true
  | .gangCompletion => true
  | .gangArrival => true
  | .bsyncTimeout => true
  | .waitForWalk => true
  | .copyNotify => true
  | .ringRestart => true
  | .copyLanding => true
  | .copyTileDelivery => true
  | .copyEntryComplete => true
  | .kstepFire => true
  | .kstepReadsComplete => true
  | .mmaiQueueEntry => true
  | .governorWindow => true
  | .dispenserRequest => true
  | .staticExhaustRelease => true
  | .fabricSlot => true
  | .packetReceive => true
  | .packetAck => true
  | .packetRetransmit => true
  | .planeBlackout => true
  | .blackoutEnd => true
  | .linkStepDown => true
  | .linkStepDone => true
  | .linkProbeStart => true
  | .linkProbePass => true
  | .linkProbeFail => true
  | .retrainRequest => true
  | .retrainAccept => true
  | .retrainDefer => true
  | .retrainLocked => true
  | .retrainTimeout => true
  | .slotMark => true
  | .toffMeasurement => true
  | .leaseRenewal => true
  | .renewalHeard => true
  | .renewalAcknowledgement => true
  | .leaseTimeout => true
  | .electionTimer => true
  | .claimHeard => true
  | .leaderLapse => true
  | .dieReset => true
  | .selftestComplete => true
  | .imageVerify => true
  | .identityExchange => true
  | .partnerSilent => true
  | .panelJoin => true
  | .joinTimeout => true
  | .dieFence => true
  | .supplySag => true
  | .sagRecovery => true
  | .powerCapUpdate => true
  | .eccError => true
  | .dieLinkError => true
  | .hostRead => true
  | .hostWrite => true
  | .queueEnable => true
  | .queueDisable => true
  | .registerWrite => true
  | .attestationRequest => true
  | .henezNop => true
  | .henezLaunch => true
  | .henezLaunchInd => true
  | .launchPlace => true
  | .launchRetire => true
  | .henezWait => true
  | .henezSignalStore => true
  | .henezSignalAdd => true
  | .henezLoop => true
  | .henezEndloop => true
  | .henezIf => true
  | .henezElse => true
  | .henezEndif => true
  | .henezBankrole => true
  | .bankroleExecute => true
  | .henezPagemode => true
  | .henezTopo => true
  | .henezPreempt => true
  | .henezPreemptResume => true
  | .henezPreemptAbort => true
  | .henezMap => true
  | .henezMapDecline => true
  | .henezXferSend => true
  | .henezXferFetch => true
  | .henezUnassigned => true

/-- The row is an instruction word of a clause (not a step of an engine, nor a Henez packet). -/
def Instr.isWord : Instr → Bool
  | .iadd _ _ _ _ _ => true
  | .iaddImm _ _ _ _ _ => true
  | .isub _ _ _ _ _ => true
  | .isubImm _ _ _ _ _ => true
  | .imul _ _ _ _ _ => true
  | .imulImm _ _ _ _ _ => true
  | .imulhI _ _ _ _ _ => true
  | .imulhIImm _ _ _ _ => true
  | .imulhB _ _ _ _ _ => true
  | .imulhBImm _ _ _ _ => true
  | .imad _ _ _ _ _ => true
  | .imadImm _ _ _ _ _ => true
  | .imadwI _ _ _ _ => true
  | .imadwIImm _ _ _ _ => true
  | .imadwB _ _ _ _ => true
  | .imadwBImm _ _ _ _ => true
  | .ineg _ _ _ _ _ => true
  | .iabs _ _ _ _ _ => true
  | .iminI _ _ _ _ _ => true
  | .iminIImm _ _ _ _ _ => true
  | .iminB _ _ _ _ _ => true
  | .iminBImm _ _ _ _ _ => true
  | .imaxI _ _ _ _ _ => true
  | .imaxIImm _ _ _ _ _ => true
  | .imaxB _ _ _ _ _ => true
  | .imaxBImm _ _ _ _ _ => true
  | .and _ _ _ _ _ => true
  | .andImm _ _ _ _ _ => true
  | .or _ _ _ _ _ => true
  | .orImm _ _ _ _ _ => true
  | .xor _ _ _ _ _ => true
  | .xorImm _ _ _ _ _ => true
  | .andn _ _ _ _ _ => true
  | .andnImm _ _ _ _ _ => true
  | .not _ _ _ _ _ => true
  | .shl _ _ _ _ _ => true
  | .shlImm _ _ _ _ _ => true
  | .shr _ _ _ _ _ => true
  | .shrImm _ _ _ _ _ => true
  | .sar _ _ _ _ _ => true
  | .sarImm _ _ _ _ _ => true
  | .rol _ _ _ _ _ => true
  | .rolImm _ _ _ _ _ => true
  | .bfxB _ _ _ _ _ => true
  | .bfxI _ _ _ _ _ => true
  | .bfi _ _ _ _ _ => true
  | .popc _ _ _ _ _ => true
  | .clz _ _ _ _ _ => true
  | .ctz _ _ _ _ _ => true
  | .brev _ _ _ _ _ => true
  | .prmt _ _ _ _ => true
  | .mov _ _ _ _ _ => true
  | .movImm _ _ _ _ _ => true
  | .icmpEq _ _ _ _ _ => true
  | .icmpEqImm _ _ _ _ _ => true
  | .icmpNe _ _ _ _ _ => true
  | .icmpNeImm _ _ _ _ _ => true
  | .icmpLtI _ _ _ _ _ => true
  | .icmpLtIImm _ _ _ _ _ => true
  | .icmpLeI _ _ _ _ _ => true
  | .icmpLeIImm _ _ _ _ _ => true
  | .icmpGtI _ _ _ _ _ => true
  | .icmpGtIImm _ _ _ _ _ => true
  | .icmpGeI _ _ _ _ _ => true
  | .icmpGeIImm _ _ _ _ _ => true
  | .icmpLtB _ _ _ _ _ => true
  | .icmpLtBImm _ _ _ _ _ => true
  | .icmpLeB _ _ _ _ _ => true
  | .icmpLeBImm _ _ _ _ _ => true
  | .icmpGtB _ _ _ _ _ => true
  | .icmpGtBImm _ _ _ _ _ => true
  | .icmpGeB _ _ _ _ _ => true
  | .icmpGeBImm _ _ _ _ _ => true
  | .sel _ _ _ _ _ => true
  | .fadd _ _ _ _ _ _ => true
  | .fsub _ _ _ _ _ _ => true
  | .fmul _ _ _ _ _ _ => true
  | .ffma _ _ _ _ _ _ => true
  | .fdiv _ _ _ _ _ _ => true
  | .fsqrt _ _ _ _ _ _ => true
  | .frcpCr _ _ _ _ _ _ => true
  | .frsqCr _ _ _ _ _ _ => true
  | .fscale _ _ _ _ _ _ => true
  | .frnd _ _ _ _ _ _ => true
  | .fneg _ _ _ _ _ => true
  | .fabs _ _ _ _ _ => true
  | .fmin _ _ _ _ _ => true
  | .fmax _ _ _ _ _ => true
  | .fminn _ _ _ _ _ => true
  | .fmaxn _ _ _ _ _ => true
  | .fclass _ _ _ _ _ => true
  | .ffrexp _ _ _ _ _ => true
  | .fcmpEq _ _ _ _ _ => true
  | .fcmpLt _ _ _ _ _ => true
  | .fcmpLe _ _ _ _ _ => true
  | .fcmpUn _ _ _ _ _ => true
  | .fcmpNe _ _ _ _ _ => true
  | .fcmpGt _ _ _ _ _ => true
  | .fcmpGe _ _ _ _ _ => true
  | .fcmpOrd _ _ _ _ _ => true
  | .fexp2 _ _ _ _ => true
  | .flog2 _ _ _ _ => true
  | .fsin _ _ _ _ => true
  | .fcos _ _ _ _ => true
  | .ftanh _ _ _ _ => true
  | .frcp _ _ _ _ _ => true
  | .frsq _ _ _ _ _ => true
  | .cvt _ _ _ _ _ _ _ => true
  | .cvtpk _ _ _ _ _ _ _ => true
  | .cvtupk _ _ _ _ _ => true
  | .cvtscMul _ _ _ _ => true
  | .cvtscExp _ _ _ _ => true
  | .shflIdx _ _ _ => true
  | .shflUp _ _ _ => true
  | .shflDown _ _ _ => true
  | .shflXor _ _ _ => true
  | .voteAny _ _ _ => true
  | .voteAll _ _ _ => true
  | .voteBallot _ _ _ => true
  | .elect _ _ _ => true
  | .redg _ _ _ _ => true
  | .scangIncl _ _ _ _ => true
  | .scangExcl _ _ _ _ => true
  | .nop _ _ _ _ => true
  | .bra _ _ _ _ => true
  | .braImm _ _ _ _ => true
  | .brz _ _ _ _ => true
  | .brzImm _ _ _ _ => true
  | .brnz _ _ _ _ => true
  | .brnzImm _ _ _ _ => true
  | .jmpr _ _ _ _ => true
  | .call _ _ _ _ => true
  | .callImm _ _ _ _ => true
  | .callr _ _ _ _ => true
  | .ret _ _ _ _ => true
  | .yield _ _ _ => true
  | .wsync _ _ _ => true
  | .exit _ _ _ => true
  | .trap _ _ _ _ => true
  | .bkpt _ _ _ _ => true
  | .wbase _ _ _ _ => true
  | .wbaseImm _ _ _ _ => true
  | .rbacq _ _ _ _ => true
  | .rbacqImm _ _ _ _ => true
  | .rbrel _ _ _ _ => true
  | .rbrelImm _ _ _ _ => true
  | .rquota _ _ _ _ _ => true
  | .fetcht _ _ _ _ => true
  | .movs _ _ _ _ => true
  | .movc _ _ _ _ => true
  | .movcW _ _ _ _ => true
  | .movs64 _ _ _ _ => true
  | .ld _ _ _ _ _ => true
  | .ldSpan _ _ _ _ _ => true
  | .st _ _ _ _ _ => true
  | .ldl _ _ _ _ _ => true
  | .stl _ _ _ _ _ => true
  | .pref _ _ _ _ _ => true
  | .pqry _ _ _ _ => true
  | .atomAdd _ _ _ _ _ _ => true
  | .atomSub _ _ _ _ _ _ => true
  | .atomMin _ _ _ _ _ _ => true
  | .atomMax _ _ _ _ _ _ => true
  | .atomAnd _ _ _ _ _ _ => true
  | .atomOr _ _ _ _ _ _ => true
  | .atomXor _ _ _ _ _ _ => true
  | .atomSwap _ _ _ _ _ _ => true
  | .atomCas _ _ _ _ _ _ => true
  | .atomIncw _ _ _ _ _ _ => true
  | .atomAddb _ _ _ _ _ _ => true
  | .atomFadd _ _ _ _ _ _ => true
  | .accopen _ _ _ _ => true
  | .accclose _ _ _ _ => true
  | .accscale _ _ _ _ => true
  | .acczero _ _ _ _ => true
  | .redFast _ _ _ _ _ => true
  | .redOrd _ _ _ _ _ => true
  | .redMin _ _ _ _ _ => true
  | .redMax _ _ _ _ _ => true
  | .rediAdd _ _ _ _ _ => true
  | .rediMinI _ _ _ _ _ => true
  | .rediMinB _ _ _ _ _ => true
  | .rediMaxI _ _ _ _ _ => true
  | .rediMaxB _ _ _ _ _ => true
  | .rediAnd _ _ _ _ _ => true
  | .rediOr _ _ _ _ _ => true
  | .rediXor _ _ _ _ _ => true
  | .cflush _ _ _ _ => true
  | .cinv _ _ _ _ => true
  | .cspan _ _ _ _ _ => true
  | .binit _ _ _ _ => true
  | .barv _ _ _ _ => true
  | .barvImm _ _ _ _ => true
  | .bexp _ _ _ _ => true
  | .bwait _ _ _ _ => true
  | .btest _ _ _ _ => true
  | .binval _ _ _ _ => true
  | .bsync _ _ _ _ => true
  | .cqry _ _ _ _ => true
  | .movts _ _ _ _ => true
  | .movst _ _ _ _ => true
  | .tld _ _ _ _ => true
  | .tldOb _ _ _ _ => true
  | .tst _ _ _ _ => true
  | .tzero _ _ _ _ => true
  | .twr _ _ _ _ => true
  | .trd _ _ _ _ => true
  | .tring _ _ _ _ => true
  | .trel _ _ _ _ => true
  | .mmai _ _ _ _ => true
  | .mmaq _ _ _ _ => true
  | .ldmeta _ _ _ _ => true
  | .put _ _ _ _ => true
  | .putn _ _ _ _ => true
  | .get _ _ _ _ => true
  | .mput _ _ _ _ => true
  | .ratom _ _ _ _ _ => true
  | .rred _ _ _ _ _ => true
  | .gbarv _ _ _ _ => true
  | .fqry _ _ _ _ => true
  | .illop _ => true
  | .clauseIssue => false
  | .clauseEnd => false
  | .llComplete => false
  | .rbacqGrant => false
  | .faultRecordEnqueue => false
  | .faultRecordHandling => false
  | .preemptionRequest => false
  | .drainComplete => false
  | .imageWritten => false
  | .resumeRequest => false
  | .resourcesReserved => false
  | .loadComplete => false
  | .storeQueueDepart => false
  | .homeApply => false
  | .storeAcknowledgement => false
  | .homeRead => false
  | .fillComplete => false
  | .l1Fill => false
  | .releasePerform => false
  | .promotion => false
  | .mapRequest => false
  | .mapNotice => false
  | .declineNotice => false
  | .shootdown => false
  | .shootdownAck => false
  | .pageChangeStep => false
  | .contributionArrival => false
  | .accopenCapacity => false
  | .accClosePoint => false
  | .arrivalRetry => false
  | .bytesLanded => false
  | .putAcknowledgement => false
  | .remoteArrival => false
  | .gangCompletion => false
  | .gangArrival => false
  | .bsyncTimeout => false
  | .waitForWalk => false
  | .copyNotify => false
  | .ringRestart => false
  | .copyLanding => false
  | .copyTileDelivery => false
  | .copyEntryComplete => false
  | .kstepFire => false
  | .kstepReadsComplete => false
  | .mmaiQueueEntry => false
  | .governorWindow => false
  | .dispenserRequest => false
  | .staticExhaustRelease => false
  | .fabricSlot => false
  | .packetReceive => false
  | .packetAck => false
  | .packetRetransmit => false
  | .planeBlackout => false
  | .blackoutEnd => false
  | .linkStepDown => false
  | .linkStepDone => false
  | .linkProbeStart => false
  | .linkProbePass => false
  | .linkProbeFail => false
  | .retrainRequest => false
  | .retrainAccept => false
  | .retrainDefer => false
  | .retrainLocked => false
  | .retrainTimeout => false
  | .slotMark => false
  | .toffMeasurement => false
  | .leaseRenewal => false
  | .renewalHeard => false
  | .renewalAcknowledgement => false
  | .leaseTimeout => false
  | .electionTimer => false
  | .claimHeard => false
  | .leaderLapse => false
  | .dieReset => false
  | .selftestComplete => false
  | .imageVerify => false
  | .identityExchange => false
  | .partnerSilent => false
  | .panelJoin => false
  | .joinTimeout => false
  | .dieFence => false
  | .supplySag => false
  | .sagRecovery => false
  | .powerCapUpdate => false
  | .eccError => false
  | .dieLinkError => false
  | .hostRead => false
  | .hostWrite => false
  | .queueEnable => false
  | .queueDisable => false
  | .registerWrite => false
  | .attestationRequest => false
  | .henezNop => false
  | .henezLaunch => false
  | .henezLaunchInd => false
  | .launchPlace => false
  | .launchRetire => false
  | .henezWait => false
  | .henezSignalStore => false
  | .henezSignalAdd => false
  | .henezLoop => false
  | .henezEndloop => false
  | .henezIf => false
  | .henezElse => false
  | .henezEndif => false
  | .henezBankrole => false
  | .bankroleExecute => false
  | .henezPagemode => false
  | .henezTopo => false
  | .henezPreempt => false
  | .henezPreemptResume => false
  | .henezPreemptAbort => false
  | .henezMap => false
  | .henezMapDecline => false
  | .henezXferSend => false
  | .henezXferFetch => false
  | .henezUnassigned => false

end Sys2Proof
end

