-- ==== Sys2Proof/Decode.lean ====
section
/-!
DEFINITION. Decode.lean: from bits to instructions and back. The decoder is total: a word whose OP value, U bit or
must-be-zero bits match no assigned encoding is the row ILLOP (R47), and a byte list too short for a word is refused
by name. The encoder is written from the same tables (R35, R48 to R62).
-/
namespace Sys2Proof

/-- Why bytes do not give an instruction word. -/
inductive DecodeError where
  | truncated (have_ : Nat)      -- fewer than the four bytes of a word
  deriving DecidableEq, Repr

/-- The five fields of an instruction word put together (R35). -/
def packWord (D A B : BitVec 7) (U : Bool) (op : BitVec 10) : BitVec 32 := D ++ A ++ B ++ BitVec.ofBool U ++ op

/-- OP values 0x0 to 0x3F. -/
def decodeBlock0 (D A B : BitVec 7) (U : Bool) (op : BitVec 10) : Option Instr :=
  if op &&& 0x3FD = 0x0 then some (.iadd D A B U (op.getLsbD 1))
  else if op &&& 0x3FD = 0x1 then some (.iaddImm D A B U (op.getLsbD 1))
  else if op &&& 0x3FD = 0x4 then some (.isub D A B U (op.getLsbD 1))
  else if op &&& 0x3FD = 0x5 then some (.isubImm D A B U (op.getLsbD 1))
  else if op &&& 0x3FD = 0x8 then some (.imul D A B U (op.getLsbD 1))
  else if op &&& 0x3FD = 0x9 then some (.imulImm D A B U (op.getLsbD 1))
  else if op &&& 0x3FD = 0xC then some (.imulhI D A B U (op.getLsbD 1))
  else if op = 0xD then some (.imulhIImm D A B U)
  else if op &&& 0x3FD = 0x10 then some (.imulhB D A B U (op.getLsbD 1))
  else if op = 0x11 then some (.imulhBImm D A B U)
  else if op &&& 0x3FD = 0x14 then some (.imad D A B U (op.getLsbD 1))
  else if op &&& 0x3FD = 0x15 then some (.imadImm D A B U (op.getLsbD 1))
  else if op = 0x18 then some (.imadwI D A B U)
  else if op = 0x19 then some (.imadwIImm D A B U)
  else if op = 0x1C then some (.imadwB D A B U)
  else if op = 0x1D then some (.imadwBImm D A B U)
  else if op &&& 0x3FD = 0x20 then some (.ineg D A B U (op.getLsbD 1))
  else if op &&& 0x3FD = 0x24 then some (.iabs D A B U (op.getLsbD 1))
  else if op &&& 0x3FD = 0x28 then some (.iminI D A B U (op.getLsbD 1))
  else if op &&& 0x3FD = 0x29 then some (.iminIImm D A B U (op.getLsbD 1))
  else if op &&& 0x3FD = 0x2C then some (.iminB D A B U (op.getLsbD 1))
  else if op &&& 0x3FD = 0x2D then some (.iminBImm D A B U (op.getLsbD 1))
  else if op &&& 0x3FD = 0x30 then some (.imaxI D A B U (op.getLsbD 1))
  else if op &&& 0x3FD = 0x31 then some (.imaxIImm D A B U (op.getLsbD 1))
  else if op &&& 0x3FD = 0x34 then some (.imaxB D A B U (op.getLsbD 1))
  else if op &&& 0x3FD = 0x35 then some (.imaxBImm D A B U (op.getLsbD 1))
  else if op &&& 0x3FD = 0x38 then some (.and D A B U (op.getLsbD 1))
  else if op &&& 0x3FD = 0x39 then some (.andImm D A B U (op.getLsbD 1))
  else if op &&& 0x3FD = 0x3C then some (.or D A B U (op.getLsbD 1))
  else if op &&& 0x3FD = 0x3D then some (.orImm D A B U (op.getLsbD 1))
  else none

/-- OP values 0x40 to 0x7F. -/
def decodeBlock1 (D A B : BitVec 7) (U : Bool) (op : BitVec 10) : Option Instr :=
  if op &&& 0x3FD = 0x40 then some (.xor D A B U (op.getLsbD 1))
  else if op &&& 0x3FD = 0x41 then some (.xorImm D A B U (op.getLsbD 1))
  else if op &&& 0x3FD = 0x44 then some (.andn D A B U (op.getLsbD 1))
  else if op &&& 0x3FD = 0x45 then some (.andnImm D A B U (op.getLsbD 1))
  else if op &&& 0x3FD = 0x48 then some (.not D A B U (op.getLsbD 1))
  else if op &&& 0x3FD = 0x4C then some (.shl D A B U (op.getLsbD 1))
  else if op &&& 0x3FD = 0x4D then some (.shlImm D A B U (op.getLsbD 1))
  else if op &&& 0x3FD = 0x50 then some (.shr D A B U (op.getLsbD 1))
  else if op &&& 0x3FD = 0x51 then some (.shrImm D A B U (op.getLsbD 1))
  else if op &&& 0x3FD = 0x54 then some (.sar D A B U (op.getLsbD 1))
  else if op &&& 0x3FD = 0x55 then some (.sarImm D A B U (op.getLsbD 1))
  else if op &&& 0x3FD = 0x58 then some (.rol D A B U (op.getLsbD 1))
  else if op &&& 0x3FD = 0x59 then some (.rolImm D A B U (op.getLsbD 1))
  else if op &&& 0x3FD = 0x5C then some (.bfxB D A B U (op.getLsbD 1))
  else if op &&& 0x3FD = 0x60 then some (.bfxI D A B U (op.getLsbD 1))
  else if op &&& 0x3FD = 0x64 then some (.bfi D A B U (op.getLsbD 1))
  else if op &&& 0x3FD = 0x68 then some (.popc D A B U (op.getLsbD 1))
  else if op &&& 0x3FD = 0x6C then some (.clz D A B U (op.getLsbD 1))
  else if op &&& 0x3FD = 0x70 then some (.ctz D A B U (op.getLsbD 1))
  else if op &&& 0x3FD = 0x74 then some (.brev D A B U (op.getLsbD 1))
  else if op = 0x78 then some (.prmt D A B U)
  else if op &&& 0x3FD = 0x7C then some (.mov D A B U (op.getLsbD 1))
  else if op &&& 0x3FD = 0x7D then some (.movImm D A B U (op.getLsbD 1))
  else none

/-- OP values 0x80 to 0xBF. -/
def decodeBlock2 (D A B : BitVec 7) (U : Bool) (op : BitVec 10) : Option Instr :=
  if op &&& 0x3FD = 0x80 then some (.icmpEq D A B U (op.getLsbD 1))
  else if op &&& 0x3FD = 0x81 then some (.icmpEqImm D A B U (op.getLsbD 1))
  else if op &&& 0x3FD = 0x84 then some (.icmpNe D A B U (op.getLsbD 1))
  else if op &&& 0x3FD = 0x85 then some (.icmpNeImm D A B U (op.getLsbD 1))
  else if op &&& 0x3FD = 0x88 then some (.icmpLtI D A B U (op.getLsbD 1))
  else if op &&& 0x3FD = 0x89 then some (.icmpLtIImm D A B U (op.getLsbD 1))
  else if op &&& 0x3FD = 0x8C then some (.icmpLeI D A B U (op.getLsbD 1))
  else if op &&& 0x3FD = 0x8D then some (.icmpLeIImm D A B U (op.getLsbD 1))
  else if op &&& 0x3FD = 0x90 then some (.icmpGtI D A B U (op.getLsbD 1))
  else if op &&& 0x3FD = 0x91 then some (.icmpGtIImm D A B U (op.getLsbD 1))
  else if op &&& 0x3FD = 0x94 then some (.icmpGeI D A B U (op.getLsbD 1))
  else if op &&& 0x3FD = 0x95 then some (.icmpGeIImm D A B U (op.getLsbD 1))
  else if op &&& 0x3FD = 0x98 then some (.icmpLtB D A B U (op.getLsbD 1))
  else if op &&& 0x3FD = 0x99 then some (.icmpLtBImm D A B U (op.getLsbD 1))
  else if op &&& 0x3FD = 0x9C then some (.icmpLeB D A B U (op.getLsbD 1))
  else if op &&& 0x3FD = 0x9D then some (.icmpLeBImm D A B U (op.getLsbD 1))
  else if op &&& 0x3FD = 0xA0 then some (.icmpGtB D A B U (op.getLsbD 1))
  else if op &&& 0x3FD = 0xA1 then some (.icmpGtBImm D A B U (op.getLsbD 1))
  else if op &&& 0x3FD = 0xA4 then some (.icmpGeB D A B U (op.getLsbD 1))
  else if op &&& 0x3FD = 0xA5 then some (.icmpGeBImm D A B U (op.getLsbD 1))
  else if op &&& 0x3FD = 0xB0 then some (.sel D A B U (op.getLsbD 1))
  else none

/-- OP values 0xC0 to 0xFF. -/
def decodeBlock3 (D A B : BitVec 7) (U : Bool) (op : BitVec 10) : Option Instr :=
  if op &&& 0x3F0 = 0xC0 ∧ op.extractLsb' 0 2 ≠ 3 then some (.fadd D A B U (op.extractLsb' 2 2) (op.extractLsb' 0 2))
  else if op &&& 0x3F0 = 0xD0 ∧ op.extractLsb' 0 2 ≠ 3 then some (.fsub D A B U (op.extractLsb' 2 2) (op.extractLsb' 0 2))
  else if op &&& 0x3F0 = 0xE0 ∧ op.extractLsb' 0 2 ≠ 3 then some (.fmul D A B U (op.extractLsb' 2 2) (op.extractLsb' 0 2))
  else if op &&& 0x3F0 = 0xF0 ∧ op.extractLsb' 0 2 ≠ 3 then some (.ffma D A B U (op.extractLsb' 2 2) (op.extractLsb' 0 2))
  else none

/-- OP values 0x100 to 0x13F. -/
def decodeBlock4 (D A B : BitVec 7) (U : Bool) (op : BitVec 10) : Option Instr :=
  if op &&& 0x3F0 = 0x100 ∧ op.extractLsb' 0 2 ≠ 3 ∧ op.extractLsb' 0 2 ≠ 2 then some (.fdiv D A B U (op.extractLsb' 2 2) (op.extractLsb' 0 2))
  else if op &&& 0x3F0 = 0x110 ∧ op.extractLsb' 0 2 ≠ 3 ∧ op.extractLsb' 0 2 ≠ 2 then some (.fsqrt D A B U (op.extractLsb' 2 2) (op.extractLsb' 0 2))
  else if op &&& 0x3F0 = 0x120 ∧ op.extractLsb' 0 2 ≠ 3 ∧ op.extractLsb' 0 2 ≠ 2 then some (.frcpCr D A B U (op.extractLsb' 2 2) (op.extractLsb' 0 2))
  else if op &&& 0x3F0 = 0x130 ∧ op.extractLsb' 0 2 ≠ 3 ∧ op.extractLsb' 0 2 ≠ 2 then some (.frsqCr D A B U (op.extractLsb' 2 2) (op.extractLsb' 0 2))
  else none

/-- OP values 0x140 to 0x17F. -/
def decodeBlock5 (D A B : BitVec 7) (U : Bool) (op : BitVec 10) : Option Instr :=
  if op &&& 0x3F0 = 0x140 ∧ op.extractLsb' 0 2 ≠ 3 ∧ op.extractLsb' 0 2 ≠ 2 then some (.fscale D A B U (op.extractLsb' 2 2) (op.extractLsb' 0 2))
  else if op &&& 0x3F0 = 0x150 ∧ op.extractLsb' 0 2 ≠ 3 ∧ op.extractLsb' 0 2 ≠ 2 then some (.frnd D A B U (op.extractLsb' 2 2) (op.extractLsb' 0 2))
  else if op &&& 0x3FC = 0x160 ∧ op.extractLsb' 0 2 ≠ 3 then some (.fneg D A B U (op.extractLsb' 0 2))
  else if op &&& 0x3FC = 0x164 ∧ op.extractLsb' 0 2 ≠ 3 then some (.fabs D A B U (op.extractLsb' 0 2))
  else if op &&& 0x3FC = 0x168 ∧ op.extractLsb' 0 2 ≠ 3 then some (.fmin D A B U (op.extractLsb' 0 2))
  else if op &&& 0x3FC = 0x16C ∧ op.extractLsb' 0 2 ≠ 3 then some (.fmax D A B U (op.extractLsb' 0 2))
  else if op &&& 0x3FC = 0x170 ∧ op.extractLsb' 0 2 ≠ 3 then some (.fminn D A B U (op.extractLsb' 0 2))
  else if op &&& 0x3FC = 0x174 ∧ op.extractLsb' 0 2 ≠ 3 then some (.fmaxn D A B U (op.extractLsb' 0 2))
  else if op &&& 0x3FC = 0x178 ∧ op.extractLsb' 0 2 ≠ 3 ∧ op.extractLsb' 0 2 ≠ 2 then some (.fclass D A B U (op.extractLsb' 0 2))
  else if op &&& 0x3FC = 0x17C ∧ op.extractLsb' 0 2 ≠ 3 ∧ op.extractLsb' 0 2 ≠ 2 then some (.ffrexp D A B U (op.extractLsb' 0 2))
  else none

/-- OP values 0x180 to 0x1BF. -/
def decodeBlock6 (D A B : BitVec 7) (U : Bool) (op : BitVec 10) : Option Instr :=
  if op &&& 0x3FC = 0x180 ∧ op.extractLsb' 0 2 ≠ 3 ∧ op.extractLsb' 0 2 ≠ 2 then some (.fcmpEq D A B U (op.extractLsb' 0 2))
  else if op &&& 0x3FC = 0x184 ∧ op.extractLsb' 0 2 ≠ 3 ∧ op.extractLsb' 0 2 ≠ 2 then some (.fcmpLt D A B U (op.extractLsb' 0 2))
  else if op &&& 0x3FC = 0x188 ∧ op.extractLsb' 0 2 ≠ 3 ∧ op.extractLsb' 0 2 ≠ 2 then some (.fcmpLe D A B U (op.extractLsb' 0 2))
  else if op &&& 0x3FC = 0x18C ∧ op.extractLsb' 0 2 ≠ 3 ∧ op.extractLsb' 0 2 ≠ 2 then some (.fcmpUn D A B U (op.extractLsb' 0 2))
  else if op &&& 0x3FC = 0x190 ∧ op.extractLsb' 0 2 ≠ 3 ∧ op.extractLsb' 0 2 ≠ 2 then some (.fcmpNe D A B U (op.extractLsb' 0 2))
  else if op &&& 0x3FC = 0x194 ∧ op.extractLsb' 0 2 ≠ 3 ∧ op.extractLsb' 0 2 ≠ 2 then some (.fcmpGt D A B U (op.extractLsb' 0 2))
  else if op &&& 0x3FC = 0x198 ∧ op.extractLsb' 0 2 ≠ 3 ∧ op.extractLsb' 0 2 ≠ 2 then some (.fcmpGe D A B U (op.extractLsb' 0 2))
  else if op &&& 0x3FC = 0x19C ∧ op.extractLsb' 0 2 ≠ 3 ∧ op.extractLsb' 0 2 ≠ 2 then some (.fcmpOrd D A B U (op.extractLsb' 0 2))
  else if op = 0x1A1 then some (.fexp2 D A B U)
  else if op = 0x1A5 then some (.flog2 D A B U)
  else if op = 0x1A9 then some (.fsin D A B U)
  else if op = 0x1AD then some (.fcos D A B U)
  else if op = 0x1B1 then some (.ftanh D A B U)
  else if op &&& 0x3FC = 0x1B4 ∧ op.extractLsb' 0 2 ≠ 3 ∧ op.extractLsb' 0 2 ≠ 2 then some (.frcp D A B U (op.extractLsb' 0 2))
  else if op &&& 0x3FC = 0x1B8 ∧ op.extractLsb' 0 2 ≠ 3 ∧ op.extractLsb' 0 2 ≠ 2 then some (.frsq D A B U (op.extractLsb' 0 2))
  else none

/-- OP values 0x1C0 to 0x1FF. -/
def decodeBlock7 (D A B : BitVec 7) (U : Bool) (op : BitVec 10) : Option Instr :=
  if op &&& 0x3F0 = 0x1C0 ∧ (op.extractLsb' 0 4).toNat < 12 then some (.cvt D A (B.getLsbD 6) (B.extractLsb' 4 2) (B.extractLsb' 0 4) U (op.extractLsb' 0 4))
  else if op &&& 0x3F0 = 0x1D0 ∧ (op.extractLsb' 0 4).toNat < 12 then some (.cvtpk D A (B.extractLsb' 3 4) (B.getLsbD 2) (B.extractLsb' 0 2) U (op.extractLsb' 0 4))
  else if op &&& 0x3F0 = 0x1E0 ∧ B &&& 0x7 = 0 ∧ (op.extractLsb' 0 4).toNat < 12 then some (.cvtupk D A (B.extractLsb' 3 4) U (op.extractLsb' 0 4))
  else if op = 0x1EC then some (.cvtscMul D A B U)
  else if op = 0x1ED ∧ B &&& 0x70 = 0 then some (.cvtscExp D A (B.extractLsb' 0 4) U)
  else if op = 0x1F0 ∧ U = false then some (.shflIdx D A B)
  else if op = 0x1F1 ∧ U = false then some (.shflUp D A B)
  else if op = 0x1F2 ∧ U = false then some (.shflDown D A B)
  else if op = 0x1F3 ∧ U = false then some (.shflXor D A B)
  else if op = 0x1F4 ∧ U = false then some (.voteAny D A B)
  else if op = 0x1F5 ∧ U = false then some (.voteAll D A B)
  else if op = 0x1F6 ∧ U = false then some (.voteBallot D A B)
  else if op = 0x1F7 ∧ U = false then some (.elect D A B)
  else if op = 0x1F8 ∧ U = false then some (.redg D A (B.extractLsb' 4 3) (B.extractLsb' 0 4))
  else if op = 0x1F9 ∧ U = false then some (.scangIncl D A (B.extractLsb' 4 3) (B.extractLsb' 0 4))
  else if op = 0x1FA ∧ U = false then some (.scangExcl D A (B.extractLsb' 4 3) (B.extractLsb' 0 4))
  else none

/-- OP values 0x200 to 0x23F. -/
def decodeBlock8 (D A B : BitVec 7) (U : Bool) (op : BitVec 10) : Option Instr :=
  if op = 0x200 then some (.nop D A B U)
  else if op = 0x201 then some (.bra D A B U)
  else if op = 0x202 then some (.braImm D A B U)
  else if op = 0x203 then some (.brz D A B U)
  else if op = 0x204 then some (.brzImm D A B U)
  else if op = 0x205 then some (.brnz D A B U)
  else if op = 0x206 then some (.brnzImm D A B U)
  else if op = 0x207 then some (.jmpr D A B U)
  else if op = 0x208 then some (.call D A B U)
  else if op = 0x209 then some (.callImm D A B U)
  else if op = 0x20A then some (.callr D A B U)
  else if op = 0x20B then some (.ret D A B U)
  else if op = 0x20C ∧ U = false then some (.yield D A B)
  else if op = 0x20D ∧ U = false then some (.wsync D A B)
  else if op = 0x20E ∧ U = false then some (.exit D A B)
  else if op = 0x20F then some (.trap D A B U)
  else if op = 0x210 then some (.bkpt D A B U)
  else if op = 0x211 then some (.wbase D A B U)
  else if op = 0x212 then some (.wbaseImm D A B U)
  else if op = 0x213 then some (.rbacq D A B U)
  else if op = 0x214 then some (.rbacqImm D A B U)
  else if op = 0x215 then some (.rbrel D A B U)
  else if op = 0x216 then some (.rbrelImm D A B U)
  else if op = 0x217 ∧ B &&& 0x70 = 0 then some (.rquota D A (B.extractLsb' 2 2) (B.extractLsb' 0 2) U)
  else if op = 0x218 then some (.fetcht D A B U)
  else if op = 0x219 then some (.movs D A B U)
  else if op = 0x21A then some (.movc D A B U)
  else if op = 0x21B then some (.movcW D A B U)
  else if op = 0x21C then some (.movs64 D A B U)
  else none

/-- OP values 0x240 to 0x27F. -/
def decodeBlock9 (D A B : BitVec 7) (U : Bool) (op : BitVec 10) : Option Instr :=
  if op = 0x260 ∧ B &&& 0x40 = 0 then some (.ld D A (B.extractLsb' 4 2) (B.extractLsb' 0 4) U)
  else if op = 0x261 then some (.ldSpan D A (B.extractLsb' 4 3) (B.extractLsb' 0 4) U)
  else if op = 0x262 ∧ B &&& 0x60 = 0 then some (.st D A (B.getLsbD 4) (B.extractLsb' 0 4) U)
  else if op = 0x263 ∧ B &&& 0x60 = 0 then some (.ldl D A (B.getLsbD 4) (B.extractLsb' 0 4) U)
  else if op = 0x264 ∧ B &&& 0x60 = 0 then some (.stl D A (B.getLsbD 4) (B.extractLsb' 0 4) U)
  else if op = 0x265 ∧ B &&& 0xC = 0 then some (.pref D A (B.extractLsb' 4 3) (B.extractLsb' 0 2) U)
  else if op = 0x266 then some (.pqry D A B U)
  else if op = 0x270 ∧ B &&& 0x40 = 0 then some (.atomAdd D A (B.getLsbD 5) (B.extractLsb' 3 2) (B.extractLsb' 0 3) U)
  else if op = 0x271 ∧ B &&& 0x40 = 0 then some (.atomSub D A (B.getLsbD 5) (B.extractLsb' 3 2) (B.extractLsb' 0 3) U)
  else if op = 0x272 ∧ B &&& 0x40 = 0 then some (.atomMin D A (B.getLsbD 5) (B.extractLsb' 3 2) (B.extractLsb' 0 3) U)
  else if op = 0x273 ∧ B &&& 0x40 = 0 then some (.atomMax D A (B.getLsbD 5) (B.extractLsb' 3 2) (B.extractLsb' 0 3) U)
  else if op = 0x274 ∧ B &&& 0x40 = 0 then some (.atomAnd D A (B.getLsbD 5) (B.extractLsb' 3 2) (B.extractLsb' 0 3) U)
  else if op = 0x275 ∧ B &&& 0x40 = 0 then some (.atomOr D A (B.getLsbD 5) (B.extractLsb' 3 2) (B.extractLsb' 0 3) U)
  else if op = 0x276 ∧ B &&& 0x40 = 0 then some (.atomXor D A (B.getLsbD 5) (B.extractLsb' 3 2) (B.extractLsb' 0 3) U)
  else if op = 0x277 ∧ B &&& 0x40 = 0 then some (.atomSwap D A (B.getLsbD 5) (B.extractLsb' 3 2) (B.extractLsb' 0 3) U)
  else if op = 0x278 ∧ B &&& 0x40 = 0 then some (.atomCas D A (B.getLsbD 5) (B.extractLsb' 3 2) (B.extractLsb' 0 3) U)
  else if op = 0x279 ∧ B &&& 0x40 = 0 then some (.atomIncw D A (B.getLsbD 5) (B.extractLsb' 3 2) (B.extractLsb' 0 3) U)
  else if op = 0x27A ∧ B &&& 0x40 = 0 then some (.atomAddb D A (B.getLsbD 5) (B.extractLsb' 3 2) (B.extractLsb' 0 3) U)
  else if op = 0x27B ∧ B &&& 0x40 = 0 then some (.atomFadd D A (B.getLsbD 5) (B.extractLsb' 3 2) (B.extractLsb' 0 3) U)
  else none

/-- OP values 0x2C0 to 0x2FF. -/
def decodeBlockB (D A B : BitVec 7) (U : Bool) (op : BitVec 10) : Option Instr :=
  if op = 0x2E0 then some (.accopen D A B U)
  else if op = 0x2E1 then some (.accclose D A B U)
  else if op = 0x2E2 then some (.accscale D A B U)
  else if op = 0x2E3 then some (.acczero D A B U)
  else if op &&& 0x3FE = 0x2E4 then some (.redFast D A B U (op.getLsbD 0))
  else if op &&& 0x3FE = 0x2E6 then some (.redOrd D A B U (op.getLsbD 0))
  else if op &&& 0x3FE = 0x2E8 then some (.redMin D A B U (op.getLsbD 0))
  else if op &&& 0x3FE = 0x2EA then some (.redMax D A B U (op.getLsbD 0))
  else if op &&& 0x3FE = 0x2F0 then some (.rediAdd D A B U (op.getLsbD 0))
  else if op &&& 0x3FE = 0x2F2 then some (.rediMinI D A B U (op.getLsbD 0))
  else if op &&& 0x3FE = 0x2F4 then some (.rediMinB D A B U (op.getLsbD 0))
  else if op &&& 0x3FE = 0x2F6 then some (.rediMaxI D A B U (op.getLsbD 0))
  else if op &&& 0x3FE = 0x2F8 then some (.rediMaxB D A B U (op.getLsbD 0))
  else if op &&& 0x3FE = 0x2FA then some (.rediAnd D A B U (op.getLsbD 0))
  else if op &&& 0x3FE = 0x2FC then some (.rediOr D A B U (op.getLsbD 0))
  else if op &&& 0x3FE = 0x2FE then some (.rediXor D A B U (op.getLsbD 0))
  else none

/-- OP values 0x300 to 0x33F. -/
def decodeBlockC (D A B : BitVec 7) (U : Bool) (op : BitVec 10) : Option Instr :=
  if op = 0x300 then some (.cflush D A B U)
  else if op = 0x301 then some (.cinv D A B U)
  else if op = 0x302 ∧ B &&& 0x70 = 0 then some (.cspan D A (B.getLsbD 3) (B.extractLsb' 0 3) U)
  else if op = 0x320 then some (.binit D A B U)
  else if op = 0x321 then some (.barv D A B U)
  else if op = 0x322 then some (.barvImm D A B U)
  else if op = 0x323 then some (.bexp D A B U)
  else if op = 0x324 then some (.bwait D A B U)
  else if op = 0x325 then some (.btest D A B U)
  else if op = 0x326 then some (.binval D A B U)
  else if op = 0x327 then some (.bsync D A B U)
  else none

/-- OP values 0x340 to 0x37F. -/
def decodeBlockD (D A B : BitVec 7) (U : Bool) (op : BitVec 10) : Option Instr :=
  if op = 0x340 then some (.cqry D A B U)
  else if op = 0x350 then some (.movts D A B U)
  else if op = 0x351 then some (.movst D A B U)
  else if op = 0x352 then some (.tld D A B U)
  else if op = 0x353 then some (.tldOb D A B U)
  else if op = 0x354 then some (.tst D A B U)
  else if op = 0x355 then some (.tzero D A B U)
  else if op = 0x356 then some (.twr D A B U)
  else if op = 0x357 then some (.trd D A B U)
  else if op = 0x358 then some (.tring D A B U)
  else if op = 0x359 then some (.trel D A B U)
  else if op = 0x35A then some (.mmai D A B U)
  else if op = 0x35B then some (.mmaq D A B U)
  else if op = 0x35C then some (.ldmeta D A B U)
  else none

/-- OP values 0x380 to 0x3BF. -/
def decodeBlockE (D A B : BitVec 7) (U : Bool) (op : BitVec 10) : Option Instr :=
  if op = 0x390 ∧ B &&& 0x7C = 0 then some (.put D A (B.extractLsb' 0 2) U)
  else if op = 0x391 ∧ B &&& 0x7C = 0 then some (.putn D A (B.extractLsb' 0 2) U)
  else if op = 0x392 ∧ B &&& 0x7C = 0 then some (.get D A (B.extractLsb' 0 2) U)
  else if op = 0x393 ∧ B &&& 0x7C = 0 then some (.mput D A (B.extractLsb' 0 2) U)
  else if op = 0x394 then some (.ratom D A (B.extractLsb' 4 3) (B.extractLsb' 0 4) U)
  else if op = 0x395 ∧ B &&& 0x7C = 0 then some (.rred D A (B.getLsbD 1) (B.getLsbD 0) U)
  else if op = 0x396 then some (.gbarv D A B U)
  else if op = 0x397 then some (.fqry D A B U)
  else none

/-- The instruction whose fields are these; none where no encoding is assigned (R47). -/
def decodeFields (D A B : BitVec 7) (U : Bool) (op : BitVec 10) : Option Instr :=
  match (op.extractLsb' 6 4).toNat with
  | 0 => decodeBlock0 D A B U op
  | 1 => decodeBlock1 D A B U op
  | 2 => decodeBlock2 D A B U op
  | 3 => decodeBlock3 D A B U op
  | 4 => decodeBlock4 D A B U op
  | 5 => decodeBlock5 D A B U op
  | 6 => decodeBlock6 D A B U op
  | 7 => decodeBlock7 D A B U op
  | 8 => decodeBlock8 D A B U op
  | 9 => decodeBlock9 D A B U op
  | 11 => decodeBlockB D A B U op
  | 12 => decodeBlockC D A B U op
  | 13 => decodeBlockD D A B U op
  | 14 => decodeBlockE D A B U op
  | _ => none

/-- The instruction that a 32-bit word stands for; every word has one (R47, R63). -/
def decodeWord (w : BitVec 32) : Instr :=
  (decodeFields (w.extractLsb' 25 7) (w.extractLsb' 18 7) (w.extractLsb' 11 7) (w.getLsbD 10)
    (w.extractLsb' 0 10)).getD (.illop w)

/-- A word from its four bytes, least significant first (R3). -/
def wordOfBytes (b0 b1 b2 b3 : Byte) : BitVec 32 := b3 ++ b2 ++ b1 ++ b0

/-- The four bytes of a word, least significant first (R3). -/
def bytesOfWord (w : BitVec 32) : List Byte :=
  [w.extractLsb' 0 8, w.extractLsb' 8 8, w.extractLsb' 16 8, w.extractLsb' 24 8]

/-- Decode the first word of a byte list. -/
def decodeBytes : List Byte → Except DecodeError (Instr × List Byte)
  | b0 :: b1 :: b2 :: b3 :: rest => .ok (decodeWord (wordOfBytes b0 b1 b2 b3), rest)
  | bs => .error (.truncated bs.length)

/-- The host's question: what the decoder reads from a word numbered as the opcode table numbers it.
(DESIGN CHOICE, log 11) -/
def decodeTableWord (nbits w : Nat) : Option Instr :=
  if nbits = 0 ∨ 32 < nbits then none
  else match decodeBytes (bytesOfWord (BitVec.ofNat 32 (w % 2 ^ nbits))) with
    | .ok (i, _) => some i
    | .error _ => none

/-- The word of an instruction (R35, R47 to R62); the steps of the engines and the Henez packets have none. -/
def encode : Instr → Option (BitVec 32)
  | .iadd d a b u w => some (packWord d a b u (0x0#8 ++ BitVec.ofBool w ++ 0x0#1 : BitVec 10))
  | .iaddImm d a i u w => some (packWord d a i u (0x0#8 ++ BitVec.ofBool w ++ 0x1#1 : BitVec 10))
  | .isub d a b u w => some (packWord d a b u (0x1#8 ++ BitVec.ofBool w ++ 0x0#1 : BitVec 10))
  | .isubImm d a i u w => some (packWord d a i u (0x1#8 ++ BitVec.ofBool w ++ 0x1#1 : BitVec 10))
  | .imul d a b u w => some (packWord d a b u (0x2#8 ++ BitVec.ofBool w ++ 0x0#1 : BitVec 10))
  | .imulImm d a i u w => some (packWord d a i u (0x2#8 ++ BitVec.ofBool w ++ 0x1#1 : BitVec 10))
  | .imulhI d a b u w => some (packWord d a b u (0x3#8 ++ BitVec.ofBool w ++ 0x0#1 : BitVec 10))
  | .imulhIImm d a i u => some (packWord d a i u 0xD#10)
  | .imulhB d a b u w => some (packWord d a b u (0x4#8 ++ BitVec.ofBool w ++ 0x0#1 : BitVec 10))
  | .imulhBImm d a i u => some (packWord d a i u 0x11#10)
  | .imad d a b u w => some (packWord d a b u (0x5#8 ++ BitVec.ofBool w ++ 0x0#1 : BitVec 10))
  | .imadImm d a i u w => some (packWord d a i u (0x5#8 ++ BitVec.ofBool w ++ 0x1#1 : BitVec 10))
  | .imadwI d a b u => some (packWord d a b u 0x18#10)
  | .imadwIImm d a i u => some (packWord d a i u 0x19#10)
  | .imadwB d a b u => some (packWord d a b u 0x1C#10)
  | .imadwBImm d a i u => some (packWord d a i u 0x1D#10)
  | .ineg d a z u w => some (packWord d a z u (0x8#8 ++ BitVec.ofBool w ++ 0x0#1 : BitVec 10))
  | .iabs d a z u w => some (packWord d a z u (0x9#8 ++ BitVec.ofBool w ++ 0x0#1 : BitVec 10))
  | .iminI d a b u w => some (packWord d a b u (0xA#8 ++ BitVec.ofBool w ++ 0x0#1 : BitVec 10))
  | .iminIImm d a i u w => some (packWord d a i u (0xA#8 ++ BitVec.ofBool w ++ 0x1#1 : BitVec 10))
  | .iminB d a b u w => some (packWord d a b u (0xB#8 ++ BitVec.ofBool w ++ 0x0#1 : BitVec 10))
  | .iminBImm d a i u w => some (packWord d a i u (0xB#8 ++ BitVec.ofBool w ++ 0x1#1 : BitVec 10))
  | .imaxI d a b u w => some (packWord d a b u (0xC#8 ++ BitVec.ofBool w ++ 0x0#1 : BitVec 10))
  | .imaxIImm d a i u w => some (packWord d a i u (0xC#8 ++ BitVec.ofBool w ++ 0x1#1 : BitVec 10))
  | .imaxB d a b u w => some (packWord d a b u (0xD#8 ++ BitVec.ofBool w ++ 0x0#1 : BitVec 10))
  | .imaxBImm d a i u w => some (packWord d a i u (0xD#8 ++ BitVec.ofBool w ++ 0x1#1 : BitVec 10))
  | .and d a b u w => some (packWord d a b u (0xE#8 ++ BitVec.ofBool w ++ 0x0#1 : BitVec 10))
  | .andImm d a i u w => some (packWord d a i u (0xE#8 ++ BitVec.ofBool w ++ 0x1#1 : BitVec 10))
  | .or d a b u w => some (packWord d a b u (0xF#8 ++ BitVec.ofBool w ++ 0x0#1 : BitVec 10))
  | .orImm d a i u w => some (packWord d a i u (0xF#8 ++ BitVec.ofBool w ++ 0x1#1 : BitVec 10))
  | .xor d a b u w => some (packWord d a b u (0x10#8 ++ BitVec.ofBool w ++ 0x0#1 : BitVec 10))
  | .xorImm d a i u w => some (packWord d a i u (0x10#8 ++ BitVec.ofBool w ++ 0x1#1 : BitVec 10))
  | .andn d a b u w => some (packWord d a b u (0x11#8 ++ BitVec.ofBool w ++ 0x0#1 : BitVec 10))
  | .andnImm d a i u w => some (packWord d a i u (0x11#8 ++ BitVec.ofBool w ++ 0x1#1 : BitVec 10))
  | .not d a z u w => some (packWord d a z u (0x12#8 ++ BitVec.ofBool w ++ 0x0#1 : BitVec 10))
  | .shl d a b u w => some (packWord d a b u (0x13#8 ++ BitVec.ofBool w ++ 0x0#1 : BitVec 10))
  | .shlImm d a i u w => some (packWord d a i u (0x13#8 ++ BitVec.ofBool w ++ 0x1#1 : BitVec 10))
  | .shr d a b u w => some (packWord d a b u (0x14#8 ++ BitVec.ofBool w ++ 0x0#1 : BitVec 10))
  | .shrImm d a i u w => some (packWord d a i u (0x14#8 ++ BitVec.ofBool w ++ 0x1#1 : BitVec 10))
  | .sar d a b u w => some (packWord d a b u (0x15#8 ++ BitVec.ofBool w ++ 0x0#1 : BitVec 10))
  | .sarImm d a i u w => some (packWord d a i u (0x15#8 ++ BitVec.ofBool w ++ 0x1#1 : BitVec 10))
  | .rol d a b u w => some (packWord d a b u (0x16#8 ++ BitVec.ofBool w ++ 0x0#1 : BitVec 10))
  | .rolImm d a i u w => some (packWord d a i u (0x16#8 ++ BitVec.ofBool w ++ 0x1#1 : BitVec 10))
  | .bfxB d a b u w => some (packWord d a b u (0x17#8 ++ BitVec.ofBool w ++ 0x0#1 : BitVec 10))
  | .bfxI d a b u w => some (packWord d a b u (0x18#8 ++ BitVec.ofBool w ++ 0x0#1 : BitVec 10))
  | .bfi d a b u w => some (packWord d a b u (0x19#8 ++ BitVec.ofBool w ++ 0x0#1 : BitVec 10))
  | .popc d a z u w => some (packWord d a z u (0x1A#8 ++ BitVec.ofBool w ++ 0x0#1 : BitVec 10))
  | .clz d a z u w => some (packWord d a z u (0x1B#8 ++ BitVec.ofBool w ++ 0x0#1 : BitVec 10))
  | .ctz d a z u w => some (packWord d a z u (0x1C#8 ++ BitVec.ofBool w ++ 0x0#1 : BitVec 10))
  | .brev d a z u w => some (packWord d a z u (0x1D#8 ++ BitVec.ofBool w ++ 0x0#1 : BitVec 10))
  | .prmt d a b u => some (packWord d a b u 0x78#10)
  | .mov d a z u w => some (packWord d a z u (0x1F#8 ++ BitVec.ofBool w ++ 0x0#1 : BitVec 10))
  | .movImm d y i u w => some (packWord d y i u (0x1F#8 ++ BitVec.ofBool w ++ 0x1#1 : BitVec 10))
  | .icmpEq d a b u w => some (packWord d a b u (0x20#8 ++ BitVec.ofBool w ++ 0x0#1 : BitVec 10))
  | .icmpEqImm d a i u w => some (packWord d a i u (0x20#8 ++ BitVec.ofBool w ++ 0x1#1 : BitVec 10))
  | .icmpNe d a b u w => some (packWord d a b u (0x21#8 ++ BitVec.ofBool w ++ 0x0#1 : BitVec 10))
  | .icmpNeImm d a i u w => some (packWord d a i u (0x21#8 ++ BitVec.ofBool w ++ 0x1#1 : BitVec 10))
  | .icmpLtI d a b u w => some (packWord d a b u (0x22#8 ++ BitVec.ofBool w ++ 0x0#1 : BitVec 10))
  | .icmpLtIImm d a i u w => some (packWord d a i u (0x22#8 ++ BitVec.ofBool w ++ 0x1#1 : BitVec 10))
  | .icmpLeI d a b u w => some (packWord d a b u (0x23#8 ++ BitVec.ofBool w ++ 0x0#1 : BitVec 10))
  | .icmpLeIImm d a i u w => some (packWord d a i u (0x23#8 ++ BitVec.ofBool w ++ 0x1#1 : BitVec 10))
  | .icmpGtI d a b u w => some (packWord d a b u (0x24#8 ++ BitVec.ofBool w ++ 0x0#1 : BitVec 10))
  | .icmpGtIImm d a i u w => some (packWord d a i u (0x24#8 ++ BitVec.ofBool w ++ 0x1#1 : BitVec 10))
  | .icmpGeI d a b u w => some (packWord d a b u (0x25#8 ++ BitVec.ofBool w ++ 0x0#1 : BitVec 10))
  | .icmpGeIImm d a i u w => some (packWord d a i u (0x25#8 ++ BitVec.ofBool w ++ 0x1#1 : BitVec 10))
  | .icmpLtB d a b u w => some (packWord d a b u (0x26#8 ++ BitVec.ofBool w ++ 0x0#1 : BitVec 10))
  | .icmpLtBImm d a i u w => some (packWord d a i u (0x26#8 ++ BitVec.ofBool w ++ 0x1#1 : BitVec 10))
  | .icmpLeB d a b u w => some (packWord d a b u (0x27#8 ++ BitVec.ofBool w ++ 0x0#1 : BitVec 10))
  | .icmpLeBImm d a i u w => some (packWord d a i u (0x27#8 ++ BitVec.ofBool w ++ 0x1#1 : BitVec 10))
  | .icmpGtB d a b u w => some (packWord d a b u (0x28#8 ++ BitVec.ofBool w ++ 0x0#1 : BitVec 10))
  | .icmpGtBImm d a i u w => some (packWord d a i u (0x28#8 ++ BitVec.ofBool w ++ 0x1#1 : BitVec 10))
  | .icmpGeB d a b u w => some (packWord d a b u (0x29#8 ++ BitVec.ofBool w ++ 0x0#1 : BitVec 10))
  | .icmpGeBImm d a i u w => some (packWord d a i u (0x29#8 ++ BitVec.ofBool w ++ 0x1#1 : BitVec 10))
  | .sel d a b u w => some (packWord d a b u (0x2C#8 ++ BitVec.ofBool w ++ 0x0#1 : BitVec 10))
  | .fadd d a b u m t => some (packWord d a b u (0xC#6 ++ m ++ t : BitVec 10))
  | .fsub d a b u m t => some (packWord d a b u (0xD#6 ++ m ++ t : BitVec 10))
  | .fmul d a b u m t => some (packWord d a b u (0xE#6 ++ m ++ t : BitVec 10))
  | .ffma d a b u m t => some (packWord d a b u (0xF#6 ++ m ++ t : BitVec 10))
  | .fdiv d a b u m t => some (packWord d a b u (0x10#6 ++ m ++ t : BitVec 10))
  | .fsqrt d a z u m t => some (packWord d a z u (0x11#6 ++ m ++ t : BitVec 10))
  | .frcpCr d a z u m t => some (packWord d a z u (0x12#6 ++ m ++ t : BitVec 10))
  | .frsqCr d a z u m t => some (packWord d a z u (0x13#6 ++ m ++ t : BitVec 10))
  | .fscale d a b u m t => some (packWord d a b u (0x14#6 ++ m ++ t : BitVec 10))
  | .frnd d a z u m t => some (packWord d a z u (0x15#6 ++ m ++ t : BitVec 10))
  | .fneg d a z u t => some (packWord d a z u (0x58#8 ++ t : BitVec 10))
  | .fabs d a z u t => some (packWord d a z u (0x59#8 ++ t : BitVec 10))
  | .fmin d a b u t => some (packWord d a b u (0x5A#8 ++ t : BitVec 10))
  | .fmax d a b u t => some (packWord d a b u (0x5B#8 ++ t : BitVec 10))
  | .fminn d a b u t => some (packWord d a b u (0x5C#8 ++ t : BitVec 10))
  | .fmaxn d a b u t => some (packWord d a b u (0x5D#8 ++ t : BitVec 10))
  | .fclass d a z u t => some (packWord d a z u (0x5E#8 ++ t : BitVec 10))
  | .ffrexp d a b u t => some (packWord d a b u (0x5F#8 ++ t : BitVec 10))
  | .fcmpEq d a b u t => some (packWord d a b u (0x60#8 ++ t : BitVec 10))
  | .fcmpLt d a b u t => some (packWord d a b u (0x61#8 ++ t : BitVec 10))
  | .fcmpLe d a b u t => some (packWord d a b u (0x62#8 ++ t : BitVec 10))
  | .fcmpUn d a b u t => some (packWord d a b u (0x63#8 ++ t : BitVec 10))
  | .fcmpNe d a b u t => some (packWord d a b u (0x64#8 ++ t : BitVec 10))
  | .fcmpGt d a b u t => some (packWord d a b u (0x65#8 ++ t : BitVec 10))
  | .fcmpGe d a b u t => some (packWord d a b u (0x66#8 ++ t : BitVec 10))
  | .fcmpOrd d a b u t => some (packWord d a b u (0x67#8 ++ t : BitVec 10))
  | .fexp2 d a z u => some (packWord d a z u 0x1A1#10)
  | .flog2 d a z u => some (packWord d a z u 0x1A5#10)
  | .fsin d a z u => some (packWord d a z u 0x1A9#10)
  | .fcos d a z u => some (packWord d a z u 0x1AD#10)
  | .ftanh d a z u => some (packWord d a z u 0x1B1#10)
  | .frcp d a z u t => some (packWord d a z u (0x6D#8 ++ t : BitVec 10))
  | .frsq d a z u t => some (packWord d a z u (0x6E#8 ++ t : BitVec 10))
  | .cvt d a q m s u t => some (packWord d a (BitVec.ofBool q ++ m ++ s : BitVec 7) u (0x1C#6 ++ t : BitVec 10))
  | .cvtpk d a p q m u n => some (packWord d a (p ++ BitVec.ofBool q ++ m : BitVec 7) u (0x1D#6 ++ n : BitVec 10))
  | .cvtupk d a p u n => some (packWord d a (p ++ 0x0#3 : BitVec 7) u (0x1E#6 ++ n : BitVec 10))
  | .cvtscMul d a b u => some (packWord d a b u 0x1EC#10)
  | .cvtscExp d a n u => some (packWord d a (0x0#3 ++ n : BitVec 7) u 0x1ED#10)
  | .shflIdx d a b => some (packWord d a b false 0x1F0#10)
  | .shflUp d a b => some (packWord d a b false 0x1F1#10)
  | .shflDown d a b => some (packWord d a b false 0x1F2#10)
  | .shflXor d a b => some (packWord d a b false 0x1F3#10)
  | .voteAny d a z => some (packWord d a z false 0x1F4#10)
  | .voteAll d a z => some (packWord d a z false 0x1F5#10)
  | .voteBallot d a z => some (packWord d a z false 0x1F6#10)
  | .elect d y z => some (packWord d y z false 0x1F7#10)
  | .redg d a o t => some (packWord d a (o ++ t : BitVec 7) false 0x1F8#10)
  | .scangIncl d a o t => some (packWord d a (o ++ t : BitVec 7) false 0x1F9#10)
  | .scangExcl d a o t => some (packWord d a (o ++ t : BitVec 7) false 0x1FA#10)
  | .nop x y z u => some (packWord x y z u 0x200#10)
  | .bra x y b u => some (packWord x y b u 0x201#10)
  | .braImm x y i u => some (packWord x y i u 0x202#10)
  | .brz x a b u => some (packWord x a b u 0x203#10)
  | .brzImm x a i u => some (packWord x a i u 0x204#10)
  | .brnz x a b u => some (packWord x a b u 0x205#10)
  | .brnzImm x a i u => some (packWord x a i u 0x206#10)
  | .jmpr x a z u => some (packWord x a z u 0x207#10)
  | .call d a z u => some (packWord d a z u 0x208#10)
  | .callImm d y i u => some (packWord d y i u 0x209#10)
  | .callr d a z u => some (packWord d a z u 0x20A#10)
  | .ret x a z u => some (packWord x a z u 0x20B#10)
  | .yield x y z => some (packWord x y z false 0x20C#10)
  | .wsync x a z => some (packWord x a z false 0x20D#10)
  | .exit x y z => some (packWord x y z false 0x20E#10)
  | .trap x y i u => some (packWord x y i u 0x20F#10)
  | .bkpt x y i u => some (packWord x y i u 0x210#10)
  | .wbase x a z u => some (packWord x a z u 0x211#10)
  | .wbaseImm x y i u => some (packWord x y i u 0x212#10)
  | .rbacq x a z u => some (packWord x a z u 0x213#10)
  | .rbacqImm x y i u => some (packWord x y i u 0x214#10)
  | .rbrel x a z u => some (packWord x a z u 0x215#10)
  | .rbrelImm x y i u => some (packWord x y i u 0x216#10)
  | .rquota x a t f u => some (packWord x a (0x0#3 ++ t ++ f : BitVec 7) u 0x217#10)
  | .fetcht d y z u => some (packWord d y z u 0x218#10)
  | .movs d y s u => some (packWord d y s u 0x219#10)
  | .movc d y c u => some (packWord d y c u 0x21A#10)
  | .movcW x a c u => some (packWord x a c u 0x21B#10)
  | .movs64 d y s u => some (packWord d y s u 0x21C#10)
  | .ld d a o t u => some (packWord d a (0x0#1 ++ o ++ t : BitVec 7) u 0x260#10)
  | .ldSpan d a k t u => some (packWord d a (k ++ t : BitVec 7) u 0x261#10)
  | .st d a r t u => some (packWord d a (0x0#2 ++ BitVec.ofBool r ++ t : BitVec 7) u 0x262#10)
  | .ldl d a q t u => some (packWord d a (0x0#2 ++ BitVec.ofBool q ++ t : BitVec 7) u 0x263#10)
  | .stl d a r t u => some (packWord d a (0x0#2 ++ BitVec.ofBool r ++ t : BitVec 7) u 0x264#10)
  | .pref x a k l u => some (packWord x a (k ++ 0x0#2 ++ l : BitVec 7) u 0x265#10)
  | .pqry d a z u => some (packWord d a z u 0x266#10)
  | .atomAdd d a p o t u => some (packWord d a (0x0#1 ++ BitVec.ofBool p ++ o ++ t : BitVec 7) u 0x270#10)
  | .atomSub d a p o t u => some (packWord d a (0x0#1 ++ BitVec.ofBool p ++ o ++ t : BitVec 7) u 0x271#10)
  | .atomMin d a p o t u => some (packWord d a (0x0#1 ++ BitVec.ofBool p ++ o ++ t : BitVec 7) u 0x272#10)
  | .atomMax d a p o t u => some (packWord d a (0x0#1 ++ BitVec.ofBool p ++ o ++ t : BitVec 7) u 0x273#10)
  | .atomAnd d a p o t u => some (packWord d a (0x0#1 ++ BitVec.ofBool p ++ o ++ t : BitVec 7) u 0x274#10)
  | .atomOr d a p o t u => some (packWord d a (0x0#1 ++ BitVec.ofBool p ++ o ++ t : BitVec 7) u 0x275#10)
  | .atomXor d a p o t u => some (packWord d a (0x0#1 ++ BitVec.ofBool p ++ o ++ t : BitVec 7) u 0x276#10)
  | .atomSwap d a p o t u => some (packWord d a (0x0#1 ++ BitVec.ofBool p ++ o ++ t : BitVec 7) u 0x277#10)
  | .atomCas d a p o t u => some (packWord d a (0x0#1 ++ BitVec.ofBool p ++ o ++ t : BitVec 7) u 0x278#10)
  | .atomIncw d a p o t u => some (packWord d a (0x0#1 ++ BitVec.ofBool p ++ o ++ t : BitVec 7) u 0x279#10)
  | .atomAddb d a p o t u => some (packWord d a (0x0#1 ++ BitVec.ofBool p ++ o ++ t : BitVec 7) u 0x27A#10)
  | .atomFadd d a p o t u => some (packWord d a (0x0#1 ++ BitVec.ofBool p ++ o ++ t : BitVec 7) u 0x27B#10)
  | .accopen d a b u => some (packWord d a b u 0x2E0#10)
  | .accclose x a z u => some (packWord x a z u 0x2E1#10)
  | .accscale d a b u => some (packWord d a b u 0x2E2#10)
  | .acczero x a b u => some (packWord x a b u 0x2E3#10)
  | .redFast d a z u w => some (packWord d a z u (0x172#9 ++ BitVec.ofBool w : BitVec 10))
  | .redOrd d a b u w => some (packWord d a b u (0x173#9 ++ BitVec.ofBool w : BitVec 10))
  | .redMin d a z u w => some (packWord d a z u (0x174#9 ++ BitVec.ofBool w : BitVec 10))
  | .redMax d a z u w => some (packWord d a z u (0x175#9 ++ BitVec.ofBool w : BitVec 10))
  | .rediAdd d a z u w => some (packWord d a z u (0x178#9 ++ BitVec.ofBool w : BitVec 10))
  | .rediMinI d a z u w => some (packWord d a z u (0x179#9 ++ BitVec.ofBool w : BitVec 10))
  | .rediMinB d a z u w => some (packWord d a z u (0x17A#9 ++ BitVec.ofBool w : BitVec 10))
  | .rediMaxI d a z u w => some (packWord d a z u (0x17B#9 ++ BitVec.ofBool w : BitVec 10))
  | .rediMaxB d a z u w => some (packWord d a z u (0x17C#9 ++ BitVec.ofBool w : BitVec 10))
  | .rediAnd d a z u w => some (packWord d a z u (0x17D#9 ++ BitVec.ofBool w : BitVec 10))
  | .rediOr d a z u w => some (packWord d a z u (0x17E#9 ++ BitVec.ofBool w : BitVec 10))
  | .rediXor d a z u w => some (packWord d a z u (0x17F#9 ++ BitVec.ofBool w : BitVec 10))
  | .cflush x a b u => some (packWord x a b u 0x300#10)
  | .cinv x a b u => some (packWord x a b u 0x301#10)
  | .cspan d a c k u => some (packWord d a (0x0#3 ++ BitVec.ofBool c ++ k : BitVec 7) u 0x302#10)
  | .binit d a z u => some (packWord d a z u 0x320#10)
  | .barv x a b u => some (packWord x a b u 0x321#10)
  | .barvImm x a i u => some (packWord x a i u 0x322#10)
  | .bexp x a b u => some (packWord x a b u 0x323#10)
  | .bwait x a b u => some (packWord x a b u 0x324#10)
  | .btest d a b u => some (packWord d a b u 0x325#10)
  | .binval x a z u => some (packWord x a z u 0x326#10)
  | .bsync x a b u => some (packWord x a b u 0x327#10)
  | .cqry d y i u => some (packWord d y i u 0x340#10)
  | .movts d a z u => some (packWord d a z u 0x350#10)
  | .movst d a z u => some (packWord d a z u 0x351#10)
  | .tld d a z u => some (packWord d a z u 0x352#10)
  | .tldOb d a z u => some (packWord d a z u 0x353#10)
  | .tst d a z u => some (packWord d a z u 0x354#10)
  | .tzero d y z u => some (packWord d y z u 0x355#10)
  | .twr d a b u => some (packWord d a b u 0x356#10)
  | .trd d a b u => some (packWord d a b u 0x357#10)
  | .tring d a z u => some (packWord d a z u 0x358#10)
  | .trel d y z u => some (packWord d y z u 0x359#10)
  | .mmai x a z u => some (packWord x a z u 0x35A#10)
  | .mmaq d y z u => some (packWord d y z u 0x35B#10)
  | .ldmeta d a z u => some (packWord d a z u 0x35C#10)
  | .put d a o u => some (packWord d a (0x0#5 ++ o : BitVec 7) u 0x390#10)
  | .putn d a o u => some (packWord d a (0x0#5 ++ o : BitVec 7) u 0x391#10)
  | .get d a o u => some (packWord d a (0x0#5 ++ o : BitVec 7) u 0x392#10)
  | .mput d a o u => some (packWord d a (0x0#5 ++ o : BitVec 7) u 0x393#10)
  | .ratom d y t o u => some (packWord d y (t ++ o : BitVec 7) u 0x394#10)
  | .rred d y o w u => some (packWord d y (0x0#5 ++ BitVec.ofBool o ++ BitVec.ofBool w : BitVec 7) u 0x395#10)
  | .gbarv x a z u => some (packWord x a z u 0x396#10)
  | .fqry d y i u => some (packWord d y i u 0x397#10)
  | .illop word => some word
  | .clauseIssue => none
  | .clauseEnd => none
  | .llComplete => none
  | .rbacqGrant => none
  | .faultRecordEnqueue => none
  | .faultRecordHandling => none
  | .preemptionRequest => none
  | .drainComplete => none
  | .imageWritten => none
  | .resumeRequest => none
  | .resourcesReserved => none
  | .loadComplete => none
  | .storeQueueDepart => none
  | .homeApply => none
  | .storeAcknowledgement => none
  | .homeRead => none
  | .fillComplete => none
  | .l1Fill => none
  | .releasePerform => none
  | .promotion => none
  | .mapRequest => none
  | .mapNotice => none
  | .declineNotice => none
  | .shootdown => none
  | .shootdownAck => none
  | .pageChangeStep => none
  | .contributionArrival => none
  | .accopenCapacity => none
  | .accClosePoint => none
  | .arrivalRetry => none
  | .bytesLanded => none
  | .putAcknowledgement => none
  | .remoteArrival => none
  | .gangCompletion => none
  | .gangArrival => none
  | .bsyncTimeout => none
  | .waitForWalk => none
  | .copyNotify => none
  | .ringRestart => none
  | .copyLanding => none
  | .copyTileDelivery => none
  | .copyEntryComplete => none
  | .kstepFire => none
  | .kstepReadsComplete => none
  | .mmaiQueueEntry => none
  | .governorWindow => none
  | .dispenserRequest => none
  | .staticExhaustRelease => none
  | .fabricSlot => none
  | .packetReceive => none
  | .packetAck => none
  | .packetRetransmit => none
  | .planeBlackout => none
  | .blackoutEnd => none
  | .linkStepDown => none
  | .linkStepDone => none
  | .linkProbeStart => none
  | .linkProbePass => none
  | .linkProbeFail => none
  | .retrainRequest => none
  | .retrainAccept => none
  | .retrainDefer => none
  | .retrainLocked => none
  | .retrainTimeout => none
  | .slotMark => none
  | .toffMeasurement => none
  | .leaseRenewal => none
  | .renewalHeard => none
  | .renewalAcknowledgement => none
  | .leaseTimeout => none
  | .electionTimer => none
  | .claimHeard => none
  | .leaderLapse => none
  | .dieReset => none
  | .selftestComplete => none
  | .imageVerify => none
  | .identityExchange => none
  | .partnerSilent => none
  | .panelJoin => none
  | .joinTimeout => none
  | .dieFence => none
  | .supplySag => none
  | .sagRecovery => none
  | .powerCapUpdate => none
  | .eccError => none
  | .dieLinkError => none
  | .hostRead => none
  | .hostWrite => none
  | .queueEnable => none
  | .queueDisable => none
  | .registerWrite => none
  | .attestationRequest => none
  | .henezNop => none
  | .henezLaunch => none
  | .henezLaunchInd => none
  | .launchPlace => none
  | .launchRetire => none
  | .henezWait => none
  | .henezSignalStore => none
  | .henezSignalAdd => none
  | .henezLoop => none
  | .henezEndloop => none
  | .henezIf => none
  | .henezElse => none
  | .henezEndif => none
  | .henezBankrole => none
  | .bankroleExecute => none
  | .henezPagemode => none
  | .henezTopo => none
  | .henezPreempt => none
  | .henezPreemptResume => none
  | .henezPreemptAbort => none
  | .henezMap => none
  | .henezMapDecline => none
  | .henezXferSend => none
  | .henezXferFetch => none
  | .henezUnassigned => none

end Sys2Proof
end

