-- ==== Sys2Proof/Machine/State.lean ====
section
/-!
DEFINITION. State.lean: the state of the panel as plain data. Numbers the manual counts with (addresses once formed,
lengths, indices, times, sequence numbers) are Nat; register contents, PCs and words that software reads are bit
vectors. A core is keyed by bits [12:0] of its CORE value (R155), a die by 2n+d (R10).
-/
namespace Sys2Proof.Machine

/-- The state of a thread (R102). -/
inductive ThreadState where
  | run | park | wait | done
  deriving DecidableEq, Repr

/-- A thread record (R125). -/
structure Thread where
  pc : BitVec 57
  st : ThreadState := .run
  starve : Nat := 0
  wmask : Word := 0
  deriving DecidableEq, Repr

/-- The translation an access holds (R236): the page's virtual base and size, the physical address of its first byte,
and the leaf. Die scratch has a leaf of its own (R260) and a scratch location as its address (log 7). -/
structure Tr where
  page : Nat
  size : Nat
  pa : Nat
  leaf : DWord
  scratch : Bool := false
  deriving DecidableEq, Repr

/-- What a group waits for (R179). -/
inductive GWait where
  | none
  | joining                                                          -- its wait is still behind it in the stream (R300)
  | bwait (addr : Nat) (remote : Bool) (phase : Nat)                 -- blocked in BWAIT (R308)
  | bsync (addr : Nat) (phase : Nat) (left : Nat) (mask : Word)      -- blocked in BSYNC; left: 0 no time-out, n + 2: n ticks remain, 1: they have passed (R310)
  deriving DecidableEq, Repr

/-- Why a group issues nothing although nothing it waits for is missing. -/
inductive Halt where
  | none
  | faulted          -- a record of it is with the command core (R131)
  | trapped          -- END-class halt: step 7 of R105 is still to run (R161)
  deriving DecidableEq, Repr

/-- What a store-queue entry does at its home (R196, R270). -/
inductive StoreKind where
  | plain                                             -- ST, TST
  | red (op : Nat) (wide : Bool)                      -- RED reduction at memory: k of R58
  | redi (op : Nat) (wide : Bool)                     -- REDI
  | contrib (range : Nat)                             -- a contribution to an accumulator range (R274)
  | zero (len : Nat)                                  -- ACCZERO of one grain (R288)
  | scale (range : Nat)                               -- ACCSCALE (R287)
  deriving DecidableEq, Repr

/-- An entry of a store queue: the bytes of one instruction that fall in one grain (R196). -/
structure Store where
  id : Nat                     -- the entry, and the access it acknowledges
  op : Nat                     -- its operation
  tr : Tr
  parts : List (Nat × List Byte) := []   -- virtual address and bytes, in thread order
  kind : StoreKind := .plain
  relScope : Nat := 0          -- its release has not performed: 1 DIE, 2 ISLAND scope (R200, R438)
  left : Bool := false         -- sent, and in the queue until its home acknowledges it (R196, R290)
  deriving DecidableEq, Repr

/-- An access to local store in its group's stream (R208, R304). -/
inductive LocalKind where
  | load (op access : Nat)
  | store (op access : Nat) (bytes : List Byte)
  | binit (init : DWord)
  | binval
  | barv (count : Nat)
  | bexp (bytes : Nat)
  | bwait (remote : Bool) (phase : Nat)              -- the wait of BWAIT, judged in stream order (R300, R308)
  | bsync (count ticks : Nat) (mask : Word)          -- the arrival and wait of BSYNC (R310)
  deriving DecidableEq, Repr

/-- One entry of a local-store stream. -/
structure LocalAcc where
  id : Nat
  addr : Nat                   -- bit 19 selects the partner (R194)
  kind : LocalKind
  rel : Bool := false          -- STL.rel or BARV: a release at CORE scope (R208, R299)
  after : Nat                  -- operations older than this are earlier in program order (R195)
  deriving DecidableEq, Repr

/-- Blocks given up by RBREL whose return waits for earlier LL instructions (R122). -/
structure Released where
  n : Nat
  before : Nat                 -- operations with a smaller id must have finished
  regs : Cells Word := []      -- their registers, for what those operations still have to read (R130)
  deriving DecidableEq, Repr

/-- What a held access executes again with, which the image does not hold: window base, blocks and registers of its issue
(R130, R172). -/
structure HeldAt where
  wb : Nat
  nblk : Nat
  limit : Nat                  -- registers from here on have left the group since
  regs : Cells Word := []      -- those of them that it may still read
  tainted : Bool := false      -- a source register of it was written too early (R101)
  deriving DecidableEq, Repr

/-- What the record of a BSYNC's time-out says, as it expired (R311). -/
structure Expiry where
  detail : Word
  missing : List (Nat × Nat × Nat × Nat × Word)   -- extension entries: thread, state, PC, 64 * slot + group, mask
  deriving DecidableEq, Repr

/-- A group: its record (R126), extra record (R179), registers and queues. -/
structure Group where
  launch : Nat
  team : Nat
  gnum : Nat
  role : Nat := 0
  thr : List Thread
  regs : Cells Word := []                -- key 32 * register + thread; unlisted registers are zero (R117)
  nblk : Nat
  wb : Nat := 0
  rbreq : Nat := 0
  rbAge : Nat := 0                       -- order in which pending requests were made (R120)
  emrg : Bool := false
  fcnt : List Nat := List.replicate 12 0
  lastf : Word := 0
  gtag : Word := 0
  wait : GWait := .none
  wclause : Nat := 0                     -- start of the clause that waits (R165)
  wmask : Word := 0                      -- its Issuing() mask
  wsince : Nat := 0                      -- when the wait began (R314)
  halt : Halt := .none
  readySince : Option Nat := none        -- ready time (R114)
  readyClk : Nat := 0                    -- its die's clock count then
  exitDue : Bool := false                -- step 7 of R105 waits for its trap's resumption (R161)
  exited : Bool := false
  released : List Released := []
  sq : List Store := []
  stream : List LocalAcc := []
  fseq : List Nat := List.replicate 30 0 -- next stream number to each island (R177, R386)
  bsyncs : List (Nat × Nat × Word) := [] -- BSYNC masks recorded: object, phase, mask (R310, R311)
  expired : Option Expiry := none        -- what a BSYNC that has expired found (R311)
  withdrawn : Option (Nat × Nat × Word × Nat) := none  -- held access at the save: CLADDR, LINDEX, TMASK, LFLAG (R179)
  heldAt : Option HeldAt := none         -- what the image does not hold of it
  savedOps : List (Nat × Bool) := []     -- per MMA record of the image: its operation, and whether R354, R355 or R101 was broken
  deriving DecidableEq, Repr

/-- Tile states (R342). -/
inductive TileState where
  | empty | filling | ready | draining
  deriving DecidableEq, Repr

/-- A tile (R339 to R341). -/
structure Tile where
  shape : Word := 0
  st : TileState := .ready
  data : Cells Byte := []
  readers : Nat := 0           -- k-steps and TSTs reading it (R348)
  loads : Nat := 0             -- TLD and TLD.ob still writing it (R343)
  broken : Nat := 0            -- operations issued before this stamp read it after a breach of R355
  deriving DecidableEq, Repr

/-- A tile ring (R345, R346). -/
structure Ring where
  desc : Word := 0
  p : Nat := 0
  c : Nat := 0
  deriving DecidableEq, Repr

/-- A fault record without its TIME position lost: the fields of R165 and the extension entries of R166. -/
structure Record where
  code : Nat
  cls : Nat
  launch : Nat
  team : Nat := 0
  gnum : Nat := 0
  slot : Nat := 0
  issuing : Word := 0
  index : Nat := 31
  arg : Nat := 0
  claddr : Nat := 0
  addr : Nat := 0
  thread : Nat := 0
  gtag : Word := 0
  detail : Word := 0
  core : Nat := 0
  time : Nat := 0
  ptrap : Nat := 0
  parg : Nat := 0
  ext : List (Nat × Nat × Nat × Nat × Word) := []   -- thread, state, PC, 64 * slot + group, mask
  deriving DecidableEq, Repr

/-- The context states (R175). -/
inductive Ctx where
  | run | halting | draining | saving | saved | waiting | loading | failed
  deriving DecidableEq, Repr

/-- A write to a ring header on which the copy engine acts (R318, R321). -/
structure RingWrite where
  ring : Nat
  restart : Option Nat := none           -- the value written to DONE, none for a write to NOTIFY
  deriving DecidableEq, Repr

/-- Entries that a publication made ready while stores of their publisher were not released (R318). -/
structure Publication where
  ring : Nat
  first : Nat                            -- NOTIFY before the publication
  upto : Nat                             -- NOTIFY after it
  wild : List (Nat × Nat)                -- addresses and lengths of the publisher's stores not acknowledged
  deriving DecidableEq, Repr

/-- A ring about to stop, once every earlier entry has completed (R320, R335). -/
structure RingStop where
  ring : Nat
  index : Nat
  reason : Nat
  fcode : Nat
  addr : Nat
  deriving DecidableEq, Repr

/-- A team (R178) with the reservations it holds. -/
structure Team where
  launch : Nat
  idx : Nat
  core : Nat
  slot : Nat := 0
  ctx : Ctx := .run
  resume : Bool := false                 -- a remembered resume request (R175)
  exited : Bool := false
  ngrp : Nat
  nrole : Nat := 1
  t : Nat
  budget : List Nat := []                -- B0 to B3 (R123)
  held : List Nat := []                  -- H0 to H3
  emlent : Bool := false
  nloc : Nat := 0                        -- units of 256 bytes
  ntile : Nat := 0
  nring : Nat := 0
  nmeta : Nat := 0
  bken : Word := 0
  loc : Cells Byte := []                 -- local store
  bars : List Nat := []                  -- offsets that barrier operations have set up or used (R293, R295)
  loose : List Nat := []                 -- offsets whose W0 to W2 an STL has left unpredictable until BINIT (R295)
  faults : List Record := []             -- records kept with a team that is not in RUN (R170, section FAULTS)
  tiles : List Tile := []
  rings : List Ring := []
  metas : Cells Byte := []               -- metadata slots, 2048 bytes each
  latched : List (Nat × Nat) := List.replicate 4 (0, 0)  -- BASE and LOG2N of each command ring as latched (R318)
  ringWrites : List RingWrite := []      -- writes the copy engine has still to act on
  stopping : List RingStop := []
  published : List Publication := []     -- publications whose sources were not released (R318)
  changed : List (Nat × Nat) := []       -- ring and index of entries changed between publication and DONE (R319)
  mapChanged : List (Nat × Nat) := []    -- those whose bitmap bytes were written meanwhile (R334)
  gstall : Nat := 0
  partner : Option Nat := none           -- the other team of a team pair
  image : Bool := false                  -- a context image of it lies in the save area
  frozen : Option (Cells Byte) := none   -- its image as it stood when the team left SAVED (R175)
  wild : List (Nat × Nat × Nat) := []    -- words of the image modified outside SAVED: index, before, after (R175)
  acted : List Nat := []                 -- groups whose records among `faults` have been acted on (R168)
  deriving DecidableEq, Repr

/-- Which kind of long-latency operation, with what its completion needs. -/
inductive OpKind where
  | load (ty : Nat)                                  -- LD
  | span (ty k : Nat)                                -- LD.span (R214)
  | store (ty : Nat)                                 -- ST
  | localLoad (ty : Nat)                             -- LDL
  | localStore (ty : Nat)                            -- STL
  | pqry
  | pref                                             -- PREF.l1: a fill with no flag (R217)
  | prefRind | cspan (clear : Bool) (k : Nat)        -- PREF.rind and CSPAN held on a page in transition (R240)
  | atom (o ty : Nat)
  | fetcht
  | red | accZero
  | accOpen | accClose (range : Nat) | accScale (contribution : Nat)
  | flush (inv : Bool)
  | tld (t : Nat) | tldOb (t : Nat) | tst (t : Nat) | ldmeta (m : Nat)
  | mmai
  | fabric
  deriving DecidableEq, Repr

/-- How far an access has come. -/
inductive AccSt where
  | held          -- its page is not present or in transition: the group is held (R211 step 6)
  | declined      -- firmware declined the page (R242)
  | waiting       -- translated, not performed
  | sent          -- on its way to its home
  | served        -- its value is fixed; the data is on its way back
  | done
  deriving DecidableEq, Repr

/-- One thread's access of an operation (R195, R236). -/
structure Access where
  id : Nat
  thread : Nat
  va : Nat
  len : Nat
  tr : Option Tr := none
  trs : List Tr := []             -- the pages of a byte range as they were translated (R236)
  st : AccSt := .waiting
  data : List Byte := []          -- bytes to write, or bytes returned
  opnd : Nat := 0                 -- first operand group of an atomic; descriptor of ACCOPEN
  opnd2 : Nat := 0                -- second operand group
  taken : Nat := 0                -- ACCZERO: bytes that have their store-queue entries (R270)
  sk : StoreKind := .plain        -- what its store-queue entry does
  unpred : Bool := false          -- its result is an unpredictable value
  wrote : List Byte := []         -- what it had written when a source register was written too early (R101)
  entry : Nat := 0                -- its store-queue entry
  sentAt : Nat := 0               -- when it was sent to its home (R196)
  fill : List Byte := []          -- the grain on its way to the L1 (R191)
  dead : List Nat := []           -- sectors of it invalidated in flight: not installed (R193)
  victim : Option Nat := none     -- the core its promotion names (R207)
  promAt : Nat := 0               -- when the promotion arrived, 0 for not yet
  covers : List Nat := []         -- the store-queue entries of the victim's groups that it covers (R207)
  promDone : Bool := false
  deriving DecidableEq, Repr

/-- The operations of the fabric block (R62). -/
inductive FabKind where
  | put | putn | get | mput | ratom | rred
  deriving DecidableEq, Repr

/-- One destination of a fabric operation. -/
structure Dest where
  isl : Nat
  checked : Bool := false                 -- its part has been translated and checked (R247)
  trs : List (Nat × Option Tr) := []      -- address in each page of its part, with the translation taken then
  mapped : List (Nat × Nat) := []         -- pages not present then whose notices have come: base, size (R248, R395)
  ranges : List (Nat × Nat × Nat) := []   -- id, base and length of the ranges that RRED met at that check (R385)
  left : Nat                              -- packets, or elements of RRED, still to take effect there
  notified : Bool := false                -- the notify counter has been incremented (R382)
  acked : Bool := false                   -- its acknowledgement is on its way back
  counted : Bool := false                 -- and has been counted
  deriving DecidableEq, Repr

/-- A fabric operation of one thread (R379 to R385). -/
structure FabOp where
  id : Nat
  op : Nat                                -- the instruction's operation, whose flag may have fallen already
  launch : Nat
  team : Nat
  gnum : Nat
  thread : Nat
  kind : FabKind
  w0 : DWord
  w1 : DWord
  bar : Nat                               -- 0xFFFFFFFF for none
  order : Nat                             -- 0 none, 1 .ord, 2 .rel
  o : Nat := 0                            -- RATOM operation
  ty : Nat := 0                           -- RATOM or RRED type
  len : Nat                               -- bytes for each destination
  dests : List Dest := []
  src : List Byte := []                   -- source bytes, kept once the flag has fallen
  land : Bool := false                    -- GET: the landing pages have been checked
  ltrs : List (Nat × Option Tr) := []     -- GET: the translations of the landing bytes
  landed : Nat := 0                       -- GET: bytes landed and counted
  result : List Byte := []                -- RATOM: the old value, once it has returned
  failed : Bool := false
  deriving DecidableEq, Repr

/-- A long-latency operation in flight. Its id rises in program order within a group (R195). -/
structure Op where
  id : Nat
  launch : Nat
  team : Nat
  gnum : Nat
  flag : Nat := 15                 -- 15: none (R19)
  wb : Nat := 0                    -- window base and blocks of its group as it issued (R130)
  nblk : Nat := 0
  was : Nat := 0                   -- its identity before a save, 0 for none (R116)
  claddr : Nat := 0
  cidx : Nat := 0
  word : Word := 0
  mask : Word := 0                 -- threads it acts for
  uni : Bool := false
  kind : OpKind
  accs : List Access := []
  dst : Option (Nat × Nat) := none -- first absolute register and how many (R101)
  srcs : List (Nat × Nat) := []    -- absolute source registers still to be read by it
  born : Nat := 0                  -- when it issued (R314)
  limit : Nat := 512               -- registers from here on have left the group since it issued (R122)
  acq : Bool := false
  rel : Bool := false
  nc : Bool := false
  island : Bool := false           -- the release scope is ISLAND (R438)
  relDone : Bool := true
  acqDone : Bool := true
  tainted : Bool := false          -- a source register of it was written too early (R101)
  due : Bool := false              -- and what it has written already is still to be spoiled
  answers : List (Nat × Nat × Nat × Nat) := []   -- FETCHT: thread, x, y, z received
  wants : List Nat := []           -- FETCHT: threads still to be served
  deriving DecidableEq, Repr

/-- A sector of an L1 (R191): 32 bytes tagged by physical address / 32. -/
structure Sector where
  tag : Nat
  data : List Byte
  rpage : Bool := false
  age : Nat := 0
  deriving DecidableEq, Repr

/-- A side-log entry (R245). -/
structure LogEntry where
  launch : Nat
  team : Nat
  gnum : Nat
  thread : Nat
  op : Nat
  va : Nat
  bytes : List Byte
  kind : Nat               -- 0 store, 1 RED, 2 REDI
  opk : Nat := 0
  seq : Nat := 0
  page : Nat               -- the page it keeps logged
  size : Nat
  tr : Option Tr := none        -- the translation it replays with, once its page's notice has come (R244)
  replay : Option Nat := none   -- its identity on the path while it replays (R244)
  deriving DecidableEq, Repr

/-- A cached translation: launch, virtual page base, page size, leaf (R233 to R235). -/
structure Cached where
  launch : Nat
  page : Nat
  size : Nat
  leaf : DWord
  deriving DecidableEq, Repr

/-- A store, atomic or read on a core's path to a home (R196). -/
structure Sent where
  die : Nat                -- the home
  launch : Nat
  team : Nat
  gnum : Nat
  op : Nat
  access : Nat
  store : Option Store     -- none: an atomic, its operands in the access
  at_ : Nat                -- when it left (R196)
  applied : Bool := false  -- performed at its home, the acknowledgement on its way
  deriving DecidableEq, Repr

/-- Per-core state that is not a team's. -/
structure Core where
  id : Nat
  l1 : List Sector := []
  sideLog : List LogEntry := []
  lastPage : List (Nat × Nat × Cached) := []   -- group slot, thread slot, translation (R234)
  tlb : List Cached := []
  emLent : Bool := false           -- the emergency block is lent (R121)
  kcap : BitVec 8 := 0             -- GOVCTL.KCAP (R359)
  kcapWas : BitVec 8 := 0          -- KCAP as it stood when window `kcapAt` began (R360)
  kcapAt : Nat := 0                -- the window in which KCAP last changed
  capNow : Nat := 0                -- the cap of this window (R360)
  window : Nat := 0                -- k-steps fired in this 64-clk window (R360)
  windowAt : Nat := 0              -- which window of the clock count that is
  fencedBlocks : Nat := 0
  fencedLocal : Nat := 0           -- bytes
  fencedTiles : Nat := 0
  path : List Sent := []
  deriving DecidableEq, Repr

/-- A block of the rind cache (R262). Replicas are kept on the reading die (R267). -/
structure Block where
  frame : Nat                      -- physical address / 4096
  lo : Nat                         -- first grain
  hi : Nat                         -- last grain
  grain : Nat                      -- 32, 128 or 512
  dirty : List Nat := []           -- dirty grains
  data : Cells Byte := []          -- by offset in the frame
  replica : Bool := false
  age : Nat := 0
  deriving DecidableEq, Repr

/-- A fill on its way from HBM (R263, R264). -/
structure Fill where
  id : Nat
  die : Nat
  frame : Nat
  lo : Nat
  hi : Nat
  grain : Nat
  replica : Bool := false
  deriving DecidableEq, Repr

/-- A bank-role register (R255). -/
structure Brole where
  role : Nat := 0
  accq : Nat := 3072
  aused : Nat := 0
  deriving DecidableEq, Repr

/-- A map request the command engine has received (R241). -/
structure MapReq where
  id : Nat
  isl : Nat
  launch : Nat
  page : Nat
  size : Nat
  die : Nat
  posted : Bool := false           -- FILL 2: the event is with the host
  deriving DecidableEq, Repr

/-- A map notice or a decline on its way to a core (R241, R242); engine = the copy, fabric and home engines. -/
structure Notice where
  id : Nat
  core : Option Nat
  isl : Nat
  launch : Nat
  page : Nat
  size : Nat
  decline : Bool := false
  deriving DecidableEq, Repr

/-- A shoot-down in flight (R237, R238). Targets: cores, and 2^13 + die for a die's engines. -/
structure Shoot where
  id : Nat
  launch : Nat
  isl : Nat
  lo : Nat
  hi : Nat
  targets : List Nat
  swept : List Nat := []
  acked : List Nat := []
  stamp : List (Nat × Nat) := []   -- target, operations older than this must have performed
  deriving DecidableEq, Repr

/-- A page change in progress (R250). -/
structure Change where
  id : Nat
  launch : Nat
  isl : Nat
  page : Nat
  size : Nat
  old : DWord
  new : DWord
  step : Nat := 1
  shoot : Nat := 0
  queue : Nat := 0                        -- the PAGEMODE's queue, 256 for none
  retire : Bool := false                  -- an ECC retirement: the frame is lost (R434)
  charged : Nat := 0                      -- the launch that the retirement's log entry names (R436)
  deriving DecidableEq, Repr

/-- A contribution on its way to its range, or held in its reorder pool (R274, R276). -/
structure Contrib where
  id : Nat
  launch : Nat
  team : Nat
  gnum : Nat
  isl : Nat
  range : Nat                      -- the range at the sender's check
  seq : Nat
  ord : Bool
  elems : List (Nat × Nat × Bool)  -- virtual address, bits, unpredictable
  scale : List (Nat × Nat × Nat) := []   -- ACCSCALE rows: base, length, factor bits
  bad : Bool := false              -- its value is unpredictable (R101)
  trs : List Tr := []              -- the pages of the range
  op : Nat := 0                    -- the operation it belongs to
  entry : Nat := 0                 -- its store-queue entry, 0 for none
  mma : Nat := 0                   -- the matrix operation or ordered RRED whose parts go in turn, 0 for none
  chunk : Nat := 0                 -- its chunk, or element
  wide : Bool := false             -- its elements are FP64
  fab : Nat := 0                   -- the RRED it is an element of, 0 for none
  sent : Bool := false             -- it has left for its home
  refused : Bool := false          -- its home has refused it (R173, R276)
  deriving DecidableEq, Repr

/-- States of a range (R280). -/
inductive RangeSt where
  | opening | open | closing | saved
  deriving DecidableEq, Repr

/-- An accumulator range (R271 to R278). -/
structure Range where
  id : Nat
  launch : Nat
  isl : Nat
  team : Nat
  base : Nat
  len : Nat
  fmt64 : Bool
  ord : Bool
  remain : Nat
  seqNext : Nat
  vals : Cells Nat := []           -- element bits by element index
  unpred : List Nat := []          -- elements left unpredictable
  lost : List Nat := []            -- elements that will be unpredictable at the close, whatever becomes of them (R209, R285)
  pool : List Contrib := []
  st : RangeSt := .open
  closer : Nat := 0                -- the pending ACCCLOSE's operation, 0 for none
  trs : List Tr := []              -- pinned pages
  deriving DecidableEq, Repr

/-- A matrix operation (R349 to R354). -/
structure Mma where
  id : Nat                         -- its order of issue
  op : Nat
  launch : Nat
  team : Nat
  gnum : Nat
  thread : Nat
  pb : Nat
  words : List DWord               -- the parameter block as read; after a restore with its SEQ counted on (R366)
  block : List DWord := []         -- the block as read
  range : Nat
  trs : List Tr := []              -- pages of its range
  kt : Nat := 1                    -- step depth Kt (R351)
  ra : Nat := 1                    -- rows of an A tile
  cb : Nat := 1                    -- columns of a B tile
  fired : Nat := 0                 -- k-steps fired
  c0a : Option Nat := none
  c0b : Option Nat := none
  reading : List Nat := []         -- fired steps whose reads are not complete
  readDone : Nat := 0
  accepted : List Nat := []        -- chunks accepted at their homes
  broken : Bool := false           -- R354, R355 was broken
  stalled : Bool := false          -- this step has been counted in GSTALL
  issued : Bool := true            -- false while waiting for room in the queue
  deriving DecidableEq, Repr

/-- A copy entry taken by an engine (R319 to R337). -/
structure Copy where
  id : Nat
  launch : Nat
  team : Nat
  ring : Nat
  index : Nat
  entry : List DWord
  desc : List DWord := []          -- header and dimension records as read
  pos : Nat := 0                   -- units moved: elements, or bytes of two 4-bit elements
  tiles : Nat := 0                 -- tiles delivered
  buf : List Byte := []            -- bytes of the tile in progress
  filling : Option Nat := none     -- tile being filled
  complete : Bool := false
  waits : Option (Nat × Bool) := none    -- address that waits for its page, and whether it is the destination (R333)
  onLog : Bool := false                  -- the page it waits for is logged on its core (R243, R333)
  wild : List (Nat × Nat) := []    -- source bytes not released before the publication (R318)
  bad : Bool := false              -- entry or descriptor changed too early (R319)
  badMap : Bool := false           -- its bitmap was written too early (R334)
  given : List Nat := []           -- ring positions of the tiles delivered
  spoilt : Bool := false           -- what it had written when it went bad is unpredictable (R319)
  mapSpoilt : Bool := false        -- so are the bits of its bitmap (R334)
  deriving DecidableEq, Repr

/-- How far a packet has come. -/
inductive PacketSt where
  | waiting       -- to be sent from where it is
  | flying
  | arrived       -- at its receiver, not yet in effect
  | refused       -- refused by the receiver, to be sent again (R173)
  deriving DecidableEq, Repr

/-- A fabric packet (R374 to R378). -/
structure Packet where
  id : Nat
  fab : Nat
  src : Nat                        -- sending island
  dst : Nat
  via : Option Nat := none         -- the relay island of its route, once sent
  at_ : Nat                        -- the island it is at, or has left
  resp : Bool := false             -- get data or an atomic's result on its way back
  seq : Option Nat := none         -- stream number (R386)
  off : Nat := 0                   -- first byte of the operation it carries
  len : Nat := 0
  data : List Byte := []           -- what a response carries
  st : PacketSt := .waiting
  sentAt : Nat := 0
  tries : Nat := 0
  acked : Bool := false            -- the receiving port's acknowledgement has reached the source
  noted : Bool := false            -- its repetition has been logged (R433)
  plane : Nat := 0                 -- the plane it last left on
  die : Nat := 0                   -- the die that sends it
  incar : Nat := 0                 -- incarnation of that die as it was sent (R430)
  deriving DecidableEq, Repr

/-- One grain's worth of bytes in an inbound log (R248). -/
structure Inbound where
  fab : Nat
  isl : Nat                        -- the destination
  launch : Nat
  va : Nat
  bytes : List Byte
  red : Bool := false              -- an element of RRED
  page : Nat
  size : Nat
  deriving DecidableEq, Repr

/-- What an arrival brings to a barrier object (R296). -/
inductive ArrKind where
  | gang                                 -- a gang completion (R394)
  | landed (bytes : Nat) (mem : Bool)    -- bytes of a get
  | ack (isl bytes : Nat)                -- a put's acknowledgement from an island
  deriving DecidableEq, Repr

/-- An arrival addressed to a team's barrier object, or a count that names none. -/
structure Arrival where
  id : Nat
  launch : Nat
  team : Nat
  addr : Nat                             -- 0xFFFFFFFF for none
  kind : ArrKind
  fab : Nat := 0                         -- the fabric operation it counts for
  refused : Bool := false
  deriving DecidableEq, Repr

/-- A GBARV waiting to leave its core (R394). -/
structure GangArr where
  id : Nat
  launch : Nat
  team : Nat
  gnum : Nat
  addr : Nat
  before : Nat                            -- operations older than this must be done
  deriving DecidableEq, Repr

/-- An entry of the wait-for table (R312). -/
inductive WaitOn where
  | bar (addr : Nat) (remote : Bool) (phase : Nat)
  | range (id : Nat)
  | open_ (op : Nat)
  | retire
  deriving DecidableEq, Repr

/-- A wait-for entry with when it was first found stuck (R313, R314). -/
structure WaitEntry where
  launch : Nat
  team : Nat
  gnum : Nat
  on : WaitOn
  stuckAt : Option Nat := none
  mark : Nat := 0                         -- operations applied to the object when last walked
  deriving DecidableEq, Repr

/-- An armed watch entry (R415). -/
structure Watch where
  addr : Nat
  mask : DWord
  ref : DWord
  cmp : Nat
  w64 : Bool
  queue : Nat
  deriving DecidableEq, Repr

/-- Boot states (R429). -/
inductive Boot where
  | reset | selftest | image | pair | panel | joined | fenced
  deriving DecidableEq, Repr

/-- Lease states (R422). -/
inductive LeaseSt where
  | follower | elect | leader | out
  deriving DecidableEq, Repr

/-- A die's part in the lease (R422, R423). -/
structure Lease where
  st : LeaseSt := .out
  term : Nat := 0                         -- 32 bits
  claimed : Nat := 0                      -- the slot of its last claim (R422)
  heard : Nat := 0                        -- when the last renewal was heard
  sent : Nat := 0                         -- when the last renewal was sent
  timer : Nat := 0                        -- when the election timer expires
  ceiling : Nat := 0                      -- highest ceiling heard
  ackedCeiling : Nat := 0                 -- ceiling acknowledged by every joined die
  next : Nat := 1                         -- next launch number (leader)
  hearers : List Nat := []                -- dies that have heard the latest renewal
  acks : List Nat := []                   -- dies whose acknowledgement of it has reached the leader
  deriving DecidableEq, Repr

/-- A die. -/
structure Die where
  boot : Boot := .reset
  bootSince : Nat := 0                    -- when it entered its boot state
  imageFails : Nat := 0
  partnerFails : Nat := 0
  reportFails : Nat := 0
  incar : Nat := 0
  counter : Nat := 0
  counterOn : Bool := false
  trim : Int := 0                         -- ticks still to be stretched, or made up, since the last slot mark (R156)
  measured : Nat := 0                     -- when its offsets were last measured (R156)
  clk : Nat := 0                          -- core clock cycles that have passed, in tenths (R5, R432)
  fencedAt : Nat := 0
  toff : List DWord := []
  bl : List Word := List.replicate 36 0xFFFFFFFF
  lease : Lease := {}
  sag : Bool := false
  sagSince : Nat := 0
  brole : List Brole := List.replicate 32 {}
  blocks : List Block := []
  predictor : Cells (BitVec 4) := []      -- 4096 * bank + entry: pin bit and k (R268)
  engineTlb : List Cached := []
  walker : List (Nat × Nat × DWord) := [] -- launch, table address of a pointer entry, entry
  obuf : List (Nat × Cells Byte) := []    -- per launch: operand-buffer bytes (R261)
  inbound : List Inbound := []            -- the first inbound log
  inbound2 : List Inbound := []
  faultQ : List Record := []
  faultWait : List Record := []
  lastWalk : Nat := 0
  waits : List WaitEntry := []
  watch : List Watch := []
  linkHalf : Bool := false
  bankCmd : List (Nat × Nat × Nat × Nat) := []  -- accepted BANKROLE: queue, mask, role, quota
  deriving DecidableEq, Repr

/-- Link states (R392). -/
inductive LinkSt where
  | pam4 | step | two | probe | req | retrain | down
  deriving DecidableEq, Repr

/-- A receiver's link on a plane (R391, R392). -/
structure Link where
  st : LinkSt := .pam4
  since : Nat := 0
  was : LinkSt := .pam4                   -- the mode kept while in REQ
  requests : Nat := 0                     -- deferrals since the last retrain
  deferred : Nat := 0                     -- when the last deferral runs out, 0 for none
  tests : Nat := 0
  deriving DecidableEq, Repr

/-- Phases of a launch (R27). -/
inductive Phase where
  | accepted | waiting | placed | retiring | over
  deriving DecidableEq, Repr

/-- A launch (R406 to R414). -/
structure Launch where
  num : Nat
  queue : Nat
  pkt : Nat := 0                          -- index of its packet in the queue
  prio : Nat := 0
  deadline : Nat := 0                     -- DLREL
  acceptedAt : Nat := 0
  placedAt : Nat := 0
  debug : Bool := false
  serial : Bool := false
  block : List DWord := []                -- B0 to B15 as read at acceptance
  ext : Nat × Nat × Nat := (0, 0, 0)
  cores : List Nat := []                  -- core list, bits [12:0]
  phase : Phase := .accepted
  pos : Nat := 0                          -- dispenser position, orders 0 to 2
  counts : List Nat := []                 -- static order: requests of each team
  exhausted : Bool := false
  roots : List Nat := []                  -- island table roots, 2n+d
  pool : List (Nat × Nat) := []           -- frame pool: base, length, 2n+d
  used : List (Nat × Nat) := []           -- frames taken: base, size
  traps : Nat := 0
  tovf : Nat := 0
  async : Bool := false
  npre : Nat := 0
  late : Bool := false
  tstart : Nat := 0
  held : Bool := false                    -- held saved, by PREEMPT or a debug stop
  victim : Bool := false                  -- policy pre-empts it (R420)
  stopping : Bool := false
  kept : Bool := false                    -- stop with debug bit 1
  first : Option Record := none           -- first stopping record
  gangArr : List (List Nat) := []         -- per team: barrier named by each arrival not yet completed
  gangGen : Nat := 0
  reason : Nat := 0                       -- refusal (R409)
  notMapped : List (Nat × Nat) := []      -- pages of which a core has had its one record: core, page (R244)
  deriving DecidableEq, Repr

/-- Where the command engine stands in a queue (R402, R418). -/
structure Queue where
  q : Nat
  next : Nat := 0                         -- index of the packet to take
  stack : List (Nat × Nat × Nat) := []    -- open structures: 0 LOOP / 1 IF / 2 IF after ELSE, start index, turns left
  skip : Nat := 0                         -- nesting depth of packets being skipped
  stalled : Bool := false                 -- a WAIT is armed, or a transfer runs
  busy : Option Nat := none               -- a packet in progress at this index
  deriving DecidableEq, Repr

/-- The instructions that end a clause in a thread state other than RUN (R104). -/
inductive ClauseFin where
  | yield | wsync | exit
  deriving DecidableEq, Repr

/-- A clause on a lane (R99 to R105). -/
structure Lane where
  core : Nat
  launch : Nat
  team : Nat
  gnum : Nat
  claddr : Nat
  wait : Nat := 0
  seta : Nat := 15
  setb : Nat := 15
  words : List Word := []
  lits : List Word := []
  idx : Nat := 0
  issuing : Word := 0
  llSeen : Nat := 0
  newPc : List (Nat × Nat) := []          -- thread, branch target
  fin : Option ClauseFin := none          -- the clause ended in YIELD, WSYNC or EXIT
  masks : List (Nat × Word) := []         -- WSYNC masks by thread
  trap : Option (Nat × Nat) := none       -- pending trap: code, argument (R161)
  rbacq : Nat := 0
  bwait : Option (Nat × LocalKind) := none   -- BWAIT or BSYNC: local address and wait, taken at the end
  stalled : Bool := false                 -- BTEST waits in the lane (R304)
  wide : Word := 0                        -- tiles whose EW was 64 when the clause issued (R362)
  deriving DecidableEq, Repr

/-- A choice of the schedule: which agent acts next, or how much time passes (log 2, log 3). -/
inductive Choice where
  | event (i : Instr) (subj : List Nat)
  | lane (k : Nat)                        -- bring the k-th clause in execution to the front
  | tick (ns : Nat)
  deriving DecidableEq, Repr

/-- The machine. -/
structure State where
  islMask : BitVec 30
  dieMask : BitVec 60
  now : Nat
  fabricTime : Nat
  slot : Nat                              -- the fabric slot last begun (R372)
  dies : List Die
  mem : Cells Byte
  cores : List Core
  launches : List Launch
  teams : List Team
  groups : List Group
  lanes : List Lane
  ops : List Op
  fills : List Fill
  ranges : List Range
  contribs : List Contrib
  mmas : List Mma
  copies : List Copy
  fabs : List FabOp
  packets : List Packet
  arrivals : List Arrival
  gangQ : List GangArr
  mapReqs : List MapReq
  notices : List Notice
  shoots : List Shoot
  changes : List Change
  topo : List Word
  links : List Link
  blackout : List Bool
  queues : List Queue
  attest : Nat
  mailboxMoved : Bool
  retired : List (Nat × Nat)              -- frames that never return to a pool: base, size (R434)
  hostData : List Byte                    -- bytes and status of the last host read (R425)
  nextId : Nat                            -- next identity for objects in flight
  freeCtr : Nat                           -- draws of free values (log 4)
  subj : List Nat                         -- the object the engine step being taken acts on
  sched : List Choice
  deriving DecidableEq, Repr

/-- Why the model's machine cannot take a step. Instruction faults of the manual are next states, not these. -/
inductive Fault where
  | noLane                        -- an instruction word was given while no clause is in execution; safe
  deriving DecidableEq, Repr

/-- What the model has no meaning for. -/
inductive Refusal where
  | notModelled (mnemonic : String)   -- raised by an arm of exec that has no meaning; safe
  deriving DecidableEq, Repr

/-- The offset of a die that is clear in DIEMASK (R156). -/
def toffAbsent : DWord := 0x8000000000000000

/-- A die at reset: RESET, counter stopped, lease OUT until it joins (R429, R156, R422). (DESIGN CHOICE, log 10) -/
def Die.reset (d : Nat) : Die :=
  { toff := (List.range 60).map (fun m => if m = d then 0 else toffAbsent) }

/-- The panel right after power good, before any die has booted (R429). Values the manual does not give: log 1, log 10. -/
def State.reset : State where
  islMask := BitVec.allOnes 30
  dieMask := 0
  now := 0
  fabricTime := 0
  slot := 0
  dies := (List.range 60).map Die.reset
  mem := []
  cores := []
  launches := []
  teams := []
  groups := []
  lanes := []
  ops := []
  fills := []
  ranges := []
  contribs := []
  mmas := []
  copies := []
  fabs := []
  packets := []
  arrivals := []
  gangQ := []
  mapReqs := []
  notices := []
  shoots := []
  changes := []
  topo := List.replicate 900 0
  links := List.replicate 960 {}
  blackout := List.replicate 32 false
  queues := []
  attest := 0
  mailboxMoved := false
  retired := []
  hostData := []
  nextId := 1
  freeCtr := 0
  subj := []
  sched := []

end Sys2Proof.Machine
end

