-- ==== Sys2Proof/Machine/Ops.lean ====
section
/-!
DEFINITION. Ops.lean: the named operations over the state that the engines share: finding and replacing its objects,
registers, raising a fault (R45, R131, R164, R165) and resuming from one (R169), invalidation of an L1, free values.
-/
namespace Sys2Proof.Machine

/-- What a meaning answers. -/
abbrev Out := Host.Outcome State Fault Refusal

/-- Fault codes (R163). -/
def Code.illop : Nat := 0x0001
def Code.illreg : Nat := 0x0002
def Code.illhdr : Nat := 0x0003
def Code.regfault : Nat := 0x0004
def Code.fetchFault : Nat := 0x0005
def Code.wsyncCycle : Nat := 0x0006
def Code.userTrap : Nat := 0x0007
def Code.brk : Nat := 0x0008
def Code.accessFault : Nat := 0x0010
def Code.pageMode : Nat := 0x0011
def Code.alignFault : Nat := 0x0012
def Code.localRange : Nat := 0x0013
def Code.addrRange : Nat := 0x0014
def Code.dieAbsent : Nat := 0x0015
def Code.islandAbsent : Nat := 0x0016
def Code.notMapped : Nat := 0x0017
def Code.accSeq : Nat := 0x0020
def Code.accFormat : Nat := 0x0021
def Code.tileState : Nat := 0x0030
def Code.barInval : Nat := 0x0040
def Code.barTimeout : Nat := 0x0041
def Code.waitCycle : Nat := 0x0042
def Code.waitOrphan : Nat := 0x0043
def Code.copyFault : Nat := 0x0050
def Code.fabricFault : Nat := 0x0060
def Code.machineCheck : Nat := 0x0070
def Code.restoreCapacity : Nat := 0x0071
def Code.restoreFormat : Nat := 0x0072

/-- Class codes (R162). -/
def Cls.instr : Nat := 0
def Cls.issue : Nat := 1
def Cls.end_ : Nat := 2
def Cls.wait : Nat := 3
def Cls.defer : Nat := 4
def Cls.async : Nat := 5
def Cls.launch : Nat := 6

/-! ### Lists of objects -/

/-- Change the members that satisfy `p`. -/
def updWhere {α : Type} (p : α → Bool) (f : α → α) (l : List α) : List α := l.map (fun x => if p x then f x else x)

/-- Replace the n-th member. -/
def setNth {α : Type} : List α → Nat → α → List α
  | [], _, _ => []
  | _ :: l, 0, v => v :: l
  | x :: l, n + 1, v => x :: setNth l n v

/-- The group (L, T, G). -/
def State.group? (s : State) (L T G : Nat) : Option Group :=
  s.groups.find? (fun g => g.launch == L && g.team == T && g.gnum == G)

/-- Write a group back. -/
def State.setGroup (s : State) (g : Group) : State :=
  { s with groups := updWhere (fun h => h.launch == g.launch && h.team == g.team && h.gnum == g.gnum) (fun _ => g) s.groups }

/-- Change the group (L, T, G). -/
def State.modGroup (s : State) (L T G : Nat) (f : Group → Group) : State :=
  { s with groups := updWhere (fun h => h.launch == L && h.team == T && h.gnum == G) f s.groups }

/-- The team (L, T). -/
def State.team? (s : State) (L T : Nat) : Option Team := s.teams.find? (fun t => t.launch == L && t.idx == T)

/-- Change the team (L, T). -/
def State.modTeam (s : State) (L T : Nat) (f : Team → Team) : State :=
  { s with teams := updWhere (fun t => t.launch == L && t.idx == T) f s.teams }

/-- The launch numbered L. -/
def State.launch? (s : State) (L : Nat) : Option Launch := s.launches.find? (fun x => x.num == L)

/-- Change the launch numbered L. -/
def State.modLaunch (s : State) (L : Nat) (f : Launch → Launch) : State :=
  { s with launches := updWhere (fun x => x.num == L) f s.launches }

/-- The core with this CORE value; one that nothing has touched is as at reset. -/
def State.core (s : State) (c : Nat) : Core := (s.cores.find? (fun k => k.id == c)).getD { id := c }

/-- Write a core back. -/
def State.setCore (s : State) (k : Core) : State :=
  if s.cores.any (fun h => h.id == k.id) then { s with cores := updWhere (fun h => h.id == k.id) (fun _ => k) s.cores }
  else { s with cores := s.cores ++ [k] }

/-- Change core c. -/
def State.modCore (s : State) (c : Nat) (f : Core → Core) : State := s.setCore (f (s.core c))

/-- Die d. -/
def State.die (s : State) (d : Nat) : Die := s.dies.getD d {}

/-- Change die d. -/
def State.modDie (s : State) (d : Nat) (f : Die → Die) : State := { s with dies := setNth s.dies d (f (s.die d)) }

/-- The operation with this id. -/
def State.op? (s : State) (i : Nat) : Option Op := s.ops.find? (fun o => o.id == i)

/-- Change the operation with this id. -/
def State.modOp (s : State) (i : Nat) (f : Op → Op) : State := { s with ops := updWhere (fun o => o.id == i) f s.ops }

/-- Change one access of an operation. -/
def State.modAcc (s : State) (i a : Nat) (f : Access → Access) : State :=
  s.modOp i (fun o => { o with accs := updWhere (fun x => x.id == a) f o.accs })

/-- A fresh identity. -/
def State.fresh (s : State) : Nat × State := (s.nextId, { s with nextId := s.nextId + 1 })

/-- The n-th subject of the engine step being taken. -/
def State.sub (s : State) (n : Nat) : Nat := s.subj.getD n 0

/-! ### Places -/

/-- Die index 2n+d of a core (R155). -/
def dieOfCore (c : Nat) : Nat := c / 128 % 64

/-- Island of a die index. -/
def islOfDie (d : Nat) : Nat := d / 2

/-- Die index that physical address bits [52:47] name (R12); scratch locations keep the same bits (log 7). -/
def dieOfPa (pa : Nat) : Nat := pa / 2 ^ 47 % 64

/-- A scratch location (log 7): launch and byte of its reservation on die d. -/
def scratchLoc (launch d o : Nat) : Nat := 2 ^ 60 * (launch + 1) + 2 ^ 47 * d + o

/-- The address is a scratch location. (DESIGN CHOICE, log 7) -/
def isScratch (pa : Nat) : Bool := decide (2 ^ 60 ≤ pa)

/-- Die d is present and joined (R10). -/
def State.diePresent (s : State) (d : Nat) : Bool := s.dieMask.getLsbD d

/-- The fault of reaching die d, if it is absent (R10, R12). -/
def State.absentCode (s : State) (d : Nat) : Option Nat :=
  if 60 ≤ d then some Code.islandAbsent
  else if s.diePresent d then none
  else if s.diePresent (2 * (d / 2)) || s.diePresent (2 * (d / 2) + 1) then some Code.dieAbsent
  else some Code.islandAbsent

/-- A die's time counter (R156). (DEDUCED, log 39) -/
def State.timeOf (s : State) (d : Nat) : Nat := (s.die d).counter

/-! ### Threads -/

/-- The thread numbers of a mask, ascending. -/
def threadsOf (m : Word) : List Nat := (List.range 32).filter (fun i => m.getLsbD i)

/-- The mask of a list of threads. -/
def maskOf (l : List Nat) : Word := l.foldl (fun m i => m ||| (1#32 <<< i)) 0

/-- The lowest-numbered issuing thread. -/
def Lane.lowest (l : Lane) : Nat := (threadsOf l.issuing).headD 0

/-- The threads the pseudocode runs for: all issuing threads, or with U the lowest (R8). -/
def Lane.execThreads (l : Lane) (u : Bool) : List Nat := if u then [l.lowest] else threadsOf l.issuing

/-- The group of a lane. -/
def State.laneGroup? (s : State) (l : Lane) : Option Group := s.group? l.launch l.team l.gnum

/-- Group slot on the core: names the group's last-page registers (R234). -/
def groupSlot (t : Team) (gnum : Nat) : Nat := 64 * t.slot + gnum

/-! ### Free values -/

/-- An unpredictable value for key k at this moment (R2, log 4). -/
def State.free (s : State) (k : Nat) : DWord := Config.unpred s.freeCtr k

/-- Unpredictable bytes. (DESIGN CHOICE, log 4) -/
def State.freeBytes (s : State) (k n : Nat) : List Byte :=
  (List.range n).map (fun i => (s.free (k + 4096 * (i + 1))).setWidth 8)

/-- Move on to fresh free values. (DESIGN CHOICE, log 4) -/
def State.redraw (s : State) : State := { s with freeCtr := s.freeCtr + 1 }

/-! ### Registers -/

/-- Operation `o` has register r of thread t as a destination it has not written yet (R101). (DEDUCED, log 15) -/
def Op.writes (o : Op) (r t : Nat) : Bool :=
  match o.dst with
  | none => false
  | some (b, n) => decide (b ≤ r) && decide (r < b + n) && decide (r < o.limit) && o.mask.getLsbD t

/-- Register r (absolute) of thread t, read for operand `k` of an instruction. Read before the flag of an operation that
writes it is set, it is an unpredictable value (R101), which two operands that read it need not agree on (R2). -/
def State.reg (s : State) (g : Group) (r t k : Nat) : Word :=
  if s.ops.any (fun o => o.launch == g.launch && o.team == g.team && o.gnum == g.gnum && o.writes r t)
  then (s.free (32 * r + t + 2 ^ 16 * k)).setWidth 32
  else Cells.get 0 g.regs (32 * r + t)

/-- Little-endian bytes of a number. -/
def bytesOf (n : Nat) : Nat → List Byte
  | 0 => []
  | k + 1 => BitVec.ofNat 8 n :: bytesOf (n / 256) k

/-- The number that little-endian bytes form. -/
def numOf : List Byte → Nat
  | [] => 0
  | b :: bs => b.toNat + 256 * numOf bs

/-- Operation `o` has still to read source register r of thread t. (DEDUCED, log 15) -/
def Op.reads (o : Op) (r t : Nat) : Bool :=
  o.srcs.any (fun x => decide (x.1 ≤ r) && decide (r < x.1 + x.2)) && decide (r < o.limit) && o.mask.getLsbD t

/-- Bytes that an entry writes at one of its parts: ACCZERO's parts carry none until they are spoiled (R288). -/
def Store.partLen (e : Store) (p : Nat × List Byte) : Nat :=
  match e.kind with
  | .zero n => n
  | _ => p.2.length

/-- An entry whose bytes have become unpredictable (R101). (DEDUCED, log 15) -/
def Store.spoil (s : State) (e : Store) : Store :=
  { e with parts := e.parts.map (fun p => (p.1, s.freeBytes (e.id + p.1) (e.partLen p))) }

/-- What a source register written too early costs a group's stores of that operation. (DEDUCED, log 15) -/
def Group.spoil (s : State) (o : Op) (g : Group) : Group :=
  { g with
    sq := updWhere (fun e => e.op == o.id) (Store.spoil s) g.sq
    stream := g.stream.map (fun e => match e.kind with
      | .store p a b => if p == o.id then { e with kind := .store p a (s.freeBytes e.id b.length) } else e
      | _ => e) }

/-- What it costs a core's logs and path. -/
def Core.spoil (s : State) (o : Op) (k : Core) : Core :=
  { k with
    sideLog := updWhere (fun e => e.op == o.id) (fun e => { e with bytes := s.freeBytes (e.op + e.va) e.bytes.length }) k.sideLog
    path := k.path.map (fun x => if x.op == o.id && !x.applied then { x with store := x.store.map (Store.spoil s) } else x) }

/-- What a source register written too early costs: each byte the operation writes is unpredictable (R101), those that
have performed as the step ends (`spoilWritten`). (DEDUCED, log 15) -/
def State.taint (s : State) (o : Op) : State :=
  let bad := fun (a : Access) => { a with unpred := true, data := s.freeBytes a.id a.data.length, wrote := a.data }
  let s1 := (s.modOp o.id (fun x => { x with
    accs := x.accs.map bad, srcs := [], tainted := true, due := true })).modGroup o.launch o.team o.gnum (Group.spoil s o)
  { s1 with
    contribs := updWhere (fun c => c.op == o.id)
      (fun c => { c with bad := true, elems := c.elems.map (fun e => (e.1, e.2.1, true)) }) s1.contribs
    cores := s1.cores.map (Core.spoil s o) }

/-- One register write: thread, absolute register, value. -/
abbrev RegWrite := Nat × Nat × Word

/-- Write registers of the group (L, T, G). -/
def State.putRegs (s : State) (L T G : Nat) (ws : List RegWrite) : State :=
  let hit := s.ops.filter (fun o => o.launch == L && o.team == T && o.gnum == G && ws.any (fun w => o.reads w.2.1 w.1))
  let s1 := hit.foldl (fun s o => s.taint o) s
  s1.modGroup L T G (fun g =>
    { g with regs := ws.foldl (fun m w => Cells.set 0 m (32 * w.2.1 + w.1) w.2.2) g.regs })

/-! ### Faults -/

/-- A fault an instruction raises: code, the address or target it names, the thread (R164, R165). -/
structure Trap where
  code : Nat
  addr : Nat := 0
  thread : Nat := 0
  deriving DecidableEq, Repr

/-- Hand a record to the fault queue of die d: it waits until the queue takes it (R167). -/
def State.handRecord (s : State) (d : Nat) (r : Record) : State :=
  s.modDie d (fun x => { x with faultWait := x.faultWait ++ [r] })

/-- The assigned long-latency instructions at and after the current one: the flags whose increments a fault withdraws
(R19, R45). -/
def Lane.owedFlags (l : Lane) : List Nat :=
  let rest := (l.words.drop l.idx).filter (fun w => (decodeWord w).isLL)
  ((List.range rest.length).map (fun k => if l.llSeen + k = 0 then l.seta else if l.llSeen + k = 1 then l.setb else 15)).filter
    (fun f => decide (f < 12))

/-- Add n to (or with `sub` take n from) the pending count of flag f. -/
def Group.bumpFlag (g : Group) (f n : Nat) (sub : Bool) : Group :=
  { g with fcnt := setNth g.fcnt f (if sub then g.fcnt.getD f 0 - n else g.fcnt.getD f 0 + n) }

/-- PTRAP and PARG of a record that carries a clause's pending trap (R161, R165). -/
def Lane.pending (l : Lane) : Nat × Nat :=
  match l.trap with
  | none => (0, 0)
  | some (c, n) => (if c = Code.userTrap then 1 else 2, n)

/-- The record of a fault of this lane's clause (R165). -/
def State.laneRecord (s : State) (l : Lane) (code cls index addr thread : Nat) (detail : Word) : Record :=
  { code := code, cls := cls, launch := l.launch, team := l.team, gnum := l.gnum
    slot := ((s.team? l.launch l.team).map (·.slot)).getD 0
    issuing := l.issuing, index := index, claddr := l.claddr, addr := addr, thread := thread
    gtag := ((s.laneGroup? l).map (·.gtag)).getD 0
    detail := detail, core := l.core, time := s.timeOf (dieOfCore l.core)
    ptrap := l.pending.1, parg := l.pending.2 }

/-- A team halting for pre-emption starts to drain once its last clause has ended (R175). -/
def State.quiesce (s : State) (L T : Nat) : State :=
  if s.lanes.any (fun l => l.launch == L && l.team == T) then s
  else s.modTeam L T (fun t => if t.ctx = .halting then { t with ctx := .draining } else t)

/-- Take an instruction fault (R45, R131, R164): the clause stops here, the PCs and thread states stay at the clause,
the increments owed by this and later instructions are withdrawn, the group halts and its record goes to the die. -/
def State.raiseInstr (s : State) (l : Lane) (t : Trap) : State :=
  let r := s.laneRecord l t.code Cls.instr l.idx t.addr t.thread (l.words.getD l.idx 0)
  let s1 := s.modGroup l.launch l.team l.gnum (fun g =>
    l.owedFlags.foldl (fun g f => g.bumpFlag f 1 true) { g with halt := .faulted, readySince := none })
  { s1.handRecord (dieOfCore l.core) r with lanes := s.lanes.tail, freeCtr := s.freeCtr + 1 }.quiesce l.launch l.team

/-- Raise a fault of a group that has no clause in execution (classes WAIT and DEFER; R162), naming the clause concerned
and its Issuing() mask (R165). -/
def State.raiseGroup (s : State) (g : Group) (code cls addr : Nat) (detail : Word) (claddr : Nat) (issuing : Word)
    (thread : Nat) (ext : List (Nat × Nat × Nat × Nat × Word)) : State :=
  let t := s.team? g.launch g.team
  let c := (t.map (·.core)).getD 0
  let r : Record :=
    { code := code, cls := cls, launch := g.launch, team := g.team, gnum := g.gnum, slot := (t.map (·.slot)).getD 0
      issuing := issuing, claddr := claddr, addr := addr, thread := thread, gtag := g.gtag, detail := detail, core := c
      time := s.timeOf (dieOfCore c), ext := ext }
  (s.modGroup g.launch g.team g.gnum (fun h => { h with halt := .faulted, wait := .none, readySince := none })).handRecord
    (dieOfCore c) r

/-- Release a waiting group with a fault of class WAIT (R162). -/
def State.raiseWait (s : State) (g : Group) (code addr : Nat) (detail : Word)
    (ext : List (Nat × Nat × Nat × Nat × Word)) : State :=
  s.raiseGroup g code Cls.wait addr detail g.wclause g.wmask 0 ext

/-- Raise a record against a launch: class ASYNC or LAUNCH, no group halts (R162, R167). -/
def State.raiseLaunch (s : State) (L T code cls addr : Nat) (detail : Word) : State :=
  let c := ((s.team? L T).map (·.core)).getD 0
  s.handRecord (dieOfCore c)
    { code := code, cls := cls, launch := L, team := T, slot := ((s.team? L T).map (·.slot)).getD 0, addr := addr
      detail := detail, core := c, time := s.timeOf (dieOfCore c) }

/-- Resume a group after a fault (R169): LASTF takes the record's CODE and ARG, and the group goes on from its records
as they stand. -/
def State.resumeGroup (s : State) (r : Record) : State :=
  s.modGroup r.launch r.team r.gnum (fun g =>
    { g with halt := .none, lastf := BitVec.ofNat 32 (r.arg % 128 * 65536 + r.code % 65536) })

/-! ### Clauses -/

/-- The lane goes on to its next instruction, counting the long-latency ones (R46). -/
def State.advance (s : State) : State :=
  match s.lanes with
  | [] => s
  | l :: ls =>
    let ll := if (decodeWord (l.words.getD l.idx 0)).isLL then 1 else 0
    { s with lanes := { l with idx := l.idx + 1, llSeen := l.llSeen + ll } :: ls, freeCtr := s.freeCtr + 1 }

/-- Change the lane in front. -/
def State.modLane (s : State) (f : Lane → Lane) : State :=
  match s.lanes with
  | [] => s
  | l :: ls => { s with lanes := f l :: ls }

/-! ### Register blocks -/

/-- A field of a launch block (R407): bits [lo+n-1:lo] of word b. -/
def Launch.bits (x : Launch) (b lo n : Nat) : Nat := (x.block.getD b 0).toNat / 2 ^ lo % 2 ^ n

/-- Blocks held by all roles of a team. -/
def Team.heldSum (t : Team) : Nat := t.held.foldl (· + ·) 0

/-- The team's free blocks, T minus the sum of H (R120, R158). -/
def Team.free (t : Team) : Nat := t.t - t.heldSum

/-- n blocks of a role return to the team; where the core's emergency block is lent to it, one of them returns to the
core (R121, R122). -/
def State.returnBlocks (s : State) (L T role n : Nat) : State :=
  match s.team? L T with
  | none => s
  | some t =>
    let back := t.emlent && decide (0 < n)
    let s1 := s.modTeam L T (fun t =>
      { t with held := setNth t.held role (t.held.getD role 0 - n), emlent := t.emlent && !back })
    if back then
      { s1.modCore t.core (fun k => { k with emLent := false }) with
        groups := updWhere (fun g => g.launch == L && g.team == T) (fun g => { g with emrg := false }) s1.groups }
    else s1

/-- PREF and CSPAN, which are no long-latency instructions (R217, R292). -/
def OpKind.hint : OpKind → Bool
  | .pref => true
  | .prefRind => true
  | .cspan _ _ => true
  | _ => false

/-- Long-latency operations of a group that are not finished. -/
def State.opsOf (s : State) (L T G : Nat) : List Op :=
  s.ops.filter (fun o => o.launch == L && o.team == T && o.gnum == G && !o.kind.hint)

/-- Returns of released blocks that every earlier operation of the group has finished with (R122), and of all blocks
of an exited group (R112). -/
def State.settleBlocks (s : State) (L T G : Nat) : State :=
  match s.group? L T G with
  | none => s
  | some g =>
    let busy := fun (b : Nat) => (s.opsOf L T G).any (fun o => decide (o.id < b))
    let due := g.released.filter (fun r => !busy r.before)
    let n := (due.map (·.n)).foldl (· + ·) 0
    let whole := if g.exited && (s.opsOf L T G).isEmpty then g.nblk else 0
    if n + whole = 0 then s
    else
      (s.modGroup L T G (fun g => { g with
        released := g.released.filter (fun r => busy r.before)
        nblk := g.nblk - whole
        regs := if 0 < whole then [] else g.regs })).returnBlocks L T g.role (n + whole)

/-! ### Local store -/

/-- Fields of a local address (R194): the team it names and the offset, or the fault. -/
def State.localTarget (s : State) (t : Team) (a len : Nat) : Option (Team × Nat) :=
  if a / 2 ^ 20 ≠ 0 then none
  else
    let off := a % 2 ^ 19
    let who := if a / 2 ^ 19 % 2 = 1 then t.partner.bind (fun p => s.team? t.launch p) else some t
    match who with
    | none => none
    | some w => if off + len ≤ 256 * w.nloc then some (w, off) else none

/-- Bytes of a team's local store. -/
def Team.read (t : Team) (off n : Nat) : List Byte := (List.range n).map (fun i => Cells.get 0 t.loc (off + i))

/-- A number in a team's local store. -/
def Team.readNum (t : Team) (off n : Nat) : Nat := numOf (t.read off n)

/-- Write bytes of a team's local store. -/
def Team.write (t : Team) (off : Nat) (bs : List Byte) : Team :=
  { t with loc := (bs.zipIdx).foldl (fun m x => Cells.set 0 m (off + x.2) x.1) t.loc }

end Sys2Proof.Machine
end

