-- ==== Sys2Proof/Machine/Operands.lean ====
section
/-!
DEFINITION. Operands.lean: every operand form (R36 to R42), the checks of R45 steps 1 to 5, and the shapes that the
meanings of instruction words share: run one word of the lane in front, and write its results to the threads of
Issuing() (R8, R132).
-/
namespace Sys2Proof.Machine

/-! ### Checks -/

/-- A source field of n registers is rejected (R36, R37, R38), with L literals in the clause. -/
def srcBad (L n : Nat) (c : BitVec 7) : Bool :=
  let k := c.toNat
  if k < 112 then decide (k % n ≠ 0)
  else if k = 112 then false
  else if k = 113 then decide (2 < n)
  else if 120 ≤ k ∧ k ≤ 126 then
    !(if n = 1 then decide (k - 120 < L) else if n = 2 then decide (k % 2 = 0) && decide (k - 120 + 1 < L) else false)
  else true

/-- A destination field of n registers, or one read and written, is rejected (R36, R37, R38). (DEDUCED, log 19) -/
def dstBad (n : Nat) (c : BitVec 7) : Bool :=
  let k := c.toNat
  if k < 112 then decide (k % n ≠ 0) else decide (k ≠ 112)

/-- The element width of a shape is 64 bits (R340). -/
def wideShape (shape : Word) : Bool := decide (shape.extractLsb' 18 2 = 2#2)

/-- The tiles of a team whose elements are 64 bits wide. -/
def Team.wideTiles (t : Team) : Word := maskOf ((List.range t.tiles.length).filter (fun k => wideShape (t.tiles.getD k {}).shape))

/-- Registers of a tile element operand (R362), given the tiles with 64-bit elements. -/
def eltRegs (wide : Word) (tile : BitVec 7) : Nat := if wide.getLsbD tile.toNat then 2 else 1

/-- Step 4 of R45 for one operand, by the shapes as the clause issued (R362). -/
def illregOperand (L : Nat) (wide : Word) : Operand → Bool
  | .src n c => srcBad L n c
  | .dst n c => dstBad n c
  | .rw n c => dstBad n c
  | .fetch3 c => decide (109 < c.toNat)
  | .tile c => decide (31 < c.toNat)
  | .ring c => decide (7 < c.toNat)
  | .slot c => decide (7 < c.toNat)
  | .srcElt tile c => srcBad L (eltRegs wide tile) c
  | .dstElt tile c => dstBad (eltRegs wide tile) c

/-- Registers from code c on that lie beyond the blocks held (R117). -/
def beyond (g : Group) (n : Nat) (c : BitVec 7) : Bool :=
  decide (c.toNat < 112) && decide (16 * g.nblk < 16 * g.wb + c.toNat + n)

/-- Step 5 of R45 for one operand, by the shapes as they are. -/
def regfaultOperand (g : Group) (wide : Word) : Operand → Bool
  | .src n c => beyond g n c
  | .dst n c => beyond g n c
  | .rw n c => beyond g n c
  | .fetch3 c => beyond g 3 c
  | .srcElt tile c => beyond g (eltRegs wide tile) c
  | .dstElt tile c => beyond g (eltRegs wide tile) c
  | _ => false

/-- Steps 1 to 5 of R45, in order, for the word at the lane's index. -/
def checkWord (i : Instr) (s : State) (l : Lane) (g : Group) : Option Trap :=
  let t := ((s.team? l.launch l.team).map Team.wideTiles).getD 0
  if !i.modOk then some { code := Code.illop, thread := l.lowest }
  else if i.isClauseEnd && decide (l.idx + 1 ≠ l.words.length) then some { code := Code.illop, thread := l.lowest }
  else if i.operands.any (illregOperand l.lits.length l.wide) then some { code := Code.illreg, thread := l.lowest }
  else if i.operands.any (regfaultOperand g t) then some { code := Code.regfault, thread := l.lowest }
  else none

/-! ### Reading operands -/

/-- One thread executing one instruction, with the operand it reads. -/
structure Thr where
  s : State
  l : Lane
  g : Group
  t : Nat
  pos : Nat := 0

/-- The thread as it reads its second, or third, operand: early reads of one register need not agree (R2). -/
def Thr.y (e : Thr) : Thr := { e with pos := 1 }
def Thr.z (e : Thr) : Thr := { e with pos := 2 }

/-- Register k of the window (R117). -/
def Thr.window (e : Thr) (k : Nat) : Word := e.s.reg e.g (16 * e.g.wb + k) e.t e.pos

/-- Literal k of the clause. -/
def Thr.literal (e : Thr) (k : Nat) : Word := e.l.lits.getD k 0

/-- A 32-bit source (R36). -/
def Thr.v32 (e : Thr) (c : BitVec 7) : Word :=
  let k := c.toNat
  if k < 112 then e.window k
  else if k = 113 then BitVec.ofNat 32 e.t
  else if 120 ≤ k then e.literal (k - 120)
  else 0

/-- A 64-bit source: a pair, low half first (R38). -/
def Thr.v64 (e : Thr) (c : BitVec 7) : DWord :=
  let k := c.toNat
  if k < 112 then (e.window (k + 1) ++ e.window k : BitVec 64)
  else if k = 113 then BitVec.ofNat 64 e.t
  else if 120 ≤ k then (e.literal (k - 119) ++ e.literal (k - 120) : BitVec 64)
  else 0

/-- n registers from code c on; `zr` reads zero (R38). -/
def Thr.vN (e : Thr) (n : Nat) (c : BitVec 7) : List Word :=
  if n = 1 then [e.v32 c]
  else if n = 2 then [(e.v64 c).setWidth 32, (e.v64 c).extractLsb' 32 32]
  else (List.range n).map (fun j => if c.toNat < 112 then e.window (c.toNat + j) else 0)

/-- A source of width w: a pair, or 32 bits zero-extended (R135). -/
def Thr.vw (e : Thr) (w : Bool) (c : BitVec 7) : DWord := if w then e.v64 c else (e.v32 c).setWidth 64

/-- A signed imm7 (R41). -/
def immS (b : BitVec 7) : DWord := b.signExtend 64

/-- An unsigned imm7 (R41). -/
def immU (b : BitVec 7) : DWord := b.setWidth 64

/-- The words of a result of width w. -/
def words (w : Bool) (x : DWord) : List Word := if w then [x.setWidth 32, x.extractLsb' 32 32] else [x.setWidth 32]

/-- The words of a 64-bit result. -/
def pair (x : DWord) : List Word := [x.setWidth 32, x.extractLsb' 32 32]

/-! ### Writing results -/

/-- What each thread of Issuing() receives: its own result, or with U that of the lowest-numbered thread (R8). -/
def Lane.results (l : Lane) (u : Bool) (f : Nat → List Word) : List (Nat × List Word) :=
  if u then (threadsOf l.issuing).map (fun t => (t, f l.lowest)) else (threadsOf l.issuing).map (fun t => (t, f t))

/-- The register writes of results to the registers from field d on; `zr` discards them (R36). -/
def writesAt (g : Group) (d : BitVec 7) (rs : List (Nat × List Word)) : List RegWrite :=
  if d.toNat < 112 then
    rs.flatMap (fun r => r.2.zipIdx.map (fun x => (r.1, 16 * g.wb + d.toNat + x.2, x.1)))
  else []

/-- Every thread's view for the threads of Issuing(). -/
def resultsOf (s : State) (l : Lane) (g : Group) (u : Bool) (f : Thr → List Word) : List (Nat × List Word) :=
  l.results u (fun t => f { s := s, l := l, g := g, t := t })

/-- Write each issuing thread's result: sources are read from `s` before any destination is written (R132). -/
def State.putResults (s : State) (l : Lane) (g : Group) (u : Bool) (d : BitVec 7) (f : Thr → List Word) : State :=
  s.putRegs l.launch l.team l.gnum (writesAt g d (resultsOf s l g u f))

/-! ### Running a word -/

/-- Run one instruction word of the clause in front: checks in the order of R45, then the instruction's own, then its
effect, then the next instruction. (DESIGN CHOICE, log 66) -/
def runWord (i : Instr) (own : State → Lane → Group → Option Trap) (body : State → Lane → Group → State) (s : State) :
    Out :=
  match s.lanes with
  | [] => .fault .noLane
  | l :: _ =>
    match s.laneGroup? l with
    | none => .fault .noLane
    | some g =>
      match checkWord i s l g with
      | some t => .next (s.raiseInstr l t)
      | none =>
        match own s l g with
        | some t => .next (s.raiseInstr l t)
        | none => .next (body s l g).advance

/-- No check of the instruction's own. -/
def noOwn (_ : State) (_ : Lane) (_ : Group) : Option Trap := none

/-- An instruction that computes each thread's destination from that thread's own sources (R134). -/
def alu (i : Instr) (u : Bool) (d : BitVec 7) (f : Thr → List Word) (s : State) : Out :=
  runWord i noOwn (fun s l g => s.putResults l g u d f) s

/-- The first thread for which a check fails, for the threads the instruction executes for; checks are tried in their
order over all threads (R164). -/
def firstFail (s : State) (l : Lane) (g : Group) (u : Bool) (checks : List (Thr → Option Trap)) : Option Trap :=
  checks.findSome? (fun c =>
    (l.execThreads u).findSome? (fun t =>
      (c { s := s, l := l, g := g, t := t }).map (fun x => { x with thread := t })))

/-- A check with a code and the address it names. -/
def failIf (bad : Thr → Bool) (code : Nat) (addr : Thr → Nat) : Thr → Option Trap :=
  fun e => if bad e then some { code := code, addr := addr e } else none

end Sys2Proof.Machine
end

