-- ==== Sys2Proof/Machine/Flags.lean ====
section
/-!
DEFINITION. Flags.lean: completion flags and their pending counts (R19 to R21, R116), and the header that uses them
(R32, R33).
-/
namespace Sys2Proof.Machine

/-- A clause header (R32). -/
structure Header where
  must0 : BitVec 3
  spin : Bool
  lits : Nat
  count : Nat
  setb : Nat
  seta : Nat
  wait : BitVec 12
  deriving DecidableEq, Repr

/-- The fields of a header word (R32). -/
def Header.ofWord (w : Word) : Header where
  must0 := w.extractLsb' 29 3
  spin := w.getLsbD 28
  lits := (w.extractLsb' 25 3).toNat
  count := (w.extractLsb' 20 5).toNat
  setb := (w.extractLsb' 16 4).toNat
  seta := (w.extractLsb' 12 4).toNat
  wait := w.extractLsb' 0 12

/-- A flag field names a flag or none (R33). -/
def flagFieldOk (f : Nat) : Bool := decide (f < 12) || decide (f = 15)

/-- The header raises no ILLHDR (R33). -/
def Header.ok (h : Header) : Bool :=
  decide (h.must0 = 0) && decide (1 ≤ h.count) && decide (h.count ≤ 24) && flagFieldOk h.seta && flagFieldOk h.setb

/-- Instruction words that a header announces, where its N is good (R33). -/
def Header.wordCount (h : Header) : Nat := if h.count ≤ 24 then h.count else 0

/-- Flag f is set: its pending count is 0 (R19). -/
def Group.flagSet (g : Group) (f : Nat) : Bool := decide (g.fcnt.getD f 0 = 0)

/-- FLAGS, special register 0x08 (R154): bit n is 1 while flag n is set. -/
def Group.flagsWord (g : Group) : Word :=
  maskOf ((List.range 12).filter (fun f => g.flagSet f))

/-- Every flag in the mask is set (R20). -/
def Group.waitOk (g : Group) (wait : BitVec 12) : Bool :=
  (List.range 12).all (fun f => !wait.getLsbD f || g.flagSet f)

/-- What a clause adds to the count of flag f: one for each of its first two LL instructions assigned to it (R19). -/
def flagIncrement (h : Header) (llCount f : Nat) : Nat :=
  (if 1 ≤ llCount ∧ h.seta = f then 1 else 0) + (if 2 ≤ llCount ∧ h.setb = f then 1 else 0)

/-- Issuing raises no count above 15 (R19, R113). -/
def Group.countsOk (g : Group) (h : Header) (llCount : Nat) : Bool :=
  (List.range 12).all (fun f => decide (g.fcnt.getD f 0 + flagIncrement h llCount f ≤ 15) || decide (flagIncrement h llCount f = 0))

/-- Raise the counts at issue (R19). -/
def Group.raiseCounts (g : Group) (h : Header) (llCount : Nat) : Group :=
  (List.range 12).foldl (fun g f => g.bumpFlag f (flagIncrement h llCount f) false) g

/-- The flag the current LL instruction is assigned to, 15 for none (R19, R46). -/
def Lane.flagNow (l : Lane) : Nat := if l.llSeen = 0 then l.seta else if l.llSeen = 1 then l.setb else 15

/-- An operation completes: its flag's count falls by one (R19). -/
def Group.lowerFlag (g : Group) (f : Nat) : Group := if f < 12 then g.bumpFlag f 1 true else g

end Sys2Proof.Machine
end

