-- ==== Sys2Proof/Machine/Control.lean ====
section
/-!
DEFINITION. Control.lean: branches, calls, YIELD, WSYNC, EXIT, NOP, TRAP and BKPT (R43, R44, R148 to R150, R161). What
they decide is kept in the lane and applied at the end of the clause (R105).
-/
namespace Sys2Proof.Machine

/-- The next-clause address (R30), modulo 2^57. -/
def Lane.nextClause (l : Lane) : Nat := (l.claddr + 4 * (1 + l.words.length + l.lits.length)) % 2 ^ 57

/-- Clause start plus 4 times a signed offset, modulo 2^57 (R44, R148). -/
def Lane.target (l : Lane) (off : Word) : Nat := ((l.claddr + 4 * off.toInt) % ((2 ^ 57 : Nat) : Int)).toNat

/-- An offset given as a signed imm7. -/
def offImm (i : BitVec 7) : Word := i.signExtend 32

/-- The view of thread t. -/
def thr (s : State) (l : Lane) (g : Group) (t : Nat) : Thr := { s := s, l := l, g := g, t := t }

/-- What each issuing thread takes from `f`: its own value, or with U that of the lowest-numbered thread (R42). -/
def perThread {α : Type} (l : Lane) (u : Bool) (f : Nat → α) : List (Nat × α) :=
  (threadsOf l.issuing).map (fun t => (t, f (if u then l.lowest else t)))

/-- Set the branch targets of the lane: `none` leaves a thread at the next-clause address (R104). -/
def State.branchTo (s : State) (l : Lane) (u : Bool) (f : Nat → Option Nat) : State :=
  s.modLane (fun k => { k with newPc := (perThread l u f).filterMap (fun x => x.2.map (fun p => (x.1, p))) })

/-- A relative branch (R148): taken by `cond`, to the offset `off`. -/
def branch (i : Instr) (u : Bool) (cond : Thr → Bool) (off : Thr → Word) (s : State) : Out :=
  runWord i noOwn (fun s l g => s.branchTo l u (fun t =>
    if cond (thr s l g t) then some (l.target (off (thr s l g t))) else none)) s

/-- A target pair with bits [63:57] nonzero raises FETCH_FAULT, naming it (R149). -/
def badTarget (u : Bool) (a : BitVec 7) (s : State) (l : Lane) (g : Group) : Option Trap :=
  firstFail s l g u [failIf (fun e => decide (2 ^ 57 ≤ (e.v64 a).toNat)) Code.fetchFault (fun e => (e.v64 a).toNat)]

/-- An absolute target: bits [1:0] are ignored (R44). -/
def absTarget (v : DWord) : Nat := v.toNat / 4 * 4 % 2 ^ 57

/-- Write the return pair: the next-clause address, zero-extended (R149). -/
def State.putReturn (s : State) (l : Lane) (g : Group) (u : Bool) (d : BitVec 7) : State :=
  s.putResults l g u d (fun _ => pair (BitVec.ofNat 64 l.nextClause))

/-! ### Branches -/

/-- BRA, register form (R148). -/
def execBra (x y b : BitVec 7) (u : Bool) (s : State) : Out := branch (.bra x y b u) u (fun _ => true) (fun e => e.v32 b) s

/-- BRA, immediate form (R148). -/
def execBraImm (x y i : BitVec 7) (u : Bool) (s : State) : Out :=
  branch (.braImm x y i u) u (fun _ => true) (fun _ => offImm i) s

/-- BRZ, register form (R148). -/
def execBrz (x a b : BitVec 7) (u : Bool) (s : State) : Out :=
  branch (.brz x a b u) u (fun e => decide (e.v32 a = 0)) (fun e => e.y.v32 b) s

/-- BRZ, immediate form (R148). -/
def execBrzImm (x a i : BitVec 7) (u : Bool) (s : State) : Out :=
  branch (.brzImm x a i u) u (fun e => decide (e.v32 a = 0)) (fun _ => offImm i) s

/-- BRNZ, register form (R148). -/
def execBrnz (x a b : BitVec 7) (u : Bool) (s : State) : Out :=
  branch (.brnz x a b u) u (fun e => decide (e.v32 a ≠ 0)) (fun e => e.y.v32 b) s

/-- BRNZ, immediate form (R148). -/
def execBrnzImm (x a i : BitVec 7) (u : Bool) (s : State) : Out :=
  branch (.brnzImm x a i u) u (fun e => decide (e.v32 a ≠ 0)) (fun _ => offImm i) s

/-! ### Calls and absolute jumps -/

/-- JMPR (R149). -/
def execJmpr (x a z : BitVec 7) (u : Bool) (s : State) : Out :=
  runWord (.jmpr x a z u) (badTarget u a) (fun s l g =>
    s.branchTo l u (fun t => some (absTarget ((thr s l g t).v64 a)))) s

/-- CALL, register form: the target is read before the return pair is written (R149). -/
def execCall (d a z : BitVec 7) (u : Bool) (s : State) : Out :=
  runWord (.call d a z u) noOwn (fun s l g =>
    (s.branchTo l u (fun t => some (l.target ((thr s l g t).v32 a)))).putReturn l g u d) s

/-- CALL, immediate form (R149). -/
def execCallImm (d y i : BitVec 7) (u : Bool) (s : State) : Out :=
  runWord (.callImm d y i u) noOwn (fun s l g =>
    (s.branchTo l u (fun _ => some (l.target (offImm i)))).putReturn l g u d) s

/-- CALLR (R149). -/
def execCallr (d a z : BitVec 7) (u : Bool) (s : State) : Out :=
  runWord (.callr d a z u) (badTarget u a) (fun s l g =>
    (s.branchTo l u (fun t => some (absTarget ((thr s l g t).v64 a)))).putReturn l g u d) s

/-- RET: differs from JMPR only in its mnemonic (R149). -/
def execRet (x a z : BitVec 7) (u : Bool) (s : State) : Out :=
  runWord (.ret x a z u) (badTarget u a) (fun s l g =>
    s.branchTo l u (fun t => some (absTarget ((thr s l g t).v64 a)))) s

/-! ### Ends of a clause -/

/-- NOP (R150). -/
def execNop (x y z : BitVec 7) (u : Bool) (s : State) : Out := runWord (.nop x y z u) noOwn (fun s _ _ => s) s

/-- YIELD parks at the clause end (R106, R150). -/
def execYield (x y z : BitVec 7) (s : State) : Out :=
  runWord (.yield x y z) noOwn (fun s _ _ => s.modLane (fun k => { k with fin := some .yield })) s

/-- WSYNC reads each issuing thread's mask when it executes (R109, R150). -/
def execWsync (x a z : BitVec 7) (s : State) : Out :=
  runWord (.wsync x a z) noOwn (fun s l g =>
    s.modLane (fun k => { k with
      fin := some .wsync
      masks := perThread l false (fun t => (thr s l g t).v32 a) })) s

/-- EXIT (R112, R150). -/
def execExit (x y z : BitVec 7) (s : State) : Out :=
  runWord (.exit x y z) noOwn (fun s _ _ => s.modLane (fun k => { k with fin := some .exit })) s

/-! ### Traps -/

/-- Record a pending trap unless the clause has one (R161). -/
def State.pendTrap (s : State) (code n : Nat) : State :=
  s.modLane (fun k => { k with trap := if k.trap.isNone then some (code, n) else k.trap })

/-- TRAP records a pending USER_TRAP (R161). -/
def execTrap (x y i : BitVec 7) (u : Bool) (s : State) : Out :=
  runWord (.trap x y i u) noOwn (fun s _ _ => s.pendTrap Code.userTrap i.toNat) s

/-- BKPT records a pending BREAK when its bit of BKEN is set, else has no effect (R161). -/
def execBkpt (x y i : BitVec 7) (u : Bool) (s : State) : Out :=
  runWord (.bkpt x y i u) noOwn (fun s l _ =>
    if (((s.team? l.launch l.team).map Team.bken).getD 0).getLsbD (i.toNat / 4) then s.pendTrap Code.brk i.toNat else s) s

/-! ### Words that no instruction has -/

/-- A word whose OP is not assigned raises ILLOP (R47). -/
def execIllop (word : BitVec 32) (s : State) : Out :=
  runWord (.illop word) (fun _ l _ => some { code := Code.illop, thread := l.lowest }) (fun s _ _ => s) s

end Sys2Proof.Machine
end

