-- ==== Sys2Proof/Machine/Float.lean ====
section
/-!
DEFINITION. Float.lean: the number formats of 03_numbers.md, exact values, the one rounding, and the arithmetic the
vector, matrix, atomic and reduction units share. A finite value is held exactly as (-1)^neg * m * 2^e.
-/
namespace Sys2Proof.Machine

/-- Rounding modes in the order of the m field (R51, R77). -/
inductive RMode where
  | rne | rz | ru | rd
  deriving DecidableEq, Repr

/-- The mode an m field names (R51). -/
def RMode.ofBits (m : BitVec 2) : RMode := if m = 0 then .rne else if m = 1 then .rz else if m = 2 then .ru else .rd

/-- The formats of R71. -/
inductive Fmt where
  | f64 | f32 | bf16 | f16 | e5m2 | e4m3 | e3m2 | e2m3 | e2m1
  deriving DecidableEq, Repr

/-- Exponent bits (R71). -/
def Fmt.ebits : Fmt → Nat
  | .f64 => 11 | .f32 => 8 | .bf16 => 8 | .f16 => 5 | .e5m2 => 5 | .e4m3 => 4 | .e3m2 => 3 | .e2m3 => 2 | .e2m1 => 2

/-- Fraction bits (R71). -/
def Fmt.mbits : Fmt → Nat
  | .f64 => 52 | .f32 => 23 | .bf16 => 7 | .f16 => 10 | .e5m2 => 2 | .e4m3 => 3 | .e3m2 => 2 | .e2m3 => 3 | .e2m1 => 1

/-- Width without the container (R71, R73). -/
def Fmt.width (f : Fmt) : Nat := 1 + f.ebits + f.mbits

/-- Exponent bias (R71). -/
def Fmt.bias : Fmt → Nat
  | .f64 => 1023 | .f32 => 127 | .bf16 => 127 | .f16 => 15 | .e5m2 => 15 | .e4m3 => 7 | .e3m2 => 3 | .e2m3 => 1
  | .e2m1 => 1

/-- The format has infinities and IEEE NaNs (R71, R72). -/
def Fmt.ieee : Fmt → Bool
  | .f64 | .f32 | .bf16 | .f16 | .e5m2 => true
  | _ => false

/-- Magnitude bits of the largest finite value (R71). -/
def Fmt.maxBits : Fmt → Nat
  | .f64 => 0x7FEFFFFFFFFFFFFF | .f32 => 0x7F7FFFFF | .bf16 => 0x7F7F | .f16 => 0x7BFF | .e5m2 => 0x7B | .e4m3 => 0x7E
  | .e3m2 => 0x1F | .e2m3 => 0x1F | .e2m1 => 0x7

/-- The canonical NaN (R80); formats without one have none and never produce it. -/
def Fmt.nan : Fmt → Nat
  | .f64 => 0x7FF8000000000000 | .f32 => 0x7FC00000 | .bf16 => 0x7FC0 | .f16 => 0x7E00 | .e5m2 => 0x7E | .e4m3 => 0x7F
  | _ => 0

/-- Magnitude bits of infinity, in the formats that have it (R71). -/
def Fmt.infBits (f : Fmt) : Nat := (2 ^ f.ebits - 1) * 2 ^ f.mbits

/-- Sign bit. -/
def Fmt.signBit (f : Fmt) (neg : Bool) : Nat := if neg then 2 ^ (f.ebits + f.mbits) else 0

/-- An exact value. -/
inductive FVal where
  | nan
  | inf (neg : Bool)
  | fin (neg : Bool) (m : Nat) (e : Int)
  deriving DecidableEq, Repr

/-- Exponent of the last fraction bit of a subnormal (R72). -/
def Fmt.emin (f : Fmt) : Int := 1 - (f.bias : Int) - f.mbits

/-- The value a bit pattern encodes (R71, R72). Bits above the width are ignored (R73). -/
def Fmt.decode (f : Fmt) (bits : Nat) : FVal :=
  let mag := bits % 2 ^ (f.ebits + f.mbits)
  let neg := bits / 2 ^ (f.ebits + f.mbits) % 2 = 1
  let ex := mag / 2 ^ f.mbits
  let fr := mag % 2 ^ f.mbits
  if f.ieee ∧ ex = 2 ^ f.ebits - 1 then (if fr = 0 then .inf neg else .nan)
  else if f = .e4m3 ∧ mag = 0x7F then .nan
  else if ex = 0 then .fin neg fr f.emin
  else .fin neg (fr + 2 ^ f.mbits) (f.emin + (ex : Int) - 1)

/-- Where an exact value lies once rounded. -/
inductive Rounded where
  | bits (neg : Bool) (mag : Nat)        -- representable: sign and magnitude bits
  | over (neg : Bool) (toInf : Bool)     -- finite overflow: infinity or the largest finite value, by R78
  deriving DecidableEq, Repr

/-- `m1 * 2^e1 ≤ m2 * 2^e2`. -/
def leScaled (m1 : Nat) (e1 : Int) (m2 : Nat) (e2 : Int) : Bool :=
  let lo := if e1 ≤ e2 then e1 else e2
  decide (m1 * 2 ^ (e1 - lo).toNat ≤ m2 * 2 ^ (e2 - lo).toNat)

/-- The one rounding (R77, R78). The magnitude lies in [m, m+1) * 2^e and is m * 2^e exactly when `sticky` is false.
With `sticky`, m must carry at least two bits below the last bit of the result. -/
def Fmt.roundMag (f : Fmt) (mode : RMode) (neg : Bool) (m : Nat) (e : Int) (sticky : Bool) : Rounded :=
  let m' := 2 * m + (if sticky then 1 else 0)      -- one more bit, so that sticky lies strictly between
  let e' := e - 1
  let maxE := f.maxBits / 2 ^ f.mbits
  let maxM := f.maxBits % 2 ^ f.mbits + 2 ^ f.mbits
  let maxX := f.emin + (maxE : Int) - 1
  if ¬ leScaled m' e' maxM maxX then
    match mode with
    | .rne => .over neg (leScaled (2 * maxM + 1) (maxX - 1) m' e')
    | .rz => .over neg false
    | .ru => .over neg (!neg)
    | .rd => .over neg neg
  else if m' = 0 then .bits neg 0
  else
    let top := e' + (Nat.log2 m' : Int) - f.mbits
    let q := if top ≤ f.emin then f.emin else top
    let sh := (q - e').toNat
    let n := if q ≤ e' then m' * 2 ^ (e' - q).toNat else m' / 2 ^ sh
    let r := if q ≤ e' then 0 else m' % 2 ^ sh
    let half := 2 ^ (sh - 1)
    let up := match mode with
      | .rne => decide (r > half) || (decide (r = half) && decide (n % 2 = 1) && decide (0 < sh))
      | .rz => false
      | .ru => decide (r ≠ 0) && !neg
      | .rd => decide (r ≠ 0) && neg
    let n' := if up then n + 1 else n
    let qe := (q - f.emin).toNat
    .bits neg (if n' < 2 ^ f.mbits then n' else (qe + 1) * 2 ^ f.mbits + (n' - 2 ^ f.mbits))

/-- Largest finite value of a sign. -/
def Fmt.maxOf (f : Fmt) (neg : Bool) : Nat := f.signBit neg + f.maxBits

/-- Bits of a rounded value without saturation, in a compute format (R78). -/
def Fmt.ofRounded (f : Fmt) : Rounded → Nat
  | .bits neg mag => f.signBit neg + mag
  | .over neg toInf => if toInf then f.signBit neg + f.infBits else f.maxOf neg

/-- Round an exact value to a compute format (R77 to R80). -/
def Fmt.round (f : Fmt) (mode : RMode) : FVal → Nat
  | .nan => f.nan
  | .inf neg => f.signBit neg + f.infBits
  | .fin neg m e => f.ofRounded (f.roundMag mode neg m e false)

/-- Exact negation. -/
def FVal.neg : FVal → FVal
  | .nan => .nan
  | .inf n => .inf (!n)
  | .fin n m e => .fin (!n) m e

/-- The signed integer of a finite value at exponent `lo` not above its own. -/
def signedAt (neg : Bool) (m : Nat) (e lo : Int) : Int :=
  let v : Int := (m * 2 ^ (e - lo).toNat : Nat)
  if neg then -v else v

/-- Exact sum; an exact zero is signed by R81. -/
def FVal.add (mode : RMode) : FVal → FVal → FVal
  | .nan, _ => .nan
  | _, .nan => .nan
  | .inf a, .inf b => if a = b then .inf a else .nan
  | .inf a, _ => .inf a
  | _, .inf b => .inf b
  | .fin n1 m1 e1, .fin n2 m2 e2 =>
    let lo := if e1 ≤ e2 then e1 else e2
    let s := signedAt n1 m1 e1 lo + signedAt n2 m2 e2 lo
    if s = 0 then .fin (if m1 = 0 ∧ m2 = 0 ∧ n1 = n2 then n1 else decide (mode = .rd)) 0 lo
    else .fin (decide (s < 0)) s.natAbs lo

/-- Exact product (R81: signs by exclusive or; R82: 0 times infinity is NaN). -/
def FVal.mul : FVal → FVal → FVal
  | .nan, _ => .nan
  | _, .nan => .nan
  | .inf a, .inf b => .inf (a != b)
  | .inf a, .fin n m _ => if m = 0 then .nan else .inf (a != n)
  | .fin n m _, .inf b => if m = 0 then .nan else .inf (n != b)
  | .fin n1 m1 e1, .fin n2 m2 e2 => .fin (n1 != n2) (m1 * m2) (e1 + e2)

/-- Is the value a zero. -/
def FVal.isZero : FVal → Bool
  | .fin _ 0 _ => true
  | _ => false

/-- Is the value a NaN. -/
def FVal.isNan : FVal → Bool
  | .nan => true
  | _ => false

/-- Sign of a value that is not NaN. -/
def FVal.sign : FVal → Bool
  | .nan => false
  | .inf n => n
  | .fin n _ _ => n

/-- Numeric order of two values that are not NaN; both zeros are equal. -/
def FVal.le (a b : FVal) : Bool :=
  match a, b with
  | .nan, _ => false
  | _, .nan => false
  | .inf n, .inf n' => n || !n'
  | .inf n, _ => n
  | _, .inf n => !n
  | .fin n1 m1 e1, .fin n2 m2 e2 =>
    let lo := if e1 ≤ e2 then e1 else e2
    decide (signedAt n1 m1 e1 lo ≤ signedAt n2 m2 e2 lo)

/-- FADD (R82). -/
def Fmt.add (f : Fmt) (mode : RMode) (a b : Nat) : Nat := f.round mode ((f.decode a).add mode (f.decode b))

/-- FSUB (R82): the exact difference. -/
def Fmt.sub (f : Fmt) (mode : RMode) (a b : Nat) : Nat := f.round mode ((f.decode a).add mode (f.decode b).neg)

/-- FMUL (R82). -/
def Fmt.mul (f : Fmt) (mode : RMode) (a b : Nat) : Nat := f.round mode ((f.decode a).mul (f.decode b))

/-- FFMA (R82): one rounding; 0 times infinity is NaN whatever the addend. -/
def Fmt.fma (f : Fmt) (mode : RMode) (a b c : Nat) : Nat :=
  f.round mode (((f.decode a).mul (f.decode b)).add mode (f.decode c))

/-- Round the quotient (n1 * 2^e1) / (n2 * 2^e2), n2 not zero. -/
def Fmt.roundQuot (f : Fmt) (mode : RMode) (neg : Bool) (m1 : Nat) (e1 : Int) (m2 : Nat) (e2 : Int) : Rounded :=
  let k := f.mbits + 4 + Nat.log2 m2
  f.roundMag mode neg (m1 * 2 ^ k / m2) (e1 - e2 - k) (decide (m1 * 2 ^ k % m2 ≠ 0))

/-- FDIV (R82). -/
def Fmt.div (f : Fmt) (mode : RMode) (a b : Nat) : Nat :=
  match f.decode a, f.decode b with
  | .nan, _ => f.nan
  | _, .nan => f.nan
  | .inf _, .inf _ => f.nan
  | .inf n, .fin n2 _ _ => f.signBit (n != n2) + f.infBits
  | .fin n _ _, .inf n2 => f.signBit (n != n2)
  | .fin n1 m1 e1, .fin n2 m2 e2 =>
    if m2 = 0 then (if m1 = 0 then f.nan else f.signBit (n1 != n2) + f.infBits)
    else f.ofRounded (f.roundQuot mode (n1 != n2) m1 e1 m2 e2)

/-- Integer square root by bits, from bit `k` down. -/
def isqrtFrom (n : Nat) : Nat → Nat → Nat
  | 0, r => if (r + 1) * (r + 1) ≤ n then r + 1 else r
  | k + 1, r => isqrtFrom n k (if (r + 2 ^ (k + 1)) * (r + 2 ^ (k + 1)) ≤ n then r + 2 ^ (k + 1) else r)

/-- The largest r with r*r ≤ n. -/
def isqrt (n : Nat) : Nat := isqrtFrom n (Nat.log2 n / 2 + 1) 0

/-- Square root of m * 2^e, m not zero, at least `p` bits and whether it is inexact. -/
def sqrtParts (m : Nat) (e : Int) (p : Nat) : Nat × Int × Bool :=
  let k : Nat := 2 * p + (if (e % 2 = 0) then 0 else 1)
  let n := m * 2 ^ k
  let r := isqrt n
  (r, (e - k) / 2, decide (r * r ≠ n))

/-- FSQRT (R82): of a value below -0 it is NaN; of -0 it is -0 (R81). -/
def Fmt.sqrt (f : Fmt) (mode : RMode) (a : Nat) : Nat :=
  match f.decode a with
  | .nan => f.nan
  | .inf n => if n then f.nan else f.infBits
  | .fin n m e =>
    if m = 0 then f.signBit n
    else if n then f.nan
    else
      let (r, x, st) := sqrtParts m e (f.mbits + 4)
      f.ofRounded (f.roundMag mode false r x st)

/-- 1/A rounded (R82; also the bracket of FRCP, R83). -/
def Fmt.rcp (f : Fmt) (mode : RMode) (a : Nat) : Nat :=
  match f.decode a with
  | .nan => f.nan
  | .inf n => f.signBit n
  | .fin n m e => if m = 0 then f.signBit n + f.infBits else f.ofRounded (f.roundQuot mode n 1 0 m e)

/-- 1/√A rounded (R82, R83): ±0 gives ±∞ and a value below -0 gives NaN. -/
def Fmt.rsq (f : Fmt) (mode : RMode) (a : Nat) : Nat :=
  match f.decode a with
  | .nan => f.nan
  | .inf n => if n then f.nan else 0
  | .fin n m e =>
    if m = 0 then f.signBit n + f.infBits
    else if n then f.nan
    else
      -- 1/√(m·2^e) = √(2^(2p) / (m·2^e)) / 2^p, with the quotient's remainder kept as sticky
      let k : Nat := 2 * (f.mbits + 6) + 2 * Nat.log2 m + (if e % 2 = 0 then 0 else 1)
      let q := 2 ^ k / m
      let r := isqrt q
      f.ofRounded (f.roundMag mode false r ((-e - k) / 2) (decide (r * r * m ≠ 2 ^ k)))

/-- FSCALE (R82): A * 2^n, rounded once in the instruction's mode. R141 says that n = -2000 gives any finite FP64 value a
signed zero; under R82 a mode that rounds away from zero, or a value of 2^926 or more, gives another result, and the model
follows R82. (DEDUCED, log 79) -/
def Fmt.scale (f : Fmt) (mode : RMode) (a : Nat) (n : Int) : Nat :=
  match f.decode a with
  | .nan => f.nan
  | .inf s => f.signBit s + f.infBits
  | .fin s m e => if m = 0 then f.signBit s else f.round mode (.fin s m (e + n))

/-- An exact value rounded to an integer in direction m: the integer's magnitude (R87, R88). -/
def roundToInt (mode : RMode) (neg : Bool) (m : Nat) (e : Int) : Nat :=
  if 0 ≤ e then m * 2 ^ e.toNat
  else
    let sh := (-e).toNat
    let n := m / 2 ^ sh
    let r := m % 2 ^ sh
    let half := 2 ^ (sh - 1)
    let up := match mode with
      | .rne => decide (r > half) || (decide (r = half) && decide (n % 2 = 1))
      | .rz => false
      | .ru => decide (r ≠ 0) && !neg
      | .rd => decide (r ≠ 0) && neg
    if up then n + 1 else n

/-- FRND (R87). -/
def Fmt.rnd (f : Fmt) (mode : RMode) (a : Nat) : Nat :=
  match f.decode a with
  | .nan => f.nan
  | .inf n => f.signBit n + f.infBits
  | .fin n m e => f.round .rz (.fin n (roundToInt mode n m e) 0)

/-- FNEG (R80): the sign bit is inverted, whatever the operand. -/
def Fmt.negBits (f : Fmt) (a : Nat) : Nat := a ^^^ f.signBit true

/-- FABS (R80): the sign bit is cleared. -/
def Fmt.absBits (f : Fmt) (a : Nat) : Nat := a % f.signBit true

/-- The total order the minimum and maximum use: -0 below +0 (R84). -/
def FVal.below (a b : FVal) : Bool :=
  if a.isZero && b.isZero then a.sign || !b.sign else a.le b

/-- FMIN and FMAX (R84): any NaN gives NaN. -/
def Fmt.minMax (f : Fmt) (max : Bool) (a b : Nat) : Nat :=
  let x := f.decode a
  let y := f.decode b
  if x.isNan || y.isNan then f.nan
  else if max then (if x.below y then b else a) else (if x.below y then a else b)

/-- FMINN and FMAXN (R84): one NaN gives the other operand. -/
def Fmt.minMaxNum (f : Fmt) (max : Bool) (a b : Nat) : Nat :=
  let x := f.decode a
  let y := f.decode b
  if x.isNan && y.isNan then f.nan
  else if x.isNan then b
  else if y.isNan then a
  else f.minMax max a b

/-- The conditions of FCMP (R85), in the order of f = 12 and f = 13 of R52. -/
inductive FCond where
  | eq | lt | le | un | ne | gt | ge | ord
  deriving DecidableEq, Repr

/-- FCMP (R85). -/
def Fmt.cmp (f : Fmt) (c : FCond) (a b : Nat) : Bool :=
  let x := f.decode a
  let y := f.decode b
  let un := x.isNan || y.isNan
  match c with
  | .eq => !un && x.le y && y.le x
  | .lt => !un && !y.le x
  | .le => !un && x.le y
  | .un => un
  | .ne => un || !(x.le y && y.le x)
  | .gt => !un && !x.le y
  | .ge => !un && y.le x
  | .ord => !un

/-- FCLASS (R86): exactly one bit of [9:0]. -/
def Fmt.classMask (f : Fmt) (a : Nat) : Nat :=
  let quiet := a / 2 ^ (f.mbits - 1) % 2 = 1
  match f.decode a with
  | .nan => if quiet then 2 ^ 9 else 2 ^ 8
  | .inf n => if n then 1 else 2 ^ 7
  | .fin n m _ =>
    if m = 0 then (if n then 2 ^ 3 else 2 ^ 4)
    else if m < 2 ^ f.mbits then (if n then 2 ^ 2 else 2 ^ 5)
    else (if n then 2 ^ 1 else 2 ^ 6)

/-- FFREXP (R87): fraction and exponent. -/
def Fmt.frexp (f : Fmt) (a : Nat) : Nat × Int :=
  match f.decode a with
  | .nan => (f.nan, 0)
  | .inf n => (f.signBit n + f.infBits, 0)
  | .fin n m e =>
    if m = 0 then (f.signBit n, 0)
    else
      let x := e + (Nat.log2 m : Int) + 1
      (f.round .rne (.fin n m (e - x)), x)

/-- CVT float to float (R88); with `sat`, overflow and infinities give the largest finite value. -/
def Fmt.convert (src dst : Fmt) (mode : RMode) (sat : Bool) (a : Nat) : Nat :=
  match src.decode a with
  | .nan => dst.nan
  | .inf n => if sat ∧ dst ≠ src ∧ ¬ (dst = .f64) ∧ ¬ (dst = .f32 ∧ src ≠ .f64) then dst.maxOf n
    else dst.signBit n + dst.infBits
  | .fin n m e =>
    match dst.roundMag mode n m e false with
    | .bits s mag => dst.signBit s + mag
    | .over s toInf => if sat || !toInf then dst.maxOf s else dst.signBit s + dst.infBits

/-- Round an exact value into a narrow format by the table of R89. -/
def Fmt.narrow (f : Fmt) (mode : RMode) (sat : Bool) (v : FVal) : Nat :=
  match v with
  | .nan => f.nan
  | .inf n => if sat then f.maxOf n else if f.ieee then f.signBit n + f.infBits else if f = .e4m3 then 0x7F
    else f.maxOf n
  | .fin n m e =>
    match f.roundMag mode n m e false with
    | .bits s mag => f.signBit s + mag
    | .over s toInf =>
      if sat || !toInf then f.maxOf s
      else if f.ieee then f.signBit s + f.infBits
      else if f = .e4m3 then 0x7F
      else f.maxOf s

/-- Packing to E8M0 (R89): |x| rounded to a power of two, measured in the exponent: the code
    changes at 2^(x + 1/2), which no value of a format is, so that no tie arises. (DEDUCED, log 22) -/
def e8m0Of (mode : RMode) (sat : Bool) (v : FVal) : Nat :=
  match v with
  | .nan => 0xFF
  | .inf _ => if sat then 0xFE else 0xFF
  | .fin _ m e =>
    if m = 0 then 0
    else
      let k := Nat.log2 m
      let x := e + (k : Int)                     -- 2^x ≤ |x| < 2^(x+1)
      let exact := decide (m = 2 ^ k)
      -- nearest in the exponent: |x| against 2^(x+1/2), that is m² against 2^(2k+1); no dyadic value ties
      let up := match mode with
        | .rne => decide (2 ^ (2 * k + 1) < m * m)
        | .rz => false
        | .ru => !exact
        | .rd => false
      let c := x + 127 + (if up then 1 else 0)
      if x < -127 then 0
      else if 254 < c then (if sat ∨ mode = .rz ∨ mode = .rd then 0xFE else 0xFF)
      else c.toNat

/-- The exact value of an E8M0 code (R74). -/
def e8m0Val (c : Nat) : FVal := if c = 0xFF then .nan else .fin false 1 ((c : Int) - 127)

end Sys2Proof.Machine
end

