-- ==== Sys2Proof/Machine/Faithful.lean ====
section
/-!
DEFINITION. Faithful.lean: the functions that R83 calls faithful. The result is one of the two representable values
that bracket the exact result, and which of them the part delivers is free (Config.pickUp, log 5): the same fixed
function of the operand everywhere. The exact results are enclosed in fixed point with 520 fraction bits.
-/
namespace Sys2Proof.Machine

/-- Fraction bits of the fixed-point enclosures. -/
def fxBits : Nat := 520

/-- ln 2, rounded down to 520 fraction bits. -/
def fxLn2 : Nat := 0xB17217F7D1CF79ABC9E3B39803F2F6AF40F343267298B62D8A0D175B8BAAFA2BE7B876206DEBAC98559552FB4AFA1B10ED2EAE35C138214427573B291169B8253E

/-- pi/2, rounded down to 680 fraction bits. -/
def fxHalfPi : Nat :=
  0x1921FB54442D18469898CC51701B839A252049C1114CF98E804177D4C76273644A29410F31C6809BBDF2A33679A748636605614DBE4BE286E9FC26ADADAA3848BC90B6AECC4BCFD8DE89885D34C6FDAD617FEB96DE8

/-- Bound on the error of every enclosure below, in units of the last fraction bit. -/
def fxSlack : Nat := 2 ^ 32

/-- `acc + t + t·y/k + t·y²/(k(k+1)) + …`, `n` terms. -/
def expTail : Nat → Nat → Nat → Nat → Nat → Nat
  | 0, _, _, _, acc => acc
  | n + 1, k, y, t, acc => expTail n (k + 1) y (t * y / (2 ^ fxBits * k)) (acc + t)

/-- exp y for 0 ≤ y ≤ 1, fixed point. -/
def fxExp (y : Nat) : Nat := expTail 110 1 y (2 ^ fxBits) 0

/-- The even or odd half of the sine and cosine series: alternating sum from the term `t` with step `k`. -/
def trigTail : Nat → Nat → Nat → Int → Int → Int
  | 0, _, _, _, acc => acc
  | n + 1, k, y2, t, acc =>
    trigTail n (k + 2) y2 (-(t * y2 / ((2 ^ fxBits * (k * (k + 1)) : Nat) : Int))) (acc + t)

/-- sin y for 0 ≤ y ≤ 1, fixed point. -/
def fxSin (y : Nat) : Nat := (trigTail 60 2 (y * y / 2 ^ fxBits) y 0).toNat

/-- cos y for 0 ≤ y ≤ 1, fixed point. -/
def fxCos (y : Nat) : Nat := (trigTail 60 1 (y * y / 2 ^ fxBits) ((2 ^ fxBits : Nat) : Int) 0).toNat

/-- `z + z³/3 + z⁵/5 + …`, `n` terms, `t` the current power. -/
def atanhTail : Nat → Nat → Nat → Nat → Nat → Nat
  | 0, _, _, _, acc => acc
  | n + 1, k, z2, t, acc => atanhTail n (k + 2) z2 (t * z2 / 2 ^ fxBits) (acc + t / k)

/-- ln t for 1 ≤ t < 2, fixed point. -/
def fxLn (t : Nat) : Nat :=
  let z := (t - 2 ^ fxBits) * 2 ^ fxBits / (t + 2 ^ fxBits)
  2 * atanhTail 180 1 (z * z / 2 ^ fxBits) z 0

/-- Magnitude bits of an FP32 rounding. -/
def magOf : Rounded → Nat
  | .bits _ mag => mag
  | .over _ toInf => if toInf then 0x7F800000 else 0x7F7FFFFF

/-- The faithful FP32 result of function `fn` at operand `a` whose exact magnitude lies within the slack of
`v * 2^e`. Should a representable value lie inside the enclosure, it is taken: it brackets the exact result from
either side. (DESIGN CHOICE, log 5) -/
def faithful32 (fn a : Nat) (neg : Bool) (v : Nat) (e : Int) : Nat :=
  let dn := magOf (Fmt.f32.roundMag .rz false (v - fxSlack) e false)
  let up := magOf (Fmt.f32.roundMag .ru false (v + fxSlack) e false)
  let mag := if up ≤ dn + 1 then (if Config.pickUp fn (BitVec.ofNat 64 a) then up else dn)
    else magOf (Fmt.f32.roundMag .rne false v e false)
  Fmt.f32.signBit neg + mag

/-- FRCP (R83): bracketed 1/A; a result beyond the largest finite value is ±∞. (DESIGN CHOICE, log 5) -/
def Fmt.rcpFaithful (f : Fmt) (a : Nat) : Nat :=
  let dn := f.rcp .rz a
  let rd := f.rcp .rd a
  let up := if rd = dn then f.rcp .ru a else rd
  match f.decode a with
  | .fin n m e =>
    if m = 0 then dn
    else match f.roundQuot .rz n 1 0 m e with
      | .over s _ => f.signBit s + f.infBits
      | .bits _ _ => if Config.pickUp 0 (BitVec.ofNat 64 a) then up else dn
  | _ => dn

/-- FRSQ (R83): bracketed 1/√A. (DESIGN CHOICE, log 5) -/
def Fmt.rsqFaithful (f : Fmt) (a : Nat) : Nat :=
  if Config.pickUp 1 (BitVec.ofNat 64 a) then f.rsq .ru a else f.rsq .rd a

/-- FEXP2 (R83). -/
def fexp2 (a : Nat) : Nat :=
  match Fmt.f32.decode a with
  | .nan => Fmt.f32.nan
  | .inf n => if n then 0 else Fmt.f32.infBits
  | .fin n m e =>
    if m = 0 then 0x3F800000
    else
      -- floor and fraction of x
      let big := decide (12 ≤ e + (Nat.log2 m : Int))
      let fx := if e < -(fxBits : Int) then 0 else m * 2 ^ (e + fxBits).toNat
      let x : Int := if n then -(fx : Int) else fx
      let fl := x / ((2 ^ fxBits : Nat) : Int)
      let fr := (x % ((2 ^ fxBits : Nat) : Int)).toNat
      let whole := decide (0 ≤ e) || decide (m % 2 ^ (-e).toNat = 0)
      if big then (if n then (if whole then 0 else faithful32 2 a false fxSlack (-2000)) else
        if whole then Fmt.f32.infBits else faithful32 2 a false (2 ^ fxBits) 2000)
      else if fr = 0 then Fmt.f32.round .rne (.fin false 1 fl)
      else faithful32 2 a false (fxExp (fr * fxLn2 / 2 ^ fxBits)) (fl - fxBits)

/-- FLOG2 (R83). -/
def flog2 (a : Nat) : Nat :=
  match Fmt.f32.decode a with
  | .nan => Fmt.f32.nan
  | .inf n => if n then Fmt.f32.nan else Fmt.f32.infBits
  | .fin n m e =>
    if m = 0 then Fmt.f32.signBit true + Fmt.f32.infBits
    else if n then Fmt.f32.nan
    else
      let k := Nat.log2 m
      let x := e + (k : Int)
      if m = 2 ^ k then Fmt.f32.round .rne (.fin (decide (x < 0)) x.natAbs 0)
      else
        let l := fxLn (m * 2 ^ fxBits / 2 ^ k) * 2 ^ fxBits / fxLn2
        let v : Int := x * ((2 ^ fxBits : Nat) : Int) + l
        faithful32 3 a (decide (v < 0)) v.natAbs (-(fxBits : Int))

/-- Quadrant of a positive m * 2^e and its remainder below pi/2, in fixed point. No range reduction error is visible:
the argument is below 2^128 and pi/2 carries 160 bits more than the remainder keeps. -/
def trigReduce (m : Nat) (e : Int) : Nat × Nat :=
  let x := m * 2 ^ (e + fxBits + 160).toNat
  (x / fxHalfPi % 4, x % fxHalfPi / 2 ^ 160)

/-- sin or cos (quarter = 1) of an FP32 operand (R83). -/
def fsincos (fn quarter a : Nat) : Nat :=
  match Fmt.f32.decode a with
  | .nan => Fmt.f32.nan
  | .inf _ => Fmt.f32.nan
  | .fin n m e =>
    if m = 0 then (if quarter = 0 then Fmt.f32.signBit n else 0x3F800000)
    else
      let (q, r) := trigReduce m e
      let q' := (q + quarter) % 4
      let quart := fxHalfPi / 2 ^ 160
      -- sin of q'·pi/2 + r, taking the series where the argument is at most pi/4
      let small := decide (2 * r ≤ quart)
      let v := if q' % 2 = 0 then (if small then fxSin r else fxCos (quart - r))
        else (if small then fxCos r else fxSin (quart - r))
      let neg := decide (2 ≤ q') != (n && decide (quarter = 0))
      faithful32 fn a neg v (-(fxBits : Int))

/-- FSIN (R83). -/
def fsin (a : Nat) : Nat := fsincos 4 0 a

/-- FCOS (R83). -/
def fcos (a : Nat) : Nat := fsincos 5 1 a

/-- FTANH (R83): the magnitude never exceeds 1. -/
def ftanh (a : Nat) : Nat :=
  match Fmt.f32.decode a with
  | .nan => Fmt.f32.nan
  | .inf n => Fmt.f32.signBit n + 0x3F800000
  | .fin n m e =>
    if m = 0 then Fmt.f32.signBit n
    else if 7 ≤ e + (Nat.log2 m : Int) then
      Fmt.f32.signBit n + (if Config.pickUp 6 (BitVec.ofNat 64 a) then 0x3F800000 else 0x3F7FFFFF)
    else
      let y := 2 * m * 2 ^ (e + fxBits).toNat                     -- 2|x|, at most 256
      let k := y / fxLn2 + 1
      let u := fxExp (k * fxLn2 - y) / 2 ^ k                       -- exp(-2|x|)
      faithful32 6 a n ((2 ^ fxBits - u) * 2 ^ fxBits / (2 ^ fxBits + u)) (-(fxBits : Int))

end Sys2Proof.Machine
end

