-- ==== Sys2Proof/Machine/FloatOps.lean ====
section
/-!
DEFINITION. FloatOps.lean: the floating-point instructions (R51, R52, R82 to R87, R140, R141). The type code t is
0 for FP64 (pairs), 1 for FP32, 2 for two BF16 elements in one register.
-/
namespace Sys2Proof.Machine

/-- A result from one operand, element by element (R76, R141). -/
def fun1 (t : BitVec 2) (f : Fmt → Nat → Nat) (e : Thr) (a : BitVec 7) : List Word :=
  if t = 0 then pair (BitVec.ofNat 64 (f .f64 (e.v64 a).toNat))
  else if t = 1 then [BitVec.ofNat 32 (f .f32 (e.v32 a).toNat)]
  else
    let x := e.v32 a
    [(BitVec.ofNat 16 (f .bf16 (x.extractLsb' 16 16).toNat) ++ BitVec.ofNat 16 (f .bf16 (x.setWidth 16).toNat) : Word)]

/-- A result from two operands. -/
def fun2 (t : BitVec 2) (f : Fmt → Nat → Nat → Nat) (e : Thr) (a b : BitVec 7) : List Word :=
  if t = 0 then pair (BitVec.ofNat 64 (f .f64 (e.v64 a).toNat (e.y.v64 b).toNat))
  else if t = 1 then [BitVec.ofNat 32 (f .f32 (e.v32 a).toNat (e.y.v32 b).toNat)]
  else
    let x := e.v32 a
    let y := e.y.v32 b
    [(BitVec.ofNat 16 (f .bf16 (x.extractLsb' 16 16).toNat (y.extractLsb' 16 16).toNat) ++
      BitVec.ofNat 16 (f .bf16 (x.setWidth 16).toNat (y.setWidth 16).toNat) : Word)]

/-- A result from two operands and the old destination. -/
def fun3 (t : BitVec 2) (f : Fmt → Nat → Nat → Nat → Nat) (e : Thr) (a b d : BitVec 7) : List Word :=
  if t = 0 then pair (BitVec.ofNat 64 (f .f64 (e.v64 a).toNat (e.y.v64 b).toNat (e.z.v64 d).toNat))
  else if t = 1 then [BitVec.ofNat 32 (f .f32 (e.v32 a).toNat (e.y.v32 b).toNat (e.z.v32 d).toNat)]
  else
    let x := e.v32 a
    let y := e.y.v32 b
    let z := e.z.v32 d
    [(BitVec.ofNat 16 (f .bf16 (x.extractLsb' 16 16).toNat (y.extractLsb' 16 16).toNat (z.extractLsb' 16 16).toNat) ++
      BitVec.ofNat 16 (f .bf16 (x.setWidth 16).toNat (y.setWidth 16).toNat (z.setWidth 16).toNat) : Word)]

/-- 1 or 0 from a comparison of FP64 or FP32 operands (R85). -/
def fcmp (t : BitVec 2) (c : FCond) (e : Thr) (a b : BitVec 7) : List Word :=
  [if (if t = 0 then Fmt.f64.cmp c (e.v64 a).toNat (e.y.v64 b).toNat else Fmt.f32.cmp c (e.v32 a).toNat (e.y.v32 b).toNat)
   then 1 else 0]

/-- A faithful FP32 function (R83). -/
def faith (f : Nat → Nat) (e : Thr) (a : BitVec 7) : List Word := [BitVec.ofNat 32 (f (e.v32 a).toNat)]

/-! ### Instructions -/

/-- FADD (R82). -/
def execFadd (d : BitVec 7) (a : BitVec 7) (b : BitVec 7) (u : Bool) (m : BitVec 2) (t : BitVec 2) (s : State) : Out :=
  alu (.fadd d a b u m t) u d (fun e => fun2 t (fun k x y => Fmt.add k (RMode.ofBits m) x y) e a b) s

/-- FSUB (R82). -/
def execFsub (d : BitVec 7) (a : BitVec 7) (b : BitVec 7) (u : Bool) (m : BitVec 2) (t : BitVec 2) (s : State) : Out :=
  alu (.fsub d a b u m t) u d (fun e => fun2 t (fun k x y => Fmt.sub k (RMode.ofBits m) x y) e a b) s

/-- FMUL (R82). -/
def execFmul (d : BitVec 7) (a : BitVec 7) (b : BitVec 7) (u : Bool) (m : BitVec 2) (t : BitVec 2) (s : State) : Out :=
  alu (.fmul d a b u m t) u d (fun e => fun2 t (fun k x y => Fmt.mul k (RMode.ofBits m) x y) e a b) s

/-- FFMA: one rounding, the addend is D (R82, R141). -/
def execFfma (d : BitVec 7) (a : BitVec 7) (b : BitVec 7) (u : Bool) (m : BitVec 2) (t : BitVec 2) (s : State) : Out :=
  alu (.ffma d a b u m t) u d (fun e => fun3 t (fun k x y z => Fmt.fma k (RMode.ofBits m) x y z) e a b d) s

/-- FDIV (R82). -/
def execFdiv (d : BitVec 7) (a : BitVec 7) (b : BitVec 7) (u : Bool) (m : BitVec 2) (t : BitVec 2) (s : State) : Out :=
  alu (.fdiv d a b u m t) u d (fun e => fun2 t (fun k x y => Fmt.div k (RMode.ofBits m) x y) e a b) s

/-- FSQRT (R82). -/
def execFsqrt (d : BitVec 7) (a : BitVec 7) (z : BitVec 7) (u : Bool) (m : BitVec 2) (t : BitVec 2) (s : State) : Out :=
  alu (.fsqrt d a z u m t) u d (fun e => fun1 t (fun k x => Fmt.sqrt k (RMode.ofBits m) x) e a) s

/-- FRCP.cr (R82). -/
def execFrcpCr (d : BitVec 7) (a : BitVec 7) (z : BitVec 7) (u : Bool) (m : BitVec 2) (t : BitVec 2) (s : State) : Out :=
  alu (.frcpCr d a z u m t) u d (fun e => fun1 t (fun k x => Fmt.rcp k (RMode.ofBits m) x) e a) s

/-- FRSQ.cr (R82). -/
def execFrsqCr (d : BitVec 7) (a : BitVec 7) (z : BitVec 7) (u : Bool) (m : BitVec 2) (t : BitVec 2) (s : State) : Out :=
  alu (.frsqCr d a z u m t) u d (fun e => fun1 t (fun k x => Fmt.rsq k (RMode.ofBits m) x) e a) s

/-- FSCALE: A times two to the signed 32-bit B (R82, R141). -/
def execFscale (d : BitVec 7) (a : BitVec 7) (b : BitVec 7) (u : Bool) (m : BitVec 2) (t : BitVec 2) (s : State) : Out :=
  alu (.fscale d a b u m t) u d (fun e => fun1 t (fun k x => Fmt.scale k (RMode.ofBits m) x (e.y.v32 b).toInt) e a) s

/-- FRND (R87). -/
def execFrnd (d : BitVec 7) (a : BitVec 7) (z : BitVec 7) (u : Bool) (m : BitVec 2) (t : BitVec 2) (s : State) : Out :=
  alu (.frnd d a z u m t) u d (fun e => fun1 t (fun k x => Fmt.rnd k (RMode.ofBits m) x) e a) s

/-- FNEG (R80). -/
def execFneg (d : BitVec 7) (a : BitVec 7) (z : BitVec 7) (u : Bool) (t : BitVec 2) (s : State) : Out :=
  alu (.fneg d a z u t) u d (fun e => fun1 t Fmt.negBits e a) s

/-- FABS (R80). -/
def execFabs (d : BitVec 7) (a : BitVec 7) (z : BitVec 7) (u : Bool) (t : BitVec 2) (s : State) : Out :=
  alu (.fabs d a z u t) u d (fun e => fun1 t Fmt.absBits e a) s

/-- FMIN (R84). -/
def execFmin (d : BitVec 7) (a : BitVec 7) (b : BitVec 7) (u : Bool) (t : BitVec 2) (s : State) : Out :=
  alu (.fmin d a b u t) u d (fun e => fun2 t (fun k x y => Fmt.minMax k false x y) e a b) s

/-- FMAX (R84). -/
def execFmax (d : BitVec 7) (a : BitVec 7) (b : BitVec 7) (u : Bool) (t : BitVec 2) (s : State) : Out :=
  alu (.fmax d a b u t) u d (fun e => fun2 t (fun k x y => Fmt.minMax k true x y) e a b) s

/-- FMINN (R84). -/
def execFminn (d : BitVec 7) (a : BitVec 7) (b : BitVec 7) (u : Bool) (t : BitVec 2) (s : State) : Out :=
  alu (.fminn d a b u t) u d (fun e => fun2 t (fun k x y => Fmt.minMaxNum k false x y) e a b) s

/-- FMAXN (R84). -/
def execFmaxn (d : BitVec 7) (a : BitVec 7) (b : BitVec 7) (u : Bool) (t : BitVec 2) (s : State) : Out :=
  alu (.fmaxn d a b u t) u d (fun e => fun2 t (fun k x y => Fmt.minMaxNum k true x y) e a b) s

/-- FCLASS (R86). -/
def execFclass (d : BitVec 7) (a : BitVec 7) (z : BitVec 7) (u : Bool) (t : BitVec 2) (s : State) : Out :=
  alu (.fclass d a z u t) u d (fun e => [BitVec.ofNat 32 (if t = 0 then Fmt.f64.classMask (e.v64 a).toNat else Fmt.f32.classMask (e.v32 a).toNat)]) s

/-- Fraction and exponent of a thread's A (R87). -/
def frexpOf (t : BitVec 2) (e : Thr) (a : BitVec 7) : Nat × Int :=
  if t = 0 then Fmt.f64.frexp (e.v64 a).toNat else Fmt.f32.frexp (e.v32 a).toNat

/-- FFREXP: D takes the fraction, then v[B] the exponent (R87, R141). -/
def execFfrexp (d : BitVec 7) (a : BitVec 7) (b : BitVec 7) (u : Bool) (t : BitVec 2) (s : State) : Out :=
  runWord (.ffrexp d a b u t) noOwn (fun s l g =>
    let fs := resultsOf s l g u (fun e => if t = 0 then pair (BitVec.ofNat 64 (frexpOf t e a).1)
      else [BitVec.ofNat 32 (frexpOf t e a).1])
    let xs := resultsOf s l g u (fun e => [BitVec.ofInt 32 (frexpOf t e a).2])
    s.putRegs l.launch l.team l.gnum (writesAt g d fs ++ writesAt g b xs)) s

/-- FCMP.eq (R85). -/
def execFcmpEq (d : BitVec 7) (a : BitVec 7) (b : BitVec 7) (u : Bool) (t : BitVec 2) (s : State) : Out :=
  alu (.fcmpEq d a b u t) u d (fun e => fcmp t .eq e a b) s

/-- FCMP.lt (R85). -/
def execFcmpLt (d : BitVec 7) (a : BitVec 7) (b : BitVec 7) (u : Bool) (t : BitVec 2) (s : State) : Out :=
  alu (.fcmpLt d a b u t) u d (fun e => fcmp t .lt e a b) s

/-- FCMP.le (R85). -/
def execFcmpLe (d : BitVec 7) (a : BitVec 7) (b : BitVec 7) (u : Bool) (t : BitVec 2) (s : State) : Out :=
  alu (.fcmpLe d a b u t) u d (fun e => fcmp t .le e a b) s

/-- FCMP.un (R85). -/
def execFcmpUn (d : BitVec 7) (a : BitVec 7) (b : BitVec 7) (u : Bool) (t : BitVec 2) (s : State) : Out :=
  alu (.fcmpUn d a b u t) u d (fun e => fcmp t .un e a b) s

/-- FCMP.ne (R85). -/
def execFcmpNe (d : BitVec 7) (a : BitVec 7) (b : BitVec 7) (u : Bool) (t : BitVec 2) (s : State) : Out :=
  alu (.fcmpNe d a b u t) u d (fun e => fcmp t .ne e a b) s

/-- FCMP.gt (R85). -/
def execFcmpGt (d : BitVec 7) (a : BitVec 7) (b : BitVec 7) (u : Bool) (t : BitVec 2) (s : State) : Out :=
  alu (.fcmpGt d a b u t) u d (fun e => fcmp t .gt e a b) s

/-- FCMP.ge (R85). -/
def execFcmpGe (d : BitVec 7) (a : BitVec 7) (b : BitVec 7) (u : Bool) (t : BitVec 2) (s : State) : Out :=
  alu (.fcmpGe d a b u t) u d (fun e => fcmp t .ge e a b) s

/-- FCMP.ord (R85). -/
def execFcmpOrd (d : BitVec 7) (a : BitVec 7) (b : BitVec 7) (u : Bool) (t : BitVec 2) (s : State) : Out :=
  alu (.fcmpOrd d a b u t) u d (fun e => fcmp t .ord e a b) s

/-- FEXP2 (R83). -/
def execFexp2 (d : BitVec 7) (a : BitVec 7) (z : BitVec 7) (u : Bool) (s : State) : Out :=
  alu (.fexp2 d a z u) u d (fun e => faith fexp2 e a) s

/-- FLOG2 (R83). -/
def execFlog2 (d : BitVec 7) (a : BitVec 7) (z : BitVec 7) (u : Bool) (s : State) : Out :=
  alu (.flog2 d a z u) u d (fun e => faith flog2 e a) s

/-- FSIN (R83). -/
def execFsin (d : BitVec 7) (a : BitVec 7) (z : BitVec 7) (u : Bool) (s : State) : Out :=
  alu (.fsin d a z u) u d (fun e => faith fsin e a) s

/-- FCOS (R83). -/
def execFcos (d : BitVec 7) (a : BitVec 7) (z : BitVec 7) (u : Bool) (s : State) : Out :=
  alu (.fcos d a z u) u d (fun e => faith fcos e a) s

/-- FTANH (R83). -/
def execFtanh (d : BitVec 7) (a : BitVec 7) (z : BitVec 7) (u : Bool) (s : State) : Out :=
  alu (.ftanh d a z u) u d (fun e => faith ftanh e a) s

/-- FRCP (R83). -/
def execFrcp (d : BitVec 7) (a : BitVec 7) (z : BitVec 7) (u : Bool) (t : BitVec 2) (s : State) : Out :=
  alu (.frcp d a z u t) u d (fun e => fun1 t Fmt.rcpFaithful e a) s

/-- FRSQ (R83). -/
def execFrsq (d : BitVec 7) (a : BitVec 7) (z : BitVec 7) (u : Bool) (t : BitVec 2) (s : State) : Out :=
  alu (.frsq d a z u t) u d (fun e => fun1 t Fmt.rsqFaithful e a) s

end Sys2Proof.Machine
end

