-- ==== Sys2Proof/Machine/Convert.lean ====
section
/-!
DEFINITION. Convert.lean: conversions between types and narrow formats (R53, R88 to R92, R142 to R144).
-/
namespace Sys2Proof.Machine

/-- An integer type of R50: signed, bits. -/
def intType (t : BitVec 4) : Bool × Nat :=
  (t.getLsbD 0, if t.toNat < 2 then 8 else if t.toNat < 4 then 16 else if t.toNat < 6 then 32 else 64)

/-- A floating-point type of R50. -/
def floatType (t : BitVec 4) : Option Fmt :=
  match t.toNat with
  | 8 => some .f64 | 9 => some .f32 | 10 => some .bf16 | 11 => some .f16
  | 12 => some .e5m2 | 13 => some .e4m3 | 14 => some .e3m2 | 15 => some .e2m3
  | _ => none

/-- The integer that the low bits of a value hold (R75). -/
def intOf (signed : Bool) (bits : Nat) (v : Nat) : Int :=
  let m := v % 2 ^ bits
  if signed && decide (2 ^ (bits - 1) ≤ m) then (m : Int) - (2 ^ bits : Nat) else (m : Int)

/-- Clamp to the range of an integer type (R88). -/
def clampInt (signed : Bool) (bits : Nat) (x : Int) : Int :=
  let lo : Int := if signed then -((2 ^ (bits - 1) : Nat) : Int) else 0
  let hi : Int := if signed then (2 ^ (bits - 1) : Nat) - 1 else (2 ^ bits : Nat) - 1
  if x < lo then lo else if hi < x then hi else x

/-- An integer as it stands in 64 bits: an 8-bit or 16-bit result is extended by its own sign (R75, R142). -/
def intBits (signed : Bool) (bits : Nat) (x : Int) : DWord := BitVec.ofInt 64 (intOf signed bits (x % ((2 ^ bits : Nat) : Int)).toNat)

/-- Integer of an exact value rounded in a mode, clamped; a NaN gives 0 (R88). -/
def toInteger (mode : RMode) (signed : Bool) (bits : Nat) : FVal → Int
  | .nan => 0
  | .inf n => clampInt signed bits (if n then -((2 ^ 80 : Nat) : Int) else (2 ^ 80 : Nat))
  | .fin n m e =>
    let big := decide (100 < e + (Nat.log2 m : Int)) && decide (m ≠ 0)
    let k : Int := if big then (2 ^ 80 : Nat) else (roundToInt mode n m e : Nat)
    clampInt signed bits (if n then -k else k)

/-- CVT (R88). -/
def cvtBits (src dst : BitVec 4) (mode : RMode) (sat : Bool) (v : DWord) : DWord :=
  match floatType src, floatType dst with
  | some f, some g => BitVec.ofNat 64 (f.convert g mode sat (v.toNat % 2 ^ f.width))
  | some f, none =>
    let (sg, n) := intType dst
    intBits sg n (toInteger mode sg n (f.decode (v.toNat % 2 ^ f.width)))
  | none, some g =>
    let (sg, n) := intType src
    let x := intOf sg n v.toNat
    BitVec.ofNat 64 (match g.roundMag mode (decide (x < 0)) x.natAbs 0 false with
      | .bits s mag => (if x = 0 then 0 else g.signBit s) + mag
      | .over s toInf => if sat || !toInf then g.maxOf s else g.signBit s + g.infBits)
  | none, none =>
    let (sg, n) := intType src
    let (sg', n') := intType dst
    let x := intOf sg n v.toNat
    intBits sg' n' (if sat then clampInt sg' n' x else x)

/-- The narrow formats of R53, codes 0 to 6. -/
def narrowFmt (n : BitVec 4) : Option Fmt :=
  match n.toNat with
  | 0 => some .e5m2 | 1 => some .e4m3 | 2 => some .e3m2 | 3 => some .e2m3 | 4 => some .e2m1 | 5 => some .f16 | 6 => some .bf16
  | _ => none

/-- Narrow integer codes are signed for 8 and 10 (R53). -/
def narrowSigned (n : BitVec 4) : Bool := decide (n = 8) || decide (n = 10)

/-- The element code that packing gives (R89). (DEDUCED, log 22) -/
def packElt (n : BitVec 4) (mode : RMode) (sat : Bool) (x : Word) : Nat :=
  match narrowFmt n with
  | some f => f.narrow mode sat (Fmt.f32.decode x.toNat)
  | none =>
    if n = 7 then e8m0Of mode sat (Fmt.f32.decode x.toNat)
    else
      let k := narrowWidth n
      let y := if sat then clampInt (narrowSigned n) k x.toInt else x.toInt
      (y % ((2 ^ k : Nat) : Int)).toNat

/-- The value that unpacking gives (R89, R143). -/
def unpackElt (n : BitVec 4) (c : Nat) : Word :=
  match narrowFmt n with
  | some f => BitVec.ofNat 32 (Fmt.f32.round .rne (f.decode c))
  | none =>
    if n = 7 then BitVec.ofNat 32 (Fmt.f32.round .rne (e8m0Val c))
    else BitVec.ofInt 32 (intOf (narrowSigned n) (narrowWidth n) c)

/-- Element p of a word, w bits wide (R73). -/
def eltAt (w p : Nat) (x : Word) : Nat := x.toNat / 2 ^ (w * p) % 2 ^ w

/-- Replace element p of a word (R73). -/
def eltPut (w p : Nat) (x : Word) (c : Nat) : Word :=
  BitVec.ofNat 32 (x.toNat - eltAt w p x * 2 ^ (w * p) + c % 2 ^ w * 2 ^ (w * p))

/-- CVTSC.mul: A times two to the scale, FP32, RNE (R92). -/
def scaleMul (a : Word) (code : Nat) : Word :=
  BitVec.ofNat 32 (Fmt.f32.round .rne ((Fmt.f32.decode a.toNat).mul (e8m0Val code)))

/-- Exponent of the largest finite value of narrow codes 0 to 4 (R92). -/
def narrowTop (n : BitVec 4) : Int := if n = 0 then 15 else if n = 1 then 8 else if n = 2 then 4 else 2

/-- CVTSC.exp: the scale code for a block maximum (R92). -/
def scaleExp (n : BitVec 4) (a : Word) : Nat :=
  match Fmt.f32.decode a.toNat with
  | .nan => 0xFF
  | .inf _ => 0xFF
  | .fin _ m e =>
    if m = 0 then 0
    else
      let c := e + (Nat.log2 m : Int) - narrowTop n + 127
      if c < 0 then 0 else if 254 < c then 254 else c.toNat

/-- A source of a type of R50 (R142). -/
def Thr.typed (e : Thr) (t : BitVec 4) (a : BitVec 7) : DWord := if tySize t = 2 then e.v64 a else (e.v32 a).setWidth 64

/-- The words of a result of a type of R50. -/
def typedWords (t : BitVec 4) (x : DWord) : List Word := words (decide (tySize t = 2)) x

/-! ### Instructions -/

/-- CVT (R88, R142). -/
def execCvt (d : BitVec 7) (a : BitVec 7) (q : Bool) (m : BitVec 2) (s_ : BitVec 4) (u : Bool) (t : BitVec 4) (s : State) : Out :=
  alu (.cvt d a q m s_ u t) u d (fun e => typedWords t (cvtBits s_ t (RMode.ofBits m) q (e.typed s_ a))) s

/-- CVTPK (R89, R143). -/
def execCvtpk (d : BitVec 7) (a : BitVec 7) (p : BitVec 4) (q : Bool) (m : BitVec 2) (u : Bool) (n : BitVec 4) (s : State) : Out :=
  alu (.cvtpk d a p q m u n) u d (fun e => [eltPut (narrowWidth n) p.toNat (e.z.v32 d) (packElt n (RMode.ofBits m) q (e.v32 a))]) s

/-- CVTUPK (R89, R143). -/
def execCvtupk (d : BitVec 7) (a : BitVec 7) (p : BitVec 4) (u : Bool) (n : BitVec 4) (s : State) : Out :=
  alu (.cvtupk d a p u n) u d (fun e => [unpackElt n (eltAt (narrowWidth n) p.toNat (e.v32 a))]) s

/-- CVTSC.mul (R92, R144). -/
def execCvtscMul (d : BitVec 7) (a : BitVec 7) (b : BitVec 7) (u : Bool) (s : State) : Out :=
  alu (.cvtscMul d a b u) u d (fun e => [scaleMul (e.v32 a) ((e.y.v32 b).toNat % 256)]) s

/-- CVTSC.exp (R92, R144). -/
def execCvtscExp (d : BitVec 7) (a : BitVec 7) (n : BitVec 4) (u : Bool) (s : State) : Out :=
  alu (.cvtscExp d a n u) u d (fun e => [BitVec.ofNat 32 (scaleExp n (e.v32 a))]) s

end Sys2Proof.Machine
end

