-- ==== Sys2Proof/Machine/CopyEntry.lean ====
section
/-!
DEFINITION. CopyEntry.lean: the fields of a copy entry and its tensor descriptor (R322 to R331), the mapping of
coordinates and the conversion of elements.
-/
namespace Sys2Proof.Machine

/-- Bits [lo+n-1:lo] of entry word k (R322). -/
def Copy.field (c : Copy) (k lo n : Nat) : Nat := (c.entry.getD k 0).toNat / 2 ^ lo % 2 ^ n

def Copy.opc (c : Copy) : Nat := c.field 0 60 4
def Copy.fence (c : Copy) : Bool := decide (c.field 0 59 1 = 1)
def Copy.ssp (c : Copy) : Nat := c.field 0 57 2
def Copy.src (c : Copy) : Nat := c.field 0 0 57
def Copy.bmode (c : Copy) : Nat := c.field 1 62 2
def Copy.dsp (c : Copy) : Nat := c.field 1 60 2
def Copy.dst (c : Copy) : Nat := c.field 1 0 57
def Copy.conv (c : Copy) : Nat := c.field 2 60 4
def Copy.baren (c : Copy) : Bool := decide (c.field 2 51 1 = 1)
def Copy.bar (c : Copy) : Nat := c.field 2 32 19
def Copy.descAt (c : Copy) : Nat := c.field 2 0 19
def Copy.bmen (c : Copy) : Bool := decide (c.field 3 19 1 = 1)
def Copy.bmap (c : Copy) : Nat := c.field 3 0 19

/-- Bits [lo+n-1:lo] of descriptor word k: words 0 to 3 the header, then four words a dimension (R323). -/
def Copy.dfield (c : Copy) (k lo n : Nat) : Nat := (c.desc.getD k 0).toNat / 2 ^ lo % 2 ^ n

/-- A number of n bits as signed. -/
def signedOf (n v : Nat) : Int := if v < 2 ^ (n - 1) then (v : Int) else (v : Int) - ((2 ^ n : Nat) : Int)

def Copy.rank (c : Copy) : Nat := c.dfield 0 0 4
def Copy.stype (c : Copy) : Nat := c.dfield 0 4 5
def Copy.dtype (c : Copy) : Nat := c.dfield 0 9 5
def Copy.rep (c : Copy) : Bool := decide (c.dfield 0 14 1 = 1)
def Copy.scaled (c : Copy) : Bool := decide (c.dfield 0 15 1 = 1)
def Copy.scb (c : Copy) : Nat := c.dfield 1 0 64
def Copy.org (c : Copy) (k : Nat) : Int := signedOf 32 (c.dfield (4 + 4 * k) 32 32)
def Copy.ext (c : Copy) (k : Nat) : Nat := c.dfield (4 + 4 * k) 0 32
def Copy.scs (c : Copy) (k : Nat) : Int := signedOf 32 (c.dfield (5 + 4 * k) 32 32)
def Copy.box (c : Copy) (k : Nat) : Nat := c.dfield (5 + 4 * k) 0 32
def Copy.sstr (c : Copy) (k : Nat) : Int := signedOf 64 (c.dfield (6 + 4 * k) 0 64)
def Copy.dstr (c : Copy) (k : Nat) : Int := signedOf 64 (c.dfield (7 + 4 * k) 0 64)

/-- Bits of an element type (R328). -/
def typeBits (t : Nat) : Option Nat :=
  match t with
  | 0 => some 8 | 1 => some 16 | 2 => some 32 | 3 => some 64 | 4 => some 128
  | 0x08 => some 32
  | 0x14 => some 4 | 0x15 => some 16 | 0x16 => some 16 | 0x1A => some 4 | 0x1B => some 4
  | _ => if 0x10 ≤ t ∧ t ≤ 0x19 then some 8 else none

/-- Bits of a source element. -/
def Copy.srcBits (c : Copy) : Nat := (typeBits c.stype).getD 8

/-- Bits of a destination element (R329). -/
def Copy.dstBits (c : Copy) : Nat :=
  if c.conv = 1 then 16 else if c.conv = 2 then 32 else if c.conv = 3 ∨ c.conv = 4 then (typeBits c.dtype).getD 8 else c.srcBits

/-- Elements of the box (R325). -/
def Copy.count (c : Copy) : Nat := (List.range c.rank).foldl (fun n k => n * c.box k) 1

/-- Bytes of the stream (R325). -/
def Copy.len (c : Copy) : Nat := c.count * c.dstBits / 8

/-- Bytes of a unit: one element, two of 4 bits, or half of one of 16 bytes (R333). -/
def Copy.unitBytes (c : Copy) : Nat := if c.dstBits = 4 then 1 else if c.dstBits = 128 then 8 else c.dstBits / 8

/-- Units of the stream. -/
def Copy.units (c : Copy) : Nat := if c.dstBits = 4 then c.count / 2 else if c.dstBits = 128 then 2 * c.count else c.count

/-- The element, or the first of two, that unit u holds. -/
def Copy.elemOf (c : Copy) (u : Nat) : Nat := if c.dstBits = 4 then 2 * u else if c.dstBits = 128 then u / 2 else u

/-- Where in its element a unit begins. -/
def Copy.halfOf (c : Copy) (u : Nat) : Nat := if c.dstBits = 128 then 8 * (u % 2) else 0

/-- Chunks of 512 bytes of the stream (R331). -/
def Copy.chunks (c : Copy) : Nat := (c.len + 511) / 512

/-- The tile ring it feeds (R322). -/
def Copy.tileRing (c : Copy) : Option Nat := if c.opc ≠ 0 ∧ c.dsp = 2 then some (c.dst % 8) else none

/-- Index vector of element i in box order (R325). -/
def Copy.index? (c : Copy) (i : Nat) : List Nat :=
  ((List.range c.rank).foldl (fun (a : Nat × List Nat) k => (a.1 / c.box k, a.2 ++ [a.1 % c.box k])) (i, [])).2

/-- A mirrored coordinate (R327). -/
def mirror (rep : Bool) (x : Int) (e : Nat) : Nat :=
  if rep then
    let m := (x % ((2 * e : Nat) : Int)).toNat
    if m < e then m else 2 * e - 1 - m
  else if e = 1 then 0
  else
    let m := (x % ((2 * e - 2 : Nat) : Int)).toNat
    if m < e then m else 2 * e - 2 - m

/-- The tensor coordinate of element i; none where BMODE 2 makes it zero (R327). -/
def Copy.coord (c : Copy) (i : Nat) : Option (List Nat) :=
  ((c.index? i).zipIdx).mapM (fun b =>
    let x := c.org b.2 + b.1
    if 0 ≤ x ∧ x < c.ext b.2 then some x.toNat
    else if c.bmode = 2 then none
    else some (mirror c.rep x (c.ext b.2)))

/-- A sum over dimensions from `first` on. -/
def Copy.sumFrom (first : Nat) (xs : List Nat) (f : Nat → Int) : Int :=
  (xs.zipIdx).foldl (fun n x => if first ≤ x.2 then n + x.1 * f x.2 else n) 0

/-- Source address of a coordinate (R325). -/
def Copy.srcAddr (c : Copy) (xs : List Nat) : Int :=
  if c.srcBits = 4 then c.src + (xs.headD 0 / 2 : Nat) + Copy.sumFrom 1 xs c.sstr else c.src + Copy.sumFrom 0 xs c.sstr

/-- Destination address of a unit's element, in memory or local store (R325). -/
def Copy.dstAddr (c : Copy) (u : Nat) : Int :=
  let xs := c.index? (c.elemOf u)
  if c.dstBits = 4 then c.dst + (xs.headD 0 / 2 : Nat) + Copy.sumFrom 1 xs c.dstr else c.dst + Copy.sumFrom 0 xs c.dstr

/-- Address of the block scale of a coordinate (R330). -/
def Copy.scaleAddr (c : Copy) (xs : List Nat) : Int := c.scb + (xs.headD 0 / 32 : Nat) + Copy.sumFrom 1 xs c.scs

/-- The exact value of a narrow element (R89, R329). -/
def narrowVal (n : BitVec 4) (v : Nat) : FVal :=
  match narrowFmt n with
  | some f => f.decode v
  | none =>
    if n = 7 then e8m0Val v
    else let x := intOf (narrowSigned n) (narrowWidth n) v
      .fin (decide (x < 0)) x.natAbs 0

/-- An element converted (R329, R330): its bits and, where SCALED is 1, the E8M0 code of its block. -/
def Copy.convert (c : Copy) (v scale : Nat) : Nat :=
  if c.conv = 0 then v
  else if c.conv = 1 ∨ c.conv = 2 then
    let x := narrowVal (BitVec.ofNat 4 (c.stype - 0x10)) v
    (if c.conv = 1 then Fmt.bf16 else Fmt.f32).round .rne (if c.scaled then x.mul (e8m0Val scale) else x)
  else packElt (BitVec.ofNat 4 (c.dtype - 0x10)) .rne (decide (c.conv = 4)) (BitVec.ofNat 32 (if c.stype = 8 then v else v * 65536))

/-- Coordinates of dimension k among those the entry reads, the first three at most: they differ if any two do (R325,
R327). -/
def Copy.someCoords (c : Copy) (k : Nat) : List Nat :=
  let lo := c.org k
  let hi := c.org k + c.box k
  if c.bmode = 1 then (List.range (min 3 (c.box k))).map (fun (i : Nat) => mirror c.rep (lo + (i : Int)) (c.ext k))
  else
    let a := (max lo 0).toNat
    let b := (min hi (c.ext k)).toNat
    (List.range (min 3 (b - a))).map (fun i => a + i)

/-- Index components of dimension k, likewise. -/
def Copy.someIndices (c : Copy) (k : Nat) : List Nat := List.range (min 3 (c.box k))

/-- An element of n bytes that is not aligned shows from a base and its strides: a stride that is off in a dimension of
which several coordinates are reached, or a base that is off and no stride to mend it (R326). (DESIGN CHOICE, log 31) -/
def Copy.misaligned (c : Copy) (base n : Nat) (stride : Nat → Int) (coords : Nat → List Nat) : Bool :=
  let dims := List.range c.rank
  let off := fun (k : Nat) => decide (stride k % (n : Int) ≠ 0)
  !dims.any (fun k => (coords k).isEmpty) &&
    (dims.any (fun k => off k && decide (1 < ((coords k).eraseDups).length)) ||
      (decide (base % n ≠ 0) && !dims.any (fun k => off k && (coords k).any (fun x => decide (x ≠ 0)))))

/-- Read n words of local store. -/
def Team.words (t : Team) (off n : Nat) : List DWord := (List.range n).map (fun i => BitVec.ofNat 64 (t.readNum (off + 8 * i) 8))

/-- The entry at index i of ring r with its descriptor, as local store holds them (R317, R319, R323). -/
def Team.copyAt (t : Team) (r i : Nat) : Copy :=
  let g := t.latched.getD r (0, 0)
  let c : Copy := { id := 0, launch := t.launch, team := t.idx, ring := r, index := i, entry := t.words (g.1 + 32 * (i % 2 ^ g.2)) 4 }
  let h := { c with desc := t.words c.descAt 4 }
  { h with desc := t.words c.descAt (4 + 4 * h.rank) }

/-- The entry or its descriptor has bytes in [off, off+n) (R319). -/
def Copy.touched (c : Copy) (t : Team) (off n : Nat) : Bool :=
  let meets := fun (a k : Nat) => decide (a < off + n) && decide (off < a + k)
  let g := t.latched.getD c.ring (0, 0)
  meets (g.1 + 32 * (c.index % 2 ^ g.2)) 32 || (decide (c.opc ≠ 0) && meets c.descAt (32 + 32 * c.rank))

/-- Its bitmap has bytes in [off, off+n) (R334). -/
def Copy.mapTouched (c : Copy) (off n : Nat) : Bool :=
  decide (c.opc ≠ 0) && c.bmen && !c.complete && decide (c.bmap < off + n) && decide (off < c.bmap + (c.chunks + 7) / 8)

/-- Bytes of its bitmap: for a tile ring the 16 bits of every tile (R332, R334). -/
def Copy.mapBytes (c : Copy) : Nat := if c.dsp = 2 then 2 * ((c.len + 8191) / 8192) else (c.chunks + 7) / 8

end Sys2Proof.Machine
end

