-- ==== Sys2Proof/Machine/Rind.lean ====
section
/-!
DEFINITION. Rind.lean: what a home holds: the rind cache's blocks over HBM, its banks and sets, fills and evictions
(R255 to R268, R439), reading and writing bytes at their home (R188), and the L1 of a core (R190 to R193). Scratch
locations (log 7) have no block: their bank holds the byte itself.
-/
namespace Sys2Proof.Machine

/-! ### Leaves -/

/-- Grain of a page in bytes (R229). -/
def grainOf (leaf : DWord) : Nat :=
  let g := (leaf.extractLsb' 8 2).toNat
  if g = 0 then 32 else if g = 1 then 128 else 512

/-- Coherence mode of a page: 0 C, 1 U, 2 R (R229). -/
def modeOf (leaf : DWord) : Nat := (leaf.extractLsb' 5 2).toNat

/-- The page has scope ISLAND (R229). -/
def isIsland (leaf : DWord) : Bool := leaf.getLsbD 7

/-- Read, write and execute permission, ACC and TR (R229). -/
def mayRead (leaf : DWord) : Bool := leaf.getLsbD 2
def mayWrite (leaf : DWord) : Bool := leaf.getLsbD 3
def mayExecute (leaf : DWord) : Bool := leaf.getLsbD 4
def mayAccumulate (leaf : DWord) : Bool := leaf.getLsbD 14
def inTransition (leaf : DWord) : Bool := leaf.getLsbD 15

/-- Physical address of a virtual address of the page. -/
def Tr.phys (t : Tr) (va : Nat) : Nat := t.pa + (va - t.page)

/-- Home die of the page (R188). -/
def Tr.home (t : Tr) : Nat := dieOfPa t.pa

/-! ### The mailbox window -/

/-- First byte of the mailbox window (R426). -/
def State.mailbox (s : State) : Nat := if s.mailboxMoved then 0x001D803FF0000000 else 0x0000003FF0000000

/-- The address lies in the mailbox window, which no L1 sector and no rind block ever holds (R426, R427). -/
def State.inMailbox (s : State) (pa : Nat) : Bool := decide (s.mailbox ≤ pa) && decide (pa < s.mailbox + 2 ^ 28)

/-- A leaf as it behaves: mode U and scope ISLAND where its frame lies in the mailbox window (R427). -/
def State.leafAs (s : State) (pa : Nat) (leaf : DWord) : DWord :=
  if s.inMailbox pa then leaf &&& ~~~(0xE0 : DWord) ||| 0xA0 else leaf

/-! ### Bytes at rest -/

/-- Bytes of memory: HBM, or die scratch (DESIGN CHOICE, log 1). Bits [46:0] of a die's address all name storage, also
at and beyond the 256 GiB of R15 (DESIGN CHOICE, log 67). -/
def State.hbm (s : State) (pa n : Nat) : List Byte := (List.range n).map (fun i => Cells.get 0 s.mem (pa + i))

/-- Write bytes of memory. -/
def State.setHbm (s : State) (pa : Nat) (bs : List Byte) : State :=
  { s with mem := (bs.zipIdx).foldl (fun m x => Cells.set 0 m (pa + x.2) x.1) s.mem }

/-! ### Banks and sets -/

/-- Banks of die d in the cache role, ascending (R256). -/
def cacheBanks (x : Die) : List Nat := (List.range 32).filter (fun b => decide ((x.brole.getD b {}).role = 0))

/-- Bank of a frame on a die (R262, log 6). -/
def bankOf (x : Die) (frame : Nat) : Nat :=
  let bs := cacheBanks x
  bs.getD ((Config.bankSet bs.length frame).1 % (if bs.length = 0 then 1 else bs.length)) 0

/-- Two frames fall in one bank and set: the same frame, or frames of different aligned 64 KiB that the hash puts
together (R262, log 6). -/
def sameSet (x : Die) (f f' : Nat) : Bool :=
  decide (f = f') ||
    (decide (f / 16 ≠ f' / 16) &&
      decide (bankOf x f = bankOf x f') &&
      decide ((Config.bankSet (cacheBanks x).length f).2 % 6144 = (Config.bankSet (cacheBanks x).length f').2 % 6144))

/-- Units of 32 bytes a block occupies (R262). -/
def Block.units (b : Block) : Nat := (b.hi + 1 - b.lo) * b.grain / 32

/-- Physical address of a byte of a range, by the pages it has pinned (R273). -/
def Range.phys (r : Range) (va : Nat) : Option Nat :=
  (r.trs.find? (fun t => decide (t.page ≤ va) && decide (va < t.page + t.size))).map (fun t => t.phys va)

/-- The range is open or closing: its bytes are held in accumulating blocks (R271, R280). -/
def Range.live (r : Range) : Bool := decide (r.st = .open) || decide (r.st = .closing)

/-- The accumulating element that holds a byte, if any: range and element (R209, R271). A SAVED range has given its blocks
up (R281): its bytes then read as their homes hold them, from before the open. (DESIGN CHOICE, log 77) -/
def State.rangeAt (s : State) (pa : Nat) : Option (Range × Nat) :=
  s.ranges.findSome? (fun r =>
    if r.live then
      r.trs.findSome? (fun t =>
        let va := t.page + (pa - t.pa)
        if t.pa ≤ pa ∧ pa < t.pa + t.size ∧ r.base ≤ va ∧ va < r.base + r.len then
          some (r, (va - r.base) / (if r.fmt64 then 8 else 4))
        else none)
    else none)

/-- An accumulating block holds a byte of [pa, pa+n): ranges are whole sectors (R271, R285). -/
def State.accumulating (s : State) (pa n : Nat) : Bool :=
  !s.ranges.isEmpty && (List.range ((pa + n - 1) / 32 + 1 - pa / 32)).any (fun i => (s.rangeAt (32 * (pa / 32 + i))).isSome)

/-- The range has accumulating blocks on a frame whose grain is not `grain` (R262). -/
def Range.otherGrain (r : Range) (frame grain : Nat) : Bool :=
  r.live && r.trs.any (fun t =>
    let va := t.page + (frame * 4096 - t.pa)
    decide (t.pa ≤ frame * 4096) && decide (frame * 4096 < t.pa + t.size) && decide (va < r.base + r.len) &&
      decide (r.base < va + 4096) && decide (grainOf t.leaf ≠ grain))

/-- Virtual frame numbers that a range meets. -/
def Range.frames (r : Range) : List Nat :=
  (List.range ((r.base + r.len - 1) / 4096 + 1 - r.base / 4096)).map (fun i => r.base / 4096 + i)

/-- Physical frame and units of a range in one of its virtual frames (R271). -/
def Range.part (r : Range) (vf : Nat) : Option (Nat × Nat) :=
  let lo := max r.base (vf * 4096)
  let hi := min (r.base + r.len) (vf * 4096 + 4096)
  (r.phys lo).map (fun p => (p / 4096, (hi - lo) / 32))

/-- Frames and units of a range (R271). -/
def Range.parts (r : Range) : List (Nat × Nat) := r.frames.filterMap r.part

/-- Units and tags that accumulating blocks hold in the set of frame f of die d (R279). -/
def accHeld (s : State) (d f : Nat) : Nat × Nat :=
  let x := s.die d
  s.ranges.foldl (fun a r =>
    if r.live && decide ((r.trs.headD { page := 0, size := 0, pa := 0, leaf := 0 }).home / 2 = d / 2) then
      r.parts.foldl (fun a p =>
        if decide (dieOfPa (p.1 * 4096) = d) && sameSet x f p.1 then (a.1 + p.2, a.2 + 1) else a) a
    else a) (0, 0)

/-! ### Blocks -/

/-- Die whose rind holds a block copy of physical address pa for a reader on die d. -/
def Block.holds (b : Block) (frame g : Nat) (replica : Bool) : Bool :=
  decide (b.frame = frame) && decide (b.lo ≤ g) && decide (g ≤ b.hi) && decide (b.replica = replica)

/-- The block of die d that holds grain g of a frame. -/
def Die.blockAt (x : Die) (frame g : Nat) (replica : Bool) : Option Block := x.blocks.find? (fun b => b.holds frame g replica)

/-- Write a block's dirty grains to HBM (R262, R266, R291). -/
def State.writeBack (s : State) (b : Block) : State :=
  b.dirty.foldl (fun s g =>
    s.setHbm (b.frame * 4096 + g * b.grain) ((List.range b.grain).map (fun i => Cells.get 0 b.data (g * b.grain + i)))) s

/-- Drop the blocks of die d that satisfy `p`, dirty grains written to HBM first. -/
def State.dropBlocks (s : State) (d : Nat) (p : Block → Bool) : State :=
  let out := (s.die d).blocks.filter p
  (out.foldl (fun s b => s.writeBack b) s).modDie d (fun x => { x with blocks := x.blocks.filter (fun b => !p b) })

/-- Ordinary units and tags in the set of a frame. -/
def blockHeld (x : Die) (f : Nat) : Nat × Nat :=
  x.blocks.foldl (fun a b => if sameSet x f b.frame then (a.1 + b.units, a.2 + 1) else a) (0, 0)

/-- The least recently used ordinary block in the set of a frame. -/
def lruBlock (x : Die) (f : Nat) : Option Block :=
  (x.blocks.filter (fun b => sameSet x f b.frame)).foldl (fun a b =>
    match a with
    | none => some b
    | some c => some (if b.age < c.age then b else c)) none

/-- A block that new grains `b` join: of the same frame, and next to them (R264). -/
def Block.beside (b c : Block) : Bool :=
  decide (c.frame = b.frame) && decide (c.replica = b.replica) && decide (c.grain = b.grain) &&
    (decide (c.hi + 1 = b.lo) || decide (b.hi + 1 = c.lo))

/-- Units of a frame's set that are in use, accumulating blocks included. -/
def unitsUsed (s : State) (d f : Nat) : Nat := (accHeld s d f).1 + (blockHeld (s.die d) f).1

/-- Tags of a frame's set that are in use. -/
def tagsUsed (s : State) (d f : Nat) : Nat := (accHeld s d f).2 + (blockHeld (s.die d) f).2

/-- The set has a tag for new grains `b`, which take those of the blocks they join (R264). -/
def tagFor (d : Nat) (b : Block) (s : State) : Bool :=
  decide (tagsUsed s d b.frame + 1 ≤ 16 + ((s.die d).blocks.filter b.beside).length)

/-- The set has the units and the tag for new grains `b` (R264). -/
def fitsNew (d : Nat) (b : Block) (s : State) : Bool := decide (unitsUsed s d b.frame + b.units ≤ 128) && tagFor d b s

/-- What the set of a frame holds stays within its 128 units and 16 tags (R262, R279). -/
def fitsHeld (d f : Nat) (s : State) : Bool := decide (unitsUsed s d f ≤ 128) && decide (tagsUsed s d f ≤ 16)

/-- Evict whole blocks of a frame's set, least recently used first, until `ok` (R266). -/
def evictFor (d f : Nat) (ok : State → Bool) : Nat → State → State
  | 0, s => s
  | n + 1, s =>
    if ok s then s
    else match lruBlock (s.die d) f with
      | none => s
      | some v => evictFor d f ok n (s.dropBlocks d (fun c => c == v))

/-- The set can hold at least one more grain, whatever ordinary blocks it holds (R264, R439), and the frame has no
accumulating blocks of another grain, which keep an access from allocating as well (R262). -/
def roomFor (s : State) (d f grain : Nat) : Bool :=
  let acc := accHeld s d f
  decide (acc.1 + grain / 32 ≤ 128) && decide (acc.2 + 1 ≤ 16) && !s.ranges.any (fun r => r.otherGrain f grain)

/-- Join a new block with its neighbours of the same frame (R264). -/
def joinBlock (bs : List Block) (b : Block) : List Block :=
  let ns := bs.filter b.beside
  ns.foldl (fun a c => { a with
      lo := min a.lo c.lo, hi := max a.hi c.hi, dirty := a.dirty ++ c.dirty
      data := c.data.foldl (fun m e => Cells.set 0 m e.1 e.2) a.data }) b :: bs.filter (fun c => !b.beside c)

/-- The byte at its home: the latest value in coherence order (R188). -/
def State.homeByte (s : State) (pa : Nat) : Byte :=
  if isScratch pa then Cells.get 0 s.mem pa
  else
    match (s.die (dieOfPa pa)).blocks.find? (fun b =>
      decide (b.frame = pa / 4096) && decide (!b.replica) && decide (b.lo ≤ pa % 4096 / b.grain) &&
        decide (pa % 4096 / b.grain ≤ b.hi)) with
    | some b => Cells.get 0 b.data (pa % 4096)
    | none => Cells.get 0 s.mem pa

/-- Install grains lo to hi of a frame on die d from HBM, as far as they fit (R264, R266). -/
def State.install (s : State) (d frame lo hi grain : Nat) (replica : Bool) : State :=
  let want : Block := { frame := frame, lo := lo, hi := hi, grain := grain, replica := replica }
  let s1 := evictFor d frame (fitsNew d want) 17 s
  let fit := (128 - unitsUsed s1 d frame) * 32 / grain
  let hi' := min hi (lo + fit - 1)
  if fit = 0 ∨ tagFor d { want with hi := hi' } s1 = false then s1
  else
    let adr := frame * 4096 + lo * grain
    let bytes := if replica then (List.range ((hi' + 1 - lo) * grain)).map (fun i => s1.homeByte (adr + i))
      else s1.hbm adr ((hi' + 1 - lo) * grain)
    let data := bytes.zipIdx.foldl (fun m e => Cells.set 0 m (lo * grain + e.2) e.1) []
    let b : Block := { want with hi := hi', data := data, age := s1.nextId }
    { s1.modDie d (fun x => { x with blocks := joinBlock x.blocks b }) with nextId := s1.nextId + 1 }

/-- Mark a block used now. -/
def State.touchBlock (s : State) (d frame g : Nat) (replica : Bool) : State :=
  { s.modDie d (fun x => { x with
      blocks := updWhere (fun b => b.holds frame g replica) (fun b => { b with age := s.nextId }) x.blocks }) with
    nextId := s.nextId + 1 }

/-- An access through a page of another grain size first writes back and drops the frame's blocks (R262). -/
def State.matchGrain (s : State) (d frame grain : Nat) : State :=
  s.dropBlocks d (fun b => decide (b.frame = frame) && decide (b.grain ≠ grain))

/-! ### Bytes at their home -/

/-- n bytes at their home. -/
def State.homeBytes (s : State) (pa n : Nat) : List Byte := (List.range n).map (fun i => s.homeByte (pa + i))

/-- The bytes other than zero among n bytes at their home, by distance from the first (R188). -/
def State.homeCells (s : State) (pa n : Nat) : Cells Byte :=
  let among := fun (k : Nat) => decide (pa ≤ k) && decide (k < pa + n)
  let blocks := if isScratch pa then [] else (s.die (dieOfPa pa)).blocks.filter (fun b =>
    !b.replica && decide (b.frame * 4096 < pa + n) && decide (pa < b.frame * 4096 + 4096))
  let holds := fun (b : Block) (k : Nat) =>
    decide (b.frame = k / 4096) && decide (b.lo ≤ k % 4096 / b.grain) && decide (k % 4096 / b.grain ≤ b.hi)
  let near := blocks.flatMap (fun b => (b.data.map (fun e => (b.frame * 4096 + e.1, e.2))).filter (fun e => among e.1 && holds b e.1))
  let far := s.mem.filter (fun e => among e.1 && !blocks.any (fun b => holds b e.1))
  near.foldr (fun e m => Cells.insert m (e.1 - pa) e.2) (far.map (fun e => (e.1 - pa, e.2)))

/-- A little-endian number at its home. -/
def State.homeNum (s : State) (pa n : Nat) : Nat := numOf (s.homeBytes pa n)

/-- A block of die d holds grain g of a frame: an ordinary one, or at the home an accumulating one (R262, R264, R271). -/
def State.grainHeld (s : State) (d frame g grain : Nat) (replica : Bool) : Bool :=
  ((s.die d).blockAt frame g replica).isSome || (!replica && s.accumulating (frame * 4096 + g * grain) grain)

/-- The home holds the grain of pa (R263). -/
def State.held (s : State) (pa grain : Nat) : Bool :=
  isScratch pa || s.inMailbox pa || s.grainHeld (dieOfPa pa) (pa / 4096) (pa % 4096 / grain) grain false

/-- Change a range. -/
def State.modRange (s : State) (i : Nat) (f : Range → Range) : State := { s with ranges := updWhere (fun r => r.id == i) f s.ranges }

/-- An element whose value at the close is unpredictable, whatever becomes of it until then. -/
def Range.loseElem (r : Range) (e : Nat) : Range := if r.lost.contains e then r else { r with lost := e :: r.lost }

/-- Leave the accumulating elements that n bytes from pa meet unpredictable at close (R209). -/
def State.spoil (s : State) (pa n : Nat) : State :=
  (List.range n).foldl (fun s i =>
    match s.rangeAt (pa + i) with
    | none => s
    | some (r, e) => s.modRange r.id (fun r => r.loseElem e)) s

/-- The condition of a WAIT or IF on a word (R405). -/
def condHolds (cmp : Nat) (w64 : Bool) (word ref mask : DWord) : Bool :=
  let a := if w64 then word &&& mask else ((word &&& mask).setWidth 32).setWidth 64
  let b := if w64 then ref &&& mask else ((ref &&& mask).setWidth 32).setWidth 64
  let sa : Int := if w64 then a.toInt else (a.setWidth 32).toInt
  let sb : Int := if w64 then b.toInt else (b.setWidth 32).toInt
  match cmp with
  | 0 => a == b | 1 => a != b | 2 => b.ule a | 3 => a.ult b | 4 => decide (sb ≤ sa) | _ => decide (sa < sb)

/-- Test the armed watch entries of the home after a write that performs there: a satisfied one is freed and its queue
goes on (R415). -/
def State.watchTest (s : State) (pa n : Nat) : State :=
  let d := dieOfPa pa
  let hit := fun (w : Watch) =>
    decide (w.addr < pa + n) && decide (pa < w.addr + (if w.w64 then 8 else 4)) &&
      condHolds w.cmp w.w64 (BitVec.ofNat 64 (s.homeNum w.addr (if w.w64 then 8 else 4))) w.ref w.mask
  let done := (s.die d).watch.filter hit
  if done.isEmpty then s
  else
    let qs := done.map (·.queue)
    { s.modDie d (fun x => { x with watch := x.watch.filter (fun w => !hit w) }) with
      queues := updWhere (fun q => qs.contains q.q) (fun q => { q with stalled := false, busy := some q.next }) s.queues }

/-- Put bytes of one grain into the block that holds them, marking the grain dirty and the block used (R266). -/
def State.putBlock (s : State) (pa grain : Nat) (bs : List Byte) : State :=
  let g := pa % 4096 / grain
  let s1 := s.touchBlock (dieOfPa pa) (pa / 4096) g false
  s1.modDie (dieOfPa pa) (fun x => { x with
    blocks := updWhere (fun b => b.holds (pa / 4096) g false)
      (fun b => { b with
        dirty := if b.dirty.contains g then b.dirty else b.dirty ++ [g]
        data := bs.zipIdx.foldl (fun m e => Cells.set 0 m (pa % 4096 + e.2) e.1) b.data }) x.blocks })

/-- The grain of pa gets a block at its home where it has none: it is allocated where its set has room (R266, R439). The
access uses the block it finds (R266). -/
def State.useGrain (s : State) (pa grain : Nat) : State :=
  let d := dieOfPa pa
  let frame := pa / 4096
  let g := pa % 4096 / grain
  if isScratch pa || s.inMailbox pa then s
  else
    let s0 := s.matchGrain d frame grain
    if s0.held pa grain then s0.touchBlock d frame g false
    else if !roomFor s0 d frame grain then s0
    else s0.install d frame g g grain false

/-- Write those bytes straight to memory that no accumulating block holds. -/
def State.setOutside (s : State) (pa : Nat) (bs : List Byte) : State :=
  { s with mem := (bs.zipIdx.filter (fun x => (s.rangeAt (pa + x.2)).isNone)).foldl (fun m x => Cells.set 0 m (pa + x.2) x.1) s.mem }

/-- Write bytes of one grain at their home: the grain is allocated where its set has room (R266), else written straight
to HBM (R439). Scratch and the mailbox window have no blocks. A byte that an accumulating block holds leaves its element
unpredictable, with no other effect (R209). -/
def State.homeWrite (s : State) (pa grain : Nat) (bs : List Byte) : State :=
  let s0 := s.useGrain pa grain
  let s1 :=
    if ((s0.die (dieOfPa pa)).blockAt (pa / 4096) (pa % 4096 / grain) false).isSome && !isScratch pa then s0.putBlock pa grain bs
    else if s0.ranges.isEmpty then s0.setHbm pa bs
    else s0.setOutside pa bs
  (s1.spoil pa bs.length).watchTest pa bs.length

/-- Write bytes at their home grain by grain. -/
def State.homeWriteAll (s : State) (pa grain : Nat) (bs : List Byte) : State :=
  let first := grain - pa % grain
  if bs.length ≤ first then (if bs.isEmpty then s else s.homeWrite pa grain bs)
  else
    let s1 := s.homeWrite pa grain (bs.take first)
    let rest := bs.drop first
    (List.range ((rest.length + grain - 1) / grain)).foldl (fun s i =>
      s.homeWrite (pa + first + i * grain) grain ((rest.drop (i * grain)).take grain)) s1

/-! ### Fills -/

/-- A predictor entry: bit 3 the pin, bits [2:0] the length code (R268). -/
def predKey (x : Die) (frame : Nat) : Nat := 4096 * bankOf x frame + Config.predIndex frame % 4096

/-- Grains of a fill for a read without a hint (R263). -/
def predicted (x : Die) (frame : Nat) : Nat := 2 ^ ((Cells.get 0 x.predictor (predKey x frame)).toNat % 8)

/-- An unpinned entry learns from use (R268, log 6). -/
def Die.learn (x : Die) (frame g : Nat) : Die :=
  let k := predKey x frame
  let e := Cells.get 0 x.predictor k
  if e.getLsbD 3 then x else { x with predictor := Cells.set 0 x.predictor k ((Config.learned e.toNat g).setWidth 4) }

/-- A fill that is coming will bring grain g of a frame to die d. -/
def State.coming (s : State) (d frame g grain : Nat) (replica : Bool) : Bool :=
  s.fills.any (fun f => decide (f.die = d) && decide (f.frame = frame) && decide (f.grain = grain) && decide (f.replica = replica) &&
    decide (f.lo ≤ g) && decide (g ≤ f.hi))

/-- Request a fill of n grains from the grain of pa, trimmed at the first grain that a block holds, or that is on its way
already, and at the end of the frame (R263, R264, R265). Nothing is requested where the first grain is held or coming.
Blocks of another grain size do not count: the fill drops them (R262). -/
def State.requestFill (s : State) (d pa grain n : Nat) (replica : Bool) : State :=
  let frame := pa / 4096
  let g := pa % 4096 / grain
  let want := (List.range (min n (4096 / grain - g))).takeWhile (fun i =>
    !(s.matchGrain d frame grain).grainHeld d frame (g + i) grain replica && !s.coming d frame (g + i) grain replica)
  if s.inMailbox pa || want.isEmpty then s
  else
    { s with
      fills := s.fills ++ [{ id := s.nextId, die := d, frame := frame, lo := g, hi := g + want.length - 1, grain := grain, replica := replica }]
      nextId := s.nextId + 1 }

/-- An engine's read of n bytes from pa: it uses the grains held, and each maximal missing run of grains becomes one fill
request (R263, R265, R266). -/
def State.readFill (s : State) (pa n grain : Nat) : State :=
  if isScratch pa || n = 0 then s
  else
    let first := pa / grain
    (List.range ((pa + n - 1) / grain + 1 - first)).foldl (fun (s : State) i =>
      let a := (first + i) * grain
      let d := dieOfPa a
      let last := min ((pa + n - 1) / grain) (a / 4096 * (4096 / grain) + 4096 / grain - 1)
      if s.inMailbox a then s
      else
        let s0 := s.matchGrain d (a / 4096) grain
        if s0.held a grain then s0.touchBlock d (a / 4096) (a % 4096 / grain) false
        else if !roomFor s0 d (a / 4096) grain then s0
        else s0.requestFill d a grain (last + 1 - a / grain) false) s

/-- A walk reads a table entry at its home (R263): the grain is asked for, or, where the home holds it, used; either
happens when the request is served. -/
def State.walkRead (s : State) (adr : Nat) : State :=
  let d := dieOfPa adr
  let g := adr % 4096 / 32
  if isScratch adr || s.inMailbox adr || s.coming d (adr / 4096) g 32 false then s
  else { s with
    fills := s.fills ++ [{ id := s.nextId, die := d, frame := adr / 4096, lo := g, hi := g, grain := 32, replica := false }]
    nextId := s.nextId + 1 }

/-- The fetched grains join the blocks beside them, as far as no block holds one by now; one whose first grain is held uses
that block; a fill that no longer fits, or that an accumulating set leaves no room for, is dropped (R264, R266, R439). -/
def State.completeFill (s : State) (f : Fill) : State :=
  let s1 := s.matchGrain f.die f.frame f.grain
  let held := fun g => s1.grainHeld f.die f.frame g f.grain f.replica
  let s2 :=
    if held f.lo then s1.touchBlock f.die f.frame f.lo f.replica
    else if !roomFor s1 f.die f.frame f.grain then s1
    else
      let run := (List.range (f.hi + 1 - f.lo)).takeWhile (fun i => !held (f.lo + i))
      s1.install f.die f.frame f.lo (f.lo + run.length - 1) f.grain f.replica
  { s2 with fills := s2.fills.filter (fun g => g.id != f.id) }

/-! ### The L1 -/

/-- Sectors that n bytes from pa meet. -/
def sectorsOf (pa n : Nat) : List Nat := (List.range ((pa + n - 1) / 32 + 1 - pa / 32)).map (fun i => pa / 32 + i)

/-- The L1 of a core has every sector of n bytes from pa. (DESIGN CHOICE, log 16) -/
def Core.hits (k : Core) (pa n : Nat) : Bool := (sectorsOf pa n).all (fun t => k.l1.any (fun x => x.tag == t))

/-- A byte the L1 holds. -/
def Core.l1Byte (k : Core) (pa : Nat) : Byte :=
  match k.l1.find? (fun x => x.tag == pa / 32) with
  | some x => x.data.getD (pa % 32) 0
  | none => 0

/-- Bytes the L1 holds. -/
def Core.l1Bytes (k : Core) (pa n : Nat) : List Byte := (List.range n).map (fun i => k.l1Byte (pa + i))

/-- Bytes read from pa with those of open ranges unpredictable (R209). -/
def State.maskOpen (s : State) (pa key : Nat) (bs : List Byte) : List Byte :=
  let fresh := s.freeBytes key bs.length
  bs.zipIdx.map (fun x => if (s.rangeAt (pa + x.2)).isSome then fresh.getD x.2 0 else x.1)

/-- Overwrite bytes in a list that starts at address a. -/
def overlay (a : Nat) (old : List Byte) (pa : Nat) (bs : List Byte) : List Byte :=
  (old.zipIdx).map (fun x => if pa ≤ a + x.2 ∧ a + x.2 < pa + bs.length then bs.getD (a + x.2 - pa) 0 else x.1)

/-- A store updates every valid sector it covers (R191). -/
def Core.l1Store (k : Core) (pa : Nat) (bs : List Byte) : Core :=
  { k with
    l1 := updWhere (fun x => (sectorsOf pa bs.length).contains x.tag)
      (fun x => { x with data := overlay (32 * x.tag) x.data pa bs }) k.l1 }

/-- A hit or a fill makes the line of pa the most recently used of its set (R191). -/
def Core.l1Touch (k : Core) (pa age : Nat) : Core :=
  { k with l1 := updWhere (fun x => x.tag / 16 == pa / 512) (fun x => { x with age := age }) k.l1 }

/-- Lines of the set of line `n`, other than `n` (R191: bits [14:9]). -/
def Core.setLines (k : Core) (n : Nat) : List Nat :=
  ((k.l1.map (fun x => x.tag / 16)).filter (fun l => decide (l % 64 = n % 64) && decide (l ≠ n))).eraseDups

/-- The least recently used of some lines. (DESIGN CHOICE, log 16) -/
def Core.lruLine (k : Core) (ls : List Nat) : Option Nat :=
  let age := fun l => (k.l1.filter (fun x => x.tag / 16 == l)).foldl (fun a x => max a x.age) 0
  ls.foldl (fun a l => match a with
    | none => some l
    | some m => some (if age l < age m then l else m)) none

/-- Install sectors from a grain that starts at pa: a full set first gives up its least recently used line (R191).
(DESIGN CHOICE, log 16) -/
def Core.l1Install (k : Core) (pa : Nat) (bs : List Byte) (dead : List Nat) (rpage : Bool) (age : Nat) : Core :=
  let tags := (sectorsOf pa bs.length).filter (fun t => !dead.contains t)
  if tags.isEmpty then k
  else
    let others := k.setLines (pa / 512)
    let k1 := if others.length < 8 then k
      else match k.lruLine others with
        | none => k
        | some v => { k with l1 := k.l1.filter (fun x => x.tag / 16 != v) }
    let new := tags.map (fun t => ({ tag := t, data := (bs.drop (32 * t - pa)).take 32, rpage := rpage, age := age } : Sector))
    ({ k1 with l1 := new ++ k1.l1.filter (fun x => !tags.contains x.tag) } : Core).l1Touch pa age

/-- Invalidate the sectors of core c that satisfy `p` (tag, R page); fills of them in flight install nothing (R192,
R193). -/
def State.invalidateL1 (s : State) (c : Nat) (p : Nat → Bool → Bool) : State :=
  let s1 := s.modCore c (fun k => { k with l1 := k.l1.filter (fun x => !p x.tag x.rpage) })
  { s1 with
    ops := s1.ops.map (fun o =>
      if ((s1.team? o.launch o.team).map (·.core)) == some c then
        { o with accs := o.accs.map (fun a =>
            match a.tr with
            | none => a
            | some t =>
              if a.st = .sent ∨ a.st = .served then
                let g := grainOf t.leaf
                let start := t.phys a.va / g * g
                { a with dead := a.dead ++ (sectorsOf start g).filter (fun x => p x (decide (modeOf t.leaf = 2))) }
              else a) }
      else o) }

/-- An acquire or a promotion: the whole L1 but lines of R pages (R201, R207). -/
def State.acquireL1 (s : State) (c : Nat) : State := s.invalidateL1 c (fun _ r => !r)

/-- The core's L1 may hold the line of pa on the page (R190); it never holds a byte of the mailbox window (R427). -/
def State.cacheable (s : State) (c : Nat) (t : Tr) (pa : Nat) : Bool :=
  t.scratch || (!s.inMailbox pa && (decide (modeOf t.leaf ≠ 1) || decide (t.home = dieOfCore c)))

end Sys2Proof.Machine
end

