-- ==== Sys2Proof/Machine/Page.lean ====
section
/-!
DEFINITION. Page.lean: translation (R225 to R236, R259, R260), what an access finds at its page (R240, R243), and the
checks of R211 steps 3 to 5.
-/
namespace Sys2Proof.Machine

/-- First address of the reserved window (R226). -/
def windowBase : Nat := 0x1FFFF0000000000

/-- What a lookup finds. -/
inductive Look where
  | present (t : Tr)
  | moving (t : Tr)                                        -- TR is 1: the page with its old attributes (R240, R250)
  | absent (page size fill : Nat) (entry : DWord) (at_ : Nat)   -- FILL policy, entry and its address; leaf or not
  deriving DecidableEq, Repr

/-- Reserved fields and encodings of a leaf that maps `size` bytes (R229, R230). -/
def leafOk (e : DWord) (size : Nat) : Bool :=
  !e.getLsbD 63 && decide (e.extractLsb' 48 12 = 0#12) && decide (e.toNat / 65536 % 2 ^ 32 * 65536 % size = 0) &&
    decide (modeOf e ≠ 3) && decide ((e.extractLsb' 8 2).toNat ≠ 3) && decide ((e.extractLsb' 10 3).toNat < 4)

/-- Reserved fields and alignment of a pointer to a table of `align` bytes (R227, R228, R230). -/
def pointerOk (e : DWord) (align : Nat) : Bool :=
  !e.getLsbD 63 && decide (e.extractLsb' 48 12 = 0#12) && decide (e.extractLsb' 2 6 = 0#6) &&
    decide (e.toNat / 256 % 2 ^ 40 * 256 % align = 0)

/-- The physical address that bits [47:lo] of an entry give on an island (R225). -/
def entryBase (isl : Nat) (e : DWord) (lo : Nat) : Nat := isl * 2 ^ 48 + e.toNat % 2 ^ 48 / 2 ^ lo * 2 ^ lo

/-- FILL of an entry (R228). -/
def fillOf (e : DWord) : Nat := (e.extractLsb' 60 3).toNat

/-- One level of the walk: how many address bits a leaf here leaves, the alignment of the table below, and how the
entry at `table` is indexed (R227). -/
structure Level where
  shift : Nat
  align : Nat
  leafAllowed : Bool
  nextAllowed : Bool

/-- The four levels (R227). -/
def levels : List Level :=
  [ { shift := 39, align := 4096, leafAllowed := false, nextAllowed := true },
    { shift := 30, align := 4096, leafAllowed := true, nextAllowed := true },
    { shift := 21, align := 256, leafAllowed := true, nextAllowed := true },
    { shift := 16, align := 1, leafAllowed := true, nextAllowed := false } ]

/-- A table entry as die d's walker reads it: from its cache of pointer entries, else at the home (R233, R235). -/
def State.tableEntry (s : State) (d launch adr : Nat) : DWord :=
  match (s.die d).walker.find? (fun w => w.1 == launch && w.2.1 == adr) with
  | some w => w.2.2
  | none => BitVec.ofNat 64 (s.homeNum adr 8)

/-- Walk the remaining levels (R227, R230, R427). `bits` is how many address bits the table at `table` indexes.
(DEDUCED, log 20) -/
def walkFrom (s : State) (d launch va : Nat) : List Level → Nat → Nat → Look
  | [], _, _ => .absent 0 65536 0 0 0
  | lv :: rest, bits, table =>
    let size := 2 ^ lv.shift
    let slot := va / size % 2 ^ bits
    let adr := table + 8 * slot
    let e := s.tableEntry d launch adr
    let page := va / size * size
    -- L0 maps no page: what is not present there is asked for by 64 KiB (R241)
    let out := fun (fill : Nat) => if lv.shift = 39 then Look.absent (va / 65536 * 65536) 65536 fill 0 0
      else Look.absent page size fill e adr
    if e.getLsbD 1 then
      if !lv.leafAllowed || !leafOk e size then out 0
      else if !e.getLsbD 0 then out (fillOf e)
      else
        let t : Tr := { page := page, size := size, pa := entryBase (d / 2) e 16, leaf := s.leafAs (entryBase (d / 2) e 16) e }
        if inTransition e then .moving t else .present t
    else
      if !lv.nextAllowed || !pointerOk e lv.align then out 0
      else if !e.getLsbD 0 then out (fillOf e)
      else walkFrom s d launch va rest (match rest with | [] => 0 | n :: _ => lv.shift - n.shift) (entryBase (d / 2) e 8)

/-- The island table root of a launch on a die (R225, R407). -/
def State.root (s : State) (launch d : Nat) : Nat := ((s.launch? launch).map (fun x => x.roots.getD d 0)).getD 0

/-- Walk the island table that die d keeps for the launch. (DEDUCED, log 20) -/
def State.walk (s : State) (d launch va : Nat) : Look := walkFrom s d launch va levels 18 (s.root launch d)

/-- The present pointer entries that a walk of the remaining levels goes through. -/
def pointersFrom (s : State) (d launch va : Nat) : List Level → Nat → Nat → List (Nat × Nat × DWord)
  | [], _, _ => []
  | lv :: rest, bits, table =>
    let adr := table + 8 * (va / 2 ^ lv.shift % 2 ^ bits)
    let e := s.tableEntry d launch adr
    if e.getLsbD 1 || !lv.nextAllowed || !pointerOk e lv.align || !e.getLsbD 0 then []
    else (launch, adr, e) ::
      pointersFrom s d launch va rest (match rest with | [] => 0 | n :: _ => lv.shift - n.shift) (entryBase (d / 2) e 8)

/-- The table addresses that a walk of the remaining levels reads (R227). -/
def walkReads (s : State) (d launch va : Nat) : List Level → Nat → Nat → List Nat
  | [], _, _ => []
  | lv :: rest, bits, table =>
    let adr := table + 8 * (va / 2 ^ lv.shift % 2 ^ bits)
    let e := s.tableEntry d launch adr
    if e.getLsbD 1 || !lv.nextAllowed || !pointerOk e lv.align || !e.getLsbD 0 then [adr]
    else adr :: walkReads s d launch va rest (match rest with | [] => 0 | n :: _ => lv.shift - n.shift) (entryBase (d / 2) e 8)

/-- A walk reads at their homes the table entries that the walker's cache does not hold, which asks for fills (R263), and
leaves its pointer entries in that cache (R235). (DESIGN CHOICE, log 21) -/
def State.noteWalk (s : State) (d launch va : Nat) : State :=
  let ps := pointersFrom s d launch va levels 18 (s.root launch d)
  let read := (walkReads s d launch va levels 18 (s.root launch d)).filter (fun a =>
    !(s.die d).walker.any (fun w => w.1 == launch && w.2.1 == a))
  (read.foldl State.walkRead s).modDie d (fun x => { x with
    walker := (ps ++ x.walker.filter (fun w => !ps.contains w)).take 256 })

/-- The bytes of the launch's die-scratch reservation (R259). -/
def State.scratchSize (s : State) (launch : Nat) : Nat := ((s.launch? launch).map (fun x => 65536 * x.bits 5 0 32)).getD 0

/-- The leaf that die scratch behaves as: mode C, scope DIE, grain 32, RD and W (R260). -/
def scratchLeaf : DWord := 0x0F

/-- The translation of a window address (R259, R260). (DESIGN CHOICE, log 7) -/
def State.scratchTr (s : State) (launch d : Nat) : Tr :=
  { page := windowBase, size := s.scratchSize launch, pa := scratchLoc launch d 0, leaf := scratchLeaf, scratch := true }

/-- A cached translation that maps va. -/
def Cached.maps (c : Cached) (launch va : Nat) : Bool :=
  c.launch == launch && decide (c.page ≤ va) && decide (va < c.page + c.size)

/-- The translation a cache entry stands for (R427). -/
def Cached.tr (c : Cached) (s : State) (isl : Nat) : Tr :=
  { page := c.page, size := c.size, pa := entryBase isl c.leaf 16, leaf := s.leafAs (entryBase isl c.leaf 16) c.leaf }

/-- The lookup of a core (R233): with a slot, its last-page register first; then the core TLB; then the walker. -/
def State.look (s : State) (c launch : Nat) (slot : Option (Nat × Nat)) (va : Nat) : Look :=
  let d := dieOfCore c
  if windowBase ≤ va then .present (s.scratchTr launch d)
  else
    let k := s.core c
    let last := slot.bind (fun p => (k.lastPage.find? (fun e => e.1 == p.1 && e.2.1 == p.2 && e.2.2.maps launch va)).map (·.2.2))
    match last with
    | some e => .present (e.tr s (d / 2))
    | none =>
      match k.tlb.find? (fun e => e.maps launch va) with
      | some e => .present (e.tr s (d / 2))
      | none => s.walk d launch va

/-- The lookup of the engines of a die (R235). -/
def State.engineLook (s : State) (d launch va : Nat) : Look :=
  if windowBase ≤ va then .present (s.scratchTr launch d)
  else
    match (s.die d).engineTlb.find? (fun e => e.maps launch va) with
    | some e => .present (e.tr s (d / 2))
    | none => s.walk d launch va

/-- Keep the newest n of a list. (DESIGN CHOICE, log 21) -/
def capped {α : Type} (n : Nat) (x : α) (l : List α) : List α := (x :: l).take n

/-- A lookup of a core that its TLB does not serve walks the table, and a present one fills the last-page register and the
TLB (R233, R234, R263). (DESIGN CHOICE, log 21) -/
def State.noteLook (s : State) (c launch : Nat) (slot : Option (Nat × Nat)) (l : Look) : State :=
  match l with
  | .present t =>
    if t.scratch then s
    else
      let e : Cached := { launch := launch, page := t.page, size := t.size, leaf := t.leaf }
      let s1 := if (s.core c).tlb.contains e then s else s.noteWalk (dieOfCore c) launch t.page
      s1.modCore c (fun k => { k with
        tlb := if k.tlb.contains e then k.tlb else capped 2048 e k.tlb
        lastPage := match slot with
          | none => k.lastPage
          | some p => (p.1, p.2, e) :: k.lastPage.filter (fun x => !(x.1 == p.1 && x.2.1 == p.2)) })
  | .moving t => s.noteWalk (dieOfCore c) launch t.page
  | .absent page _ _ _ _ => s.noteWalk (dieOfCore c) launch page

/-- A lookup of the engines that their TLB does not serve walks the table, and a present one fills that TLB (R235, R263).
(DESIGN CHOICE, log 21) -/
def State.noteEngine (s : State) (d launch : Nat) (l : Look) : State :=
  match l with
  | .present t =>
    if t.scratch then s
    else
      let e : Cached := { launch := launch, page := t.page, size := t.size, leaf := t.leaf }
      let s1 := if (s.die d).engineTlb.contains e then s else s.noteWalk d launch t.page
      s1.modDie d (fun x => { x with engineTlb := if x.engineTlb.contains e then x.engineTlb else capped 4096 e x.engineTlb })
  | .moving t => s.noteWalk d launch t.page
  | .absent page _ _ _ _ => s.noteWalk d launch page

/-- The kinds of access that permission depends on (R211). -/
inductive AccKind where
  | load | store | atomic
  deriving DecidableEq, Repr

/-- Step 3 of R211 fails: permission, and window addresses beyond the reservation (R259). -/
def badPermission (t : Tr) (k : AccKind) (va : Nat) : Bool :=
  (t.scratch && decide (t.page + t.size ≤ va)) ||
    match k with
    | .load => !mayRead t.leaf
    | .store => !mayWrite t.leaf
    | .atomic => !mayRead t.leaf || !mayWrite t.leaf

/-- Step 4 of R211 fails: mode R, or a DIE page of the other die. -/
def badMode (t : Tr) (k : AccKind) (d : Nat) : Bool :=
  (decide (k ≠ .load) && decide (modeOf t.leaf = 2)) || (!isIsland t.leaf && decide (t.home ≠ d))

/-- Steps 3 to 5 of R211 for a present page: the code of the first that fails. -/
def State.pageFault (s : State) (t : Tr) (k : AccKind) (va d : Nat) : Option Nat :=
  if badPermission t k va then some Code.accessFault
  else if badMode t k d then some Code.pageMode
  else if t.scratch then none
  else s.absentCode t.home

/-- The core's side log holds entries for the page of va (R243). -/
def Core.logged (k : Core) (launch va : Nat) : Bool :=
  k.sideLog.any (fun e => e.launch == launch && decide (e.page ≤ va) && decide (va < e.page + e.size))

/-- What an access does at step 6 of R211. -/
inductive Place where
  | go (t : Tr)
  | hold
  | log (page size : Nat)
  deriving DecidableEq, Repr

/-- Step 6 of R211 for an access, with R240 and R243: `plain` for a plain store or a reduction. -/
def State.place (s : State) (c launch : Nat) (slot : Option (Nat × Nat)) (va : Nat) (plain : Bool) : Place :=
  match s.look c launch slot va with
  | .present t => if !t.scratch && (s.core c).logged launch va then (if plain then .log t.page t.size else .hold) else .go t
  | .moving _ => .hold
  | .absent p n _ _ _ => if plain then .log p n else .hold

/-- One map request for each island and page, however many accesses meet it (R241). -/
def State.requestMap (s : State) (c launch va : Nat) (slot : Option (Nat × Nat)) : State :=
  match s.look c launch slot va with
  | .absent p n _ _ _ =>
    let d := dieOfCore c
    if s.mapReqs.any (fun r => r.isl == d / 2 && r.launch == launch && r.page == p) then s
    else
      { s with
        mapReqs := s.mapReqs ++ [{ id := s.nextId, isl := d / 2, launch := launch, page := p, size := n, die := d }]
        nextId := s.nextId + 1 }
  | _ => s

/-- The engines of a die ask for a page (R241). -/
def State.engineRequestMap (s : State) (d launch va : Nat) : State :=
  match s.engineLook d launch va with
  | .absent p n _ _ _ =>
    let s := s.noteWalk d launch p
    if s.mapReqs.any (fun r => r.isl == d / 2 && r.launch == launch && r.page == p) then s
    else
      { s with
        mapReqs := s.mapReqs ++ [{ id := s.nextId, isl := d / 2, launch := launch, page := p, size := n, die := d }]
        nextId := s.nextId + 1 }
  | _ => s

/-- The engines of die d ask for the page of an address even where it is mapped, for bytes that its log keeps (R241,
R248). -/
def State.logRequestMap (s : State) (d launch va : Nat) : State :=
  match s.engineLook d launch va with
  | .present t =>
    if s.mapReqs.any (fun r => r.isl == d / 2 && r.launch == launch && r.page == t.page) then s
    else
      { s with
        mapReqs := s.mapReqs ++ [{ id := s.nextId, isl := d / 2, launch := launch, page := t.page, size := t.size, die := d }]
        nextId := s.nextId + 1 }
  | _ => s.engineRequestMap d launch va

/-- The result of PQRY (R218, R219): a page that is mapped but still logged shows its attributes, and LOGGED 1.
(DEDUCED, log 73) -/
def State.pageQuery (s : State) (c launch : Nat) (slot : Option (Nat × Nat)) (va : Nat) : DWord :=
  let d := dieOfCore c
  let logged : DWord := if (s.core c).logged launch va then 0x1000000 else 0
  if 2 ^ 57 ≤ va then 0
  else match s.look c launch slot va with
    | .present t =>
      if t.scratch && decide (t.page + t.size ≤ va) then 0
      else
        let home := if t.scratch then d else t.home
        let size : Nat := if t.scratch then 0 else if t.size = 65536 then 0 else if t.size = 2 ^ 21 then 1 else 2
        let absent : Nat := if !t.scratch && (s.absentCode t.home).isSome then 1 else 0
        (BitVec.ofNat 64 ((t.leaf.toNat % 2 ^ 15) - (t.leaf.toNat % 4) + 1 + 2 ^ 15 * size + 2 ^ 17 * (home / 2) +
          2 ^ 22 * (home % 2) + 2 ^ 23 * absent)) ||| logged
    | _ => logged

end Sys2Proof.Machine
end

