-- ==== Sys2Proof/Machine/Bar.lean ====
section
/-!
DEFINITION. Bar.lean: the barrier object in local store and the operations that other engines and instructions apply to
it (R293 to R303).
-/
namespace Sys2Proof.Machine

/-! ### Fields -/

/-- Bits [lo+n-1:lo] of a number. -/
def fieldOf (x lo n : Nat) : Nat := x / 2 ^ lo % 2 ^ n

/-- Replace bits [lo+n-1:lo]. -/
def putField (x lo n v : Nat) : Nat := x - fieldOf x lo n * 2 ^ lo + v % 2 ^ n * 2 ^ lo

/-- A field of word w of the object at an offset (R294). -/
def Team.bar (t : Team) (off w lo n : Nat) : Nat := fieldOf (t.readNum (off + 8 * w) 8) lo n

/-- Write a field of the object. -/
def Team.setBar (t : Team) (off w lo n v : Nat) : Team :=
  t.write (off + 8 * w) (bytesOf (putField (t.readNum (off + 8 * w) 8) lo n v) 8)

/-- V (R294). -/
def Team.barValid (t : Team) (off : Nat) : Bool := decide (t.bar off 0 0 1 = 1)

/-- Current phase number of the local or remote section. -/
def Team.barPhase (t : Team) (off : Nat) (remote : Bool) : Nat := t.bar off (if remote then 2 else 0) 16 16

/-- Offset of a local address in its team's reservation (R194). -/
def localOff (addr : Nat) : Nat := addr % 2 ^ 19

/-! ### Waiters -/

/-- The group waits on this section of the object for phase p: a wait whose time-out has passed sees no completion
(R310). -/
def Group.waitsOn (g : Group) (off : Nat) (remote : Bool) (p : Nat) : Bool :=
  match g.wait with
  | .bwait a r q => decide (localOff a = off) && (r == remote) && decide (q = p)
  | .bsync a q left _ => decide (localOff a = off) && !remote && decide (q = p) && decide (left ≠ 1)
  | _ => false

/-- The group is blocked on the object. -/
def Group.blockedOn (g : Group) (off : Nat) : Bool :=
  match g.wait with
  | .bwait a _ _ => decide (localOff a = off)
  | .bsync a _ _ _ => decide (localOff a = off)
  | _ => false

/-- An operation applied to an object: a walk that found a wait on it stuck begins again (R314). -/
def State.stirBar (s : State) (L T off : Nat) : State :=
  { s with dies := s.dies.map (fun x => { x with waits := x.waits.filter (fun e =>
      !(e.launch == L && e.team == T && (match e.on with
        | .bar a _ _ => decide (localOff a = off)
        | _ => false))) }) }

/-- Release the waiters of a completed phase: each performs an acquire at CORE scope, and where MSEEN is 1 and the
section is local the core's L1 is invalidated (R297, R299). -/
def State.releaseWaiters (s : State) (L T off : Nat) (remote : Bool) (p : Nat) : State :=
  match s.team? L T with
  | none => s
  | some t =>
    let hit := fun (g : Group) => g.launch == L && g.team == T && g.waitsOn off remote p
    let s1 := if s.groups.any hit && !remote && decide (t.bar off 0 9 1 = 1) then s.acquireL1 t.core else s
    { s1 with
      groups := s1.groups.map (fun g =>
        let g1 := if hit g then { g with wait := .none } else g
        if g.launch == L && g.team == T && !remote then
          { g1 with bsyncs := g1.bsyncs.filter (fun b => !(b.1 == off && b.2.1 == p)) }
        else g1) }

/-- Release every group blocked on the object with BAR_INVAL, in class WAIT (R302, R303). -/
def State.invalidateWaiters (s : State) (L T off : Nat) : State :=
  (s.groups.filter (fun g => g.launch == L && g.team == T && g.blockedOn off)).foldl
    (fun s g => s.raiseWait g Code.barInval off 0 []) s

/-! ### Ring headers in local store -/

/-- Offset of the ring-header area of a launch's teams, if they have one (R316, R407). -/
def State.ringArea (s : State) (L : Nat) : Option Nat :=
  (s.launch? L).bind (fun x => if x.bits 3 0 32 = 0xFFFFFFFF then none else some (x.bits 3 0 32))

/-- STL writes this byte: outside the ring-header area, or in a field of it that STL writes (R317). -/
def stlMay (area : Option Nat) (o : Nat) : Bool :=
  match area with
  | none => true
  | some a => !(decide (a ≤ o) && decide (o < a + 128)) || decide ((o - a) % 32 < 4) ||
      (decide (16 ≤ (o - a) % 32) && decide ((o - a) % 32 < 20))

/-- The bytes of an STL that are written. -/
def Team.stl (t : Team) (area : Option Nat) (off : Nat) (bs : List Byte) : Team :=
  { t with loc := (bs.zipIdx).foldl (fun m x => if stlMay area (off + x.2) then Cells.set 0 m (off + x.2) x.1 else m) t.loc }

/-- The writes among an STL's bytes on which the copy engine acts: to a NOTIFY word, and to a DONE word (R318, R321). -/
def Team.ringActs (t : Team) (area : Option Nat) (off : Nat) (bs : List Byte) (byStl : Bool) : List RingWrite :=
  match area with
  | none => []
  | some a => (List.range 4).flatMap (fun r =>
      let h := a + 32 * r
      let meets := fun (x n : Nat) => decide (x < off + bs.length) && decide (off < x + n)
      (if meets h 4 then [({ ring := r } : RingWrite)] else []) ++
      (if byStl && meets (h + 12) 4 then
        [({ ring := r, restart := some (numOf ((List.range 4).map (fun i =>
            let o := h + 12 + i
            if off ≤ o ∧ o < off + bs.length then bs.getD (o - off) 0 else Cells.get 0 t.loc o))) } : RingWrite)]
       else []))

/-- The copy engine acts on a NOTIFY word among n bytes that an engine writes at `off` (R318). -/
def State.ringTouch (s : State) (L T off n : Nat) : State :=
  s.modTeam L T (fun t => { t with ringWrites := t.ringWrites ++ t.ringActs (s.ringArea L) off (List.replicate n 0) false })

/-- It acts on a NOTIFY word whose bytes a barrier operation on the object at `off` has changed, `old` the team before it
(R318). -/
def State.ringSeen (s : State) (L T off : Nat) (old : Team) : State :=
  match s.team? L T with
  | none => s
  | some t => if t.read off 4 = old.read off 4 then s else s.ringTouch L T off 4

/-! ### What an STL leaves -/

/-- A barrier operation takes the object as its words stand, but fields of W0 to W2 of an object that an STL has written
while V was 1, or has made valid, are unpredictable until the next BINIT (R293, R295). (DEDUCED, log 24) -/
def State.useBar (s : State) (L T off : Nat) : State :=
  let loose := ((s.team? L T).map (fun t => t.loose.contains off)).getD false
  let s1 := (s.modTeam L T (fun t =>
    let t1 := if t.loose.contains off then t.write off (s.freeBytes off 24) else t
    { t1 with bars := if t.bars.contains off then t.bars else t.bars ++ [off] })).stirBar L T off
  if loose then s1.ringTouch L T off 24 else s1

/-- The masks that BSYNCs of a team have recorded with the object are forgotten: its phases begin anew (R303, R311). -/
def State.forgetBsyncs (s : State) (L T off : Nat) : State :=
  { s with groups := updWhere (fun g => g.launch == L && g.team == T) (fun g => { g with
      bsyncs := g.bsyncs.filter (fun b => b.1 != off) }) s.groups }

/-- What a NOTIFY word that changes publishes with stores of its writer not released (R318). -/
def Team.publications (old new : Team) (area : Option Nat) (wild : List (Nat × Nat)) : List Publication :=
  match area with
  | none => []
  | some a => if wild.isEmpty then [] else
      (List.range 4).filterMap (fun r =>
        let x := old.readNum (a + 32 * r) 4
        let y := new.readNum (a + 32 * r) 4
        if x = y then none else some { ring := r, first := x, upto := y, wild := wild })

/-- Entries published and not passed by DONE that satisfy `p`: ring and index (R319, R334). -/
def Team.published? (t : Team) (area : Option Nat) (p : Copy → Bool) : List (Nat × Nat) :=
  match area with
  | none => []
  | some a => (List.range 4).flatMap (fun r =>
      let done := t.readNum (a + 32 * r + 12) 4
      let k := min 1024 ((t.readNum (a + 32 * r) 4 + 2 ^ 32 - done) % 2 ^ 32)
      ((List.range k).map (fun i => (r, (done + i) % 2 ^ 32))).filter (fun e => p (t.copyAt e.1 e.2)))

/-- What a write to local store means to the copy engine, `old` the team before it: the engine acts on a NOTIFY or DONE
word, and an entry, a descriptor or a bitmap changed too early goes wrong (R318, R319, R321, R334). -/
def State.stlRings (s : State) (old : Team) (L T off : Nat) (bs : List Byte) (wild : List (Nat × Nat)) (byStl : Bool) : State :=
  let area := s.ringArea L
  let s1 := s.modTeam L T (fun t => { t with
    ringWrites := t.ringWrites ++ old.ringActs area off bs byStl
    published := t.published ++ old.publications t area wild
    changed := t.changed ++ old.published? area (fun c => c.touched old off bs.length)
    mapChanged := t.mapChanged ++ old.published? area (fun c => c.mapTouched off bs.length) })
  { s1 with copies := updWhere (fun c => c.launch == L && c.team == T) (fun c => { c with
      bad := c.bad || c.touched old off bs.length
      badMap := c.badMap || c.mapTouched off bs.length }) s1.copies }

/-- An STL. Bytes of W0 to W2 written while V is 1, or that set V, leave those words unpredictable until the next BINIT: at once
where a barrier operation has used the object, else, as plain data until an operation names them, from then on (R295).
`wild`: the writer's stores to memory that are not acknowledged (R318). (DEDUCED, log 24) -/
def State.stlWrite (s : State) (L T off : Nat) (bs : List Byte) (wild : List (Nat × Nat)) : State :=
  match s.team? L T with
  | none => s
  | some t =>
    let b := off / 32 * 32
    let t1 := t.stl (s.ringArea L) off bs
    let s1 :=
      if off % 32 < 24 && (t.barValid b || t1.barValid b || t.loose.contains b) then
        let t2 := if t.bars.contains b then t1.write b (s.freeBytes b 24) else t1
        s.modTeam L T (fun _ => { t2 with loose := if t.loose.contains b then t.loose else b :: t.loose })
      else s.modTeam L T (fun _ => t1)
    s1.stlRings t L T off bs wild true

/-- Bytes that the copy engine or the fabric lands in local store: they are what a barrier operation then finds, but where
an STL has left an object's words unpredictable, they stay so (R293, R295). The copy engine acts on a NOTIFY word they write, and the fields it
holds stay as they are (R317, R318, R383). (DEDUCED, log 24) -/
def State.landLocal (s : State) (L T off : Nat) (bs : List Byte) : State :=
  match s.team? L T with
  | none => s
  | some t =>
    let hit := t.loose.filter (fun b => t.bars.contains b && decide (b < off + bs.length) && decide (off < b + 24))
    let t1 := hit.foldl (fun t b => t.write b (s.freeBytes b 24)) (t.stl (s.ringArea L) off bs)
    (s.modTeam L T (fun _ => t1)).stlRings t L T off bs [] false

/-! ### Events -/

/-- The events of R296. -/
inductive BarEvent where
  | arrive (n : Nat)
  | remote (n : Nat)
  | expect (n : Nat)
  | landed (n : Nat) (mem : Bool)
  | ack (n : Nat)
  | gang
  deriving DecidableEq, Repr

/-- The counts an event changes (R296). -/
def Team.barCount (t : Team) (off : Nat) : BarEvent → Team
  | .arrive n => t.setBar off 0 48 16 (min (t.bar off 0 48 16 + n) 0xFFFF)
  | .gang => t.setBar off 0 48 16 (min (t.bar off 0 48 16 + 1) 0xFFFF)
  | .remote n => t.setBar off 2 48 16 (min (t.bar off 2 48 16 + n) 0xFFFF)
  | .expect n => t.setBar off 1 32 32 (t.bar off 1 32 32 + n)
  | .landed n mem =>
    let t1 := t.setBar off 1 0 32 (t.bar off 1 0 32 + n)
    if mem then t1.setBar off 0 9 1 1 else t1
  | .ack n => t.setBar off 1 0 32 (t.bar off 1 0 32 + n)

/-- The section an event acts on. -/
def BarEvent.isRemote : BarEvent → Bool
  | .remote _ => true
  | _ => false

/-- The test of R297. -/
def Team.barDone (t : Team) (off : Nat) (remote : Bool) : Bool :=
  if remote then decide (t.bar off 2 32 16 ≠ 0) && decide (t.bar off 2 32 16 ≤ t.bar off 2 48 16)
  else decide (t.bar off 0 32 16 ≤ t.bar off 0 48 16) && decide (t.bar off 1 0 32 = t.bar off 1 32 32)

/-- The counts as a phase completes (R297). -/
def Team.barNext (t : Team) (off : Nat) (remote : Bool) : Team :=
  if remote then (t.setBar off 2 16 16 (t.bar off 2 16 16 + 1)).setBar off 2 48 16 0
  else
    let t1 := (t.setBar off 0 16 16 (t.bar off 0 16 16 + 1)).setBar off 0 48 16 0
    (t1.setBar off 1 32 32 0).setBar off 1 0 32 0

/-- An event on an object whose V is 0 (R302): dropped, and a dropped count raises COPY_FAULT. -/
def State.dropEvent (s : State) (L T off : Nat) : BarEvent → State
  | .landed n _ => s.raiseLaunch L T Code.copyFault Cls.async off (BitVec.ofNat 32 n)
  | .ack n => s.raiseLaunch L T Code.copyFault Cls.async off (BitVec.ofNat 32 n)
  | .gang => s.raiseLaunch L T Code.copyFault Cls.async off 0
  | _ => s

/-- Apply an event to the object at an offset of team (L, T): counts, then at most one completion, which releases its
waiters before anything else is applied (R296, R297, R300). -/
def State.barEvent (s : State) (L T off : Nat) (e : BarEvent) : State :=
  let s1 := s.useBar L T off
  match s1.team? L T with
  | none => s
  | some t =>
    if !t.barValid off then s1.dropEvent L T off e
    else
      let t1 := t.barCount off e
      let s2 := s1.modTeam L T (fun _ => t1)
      (if t1.barDone off e.isRemote then
        let p := t1.barPhase off e.isRemote
        (s2.modTeam L T (fun _ => t1.barNext off e.isRemote)).releaseWaiters L T off e.isRemote p
      else s2).ringSeen L T off t

/-- BINIT: waiters are released with BAR_INVAL, then the Reset values (R294, R303, R305). -/
def State.barInit (s : State) (L T off : Nat) (init : DWord) : State :=
  let s1 := ((s.invalidateWaiters L T off).stirBar L T off).forgetBsyncs L T off
  let v := init.toNat
  (s1.modTeam L T (fun t =>
    let w0 := v % 65536 * 2 ^ 32 + 1
    let w2 := v / 65536 % 65536 * 2 ^ 32 + v / 2 ^ 32 % 64
    let w3 := 2 ^ t.ngrp - 1
    { t.write off (bytesOf w0 8 ++ bytesOf 0 8 ++ bytesOf w2 8 ++ bytesOf w3 8) with
      bars := if t.bars.contains off then t.bars else t.bars ++ [off]
      loose := t.loose.filter (· != off) })).ringTouch L T off 32

/-- BINVAL (R303, R305). -/
def State.barInval (s : State) (L T off : Nat) : State :=
  let s1 := s.useBar L T off
  match s1.team? L T with
  | none => s
  | some t =>
    if t.barValid off then
      (((s1.modTeam L T (fun t => t.setBar off 0 0 1 0)).invalidateWaiters L T off).forgetBsyncs L T off).ringSeen L T off t
    else s1

/-- The group returns from a wait: an acquire at CORE scope, with the L1 invalidated where MSEEN is 1 and the section
is local (R299). -/
def State.waitReturns (s : State) (g : Group) (off : Nat) (remote : Bool) : State :=
  let s1 := s.modGroup g.launch g.team g.gnum (fun h => { h with wait := .none })
  match s.team? g.launch g.team with
  | none => s1
  | some t => if !remote && decide (t.bar off 0 9 1 = 1) then s1.acquireL1 t.core else s1

/-- A wait for phase p is judged against the current phase c: it has completed when (p - c) mod 2^16 is 32768 or more
(R298). -/
def phasePast (p c : Nat) : Bool := decide (32768 ≤ (p + 65536 - c % 65536) % 65536)

/-- Apply the wait of BWAIT (R298, R302, R308). -/
def State.applyBwait (s : State) (g : Group) (addr : Nat) (remote : Bool) (p : Nat) : State :=
  let off := localOff addr
  let s1 := s.useBar g.launch g.team off
  match s1.team? g.launch g.team with
  | none => s
  | some t =>
    if !t.barValid off then s1.raiseWait g Code.barInval off 0 []
    else if phasePast p (t.barPhase off remote) then s1.waitReturns g off remote
    else s1.modGroup g.launch g.team g.gnum (fun h => { h with wait := .bwait addr remote (p % 65536), wsince := s.now })

/-- Apply the arrival and the wait of BSYNC in one step (R310). -/
def State.applyBsync (s : State) (g : Group) (addr count ticks : Nat) (mask : Word) : State :=
  let off := localOff addr
  let s1 := s.useBar g.launch g.team off
  match s1.team? g.launch g.team with
  | none => s
  | some t =>
    if !t.barValid off then s1.raiseWait g Code.barInval off 0 []
    else
      let p := t.barPhase off false
      let s2 := s1.modGroup g.launch g.team g.gnum (fun h => { h with
        wait := .bsync addr p (if ticks = 0 then 0 else ticks + 2) mask
        wsince := s.now
        expired := none
        bsyncs := (off, p, mask) :: h.bsyncs })
      s2.barEvent g.launch g.team off (.arrive count)

end Sys2Proof.Machine
end

