-- ==== Sys2Proof/Machine/Order.lean ====
section
/-!
DEFINITION. Order.lean: the program order of one group and what waits on it: which accesses have performed, what a
release waits for, which earlier stores a load must see, entry into the store queue and the side log, and the local-store
stream (R195 to R208, R438).
-/
namespace Sys2Proof.Machine

/-! ### What has performed -/

/-- Its value is fixed, or it will never perform (R195, R242). -/
def Access.performed (a : Access) : Bool := decide (a.st = .served) || decide (a.st = .done) || decide (a.st = .declined)

/-- A load or an atomic of memory (R197). -/
def OpKind.isRead : OpKind → Bool
  | .load _ => true
  | .span _ _ => true
  | .atom _ _ => true
  | .tld _ => true
  | .ldmeta _ => true
  | .fabric => true
  | _ => false

/-- It takes entries in the store queue (R196, R270). -/
def OpKind.isStore : OpKind → Bool
  | .store _ => true
  | .red => true
  | .accZero => true
  | .accScale _ => true
  | .tst _ => true
  | _ => false

/-- Operation o is one of the group's. -/
def Op.ofGroup (o : Op) (L T G : Nat) : Bool := o.launch == L && o.team == T && o.gnum == G

/-- Every load and atomic of the group older than `b` has performed, and every older acquire is complete (R197, R201,
R208). -/
def State.readsDone (s : State) (L T G b : Nat) : Bool :=
  s.ops.all (fun o => !(o.ofGroup L T G && decide (o.id < b)) ||
    ((!o.kind.isRead || o.accs.all Access.performed) && (!o.acq || o.acqDone)))

/-- Every acquire of the group older than `b` is complete. -/
def State.acquiresDone (s : State) (L T G b : Nat) : Bool :=
  s.ops.all (fun o => !(o.ofGroup L T G && decide (o.id < b)) || !o.acq || o.acqDone)

/-- It is an atomic (R204). -/
def OpKind.isAtom : OpKind → Bool
  | .atom _ _ => true
  | _ => false

/-- Every atomic of the group older than `b` has performed (R204). -/
def State.atomsDone (s : State) (L T G b : Nat) : Bool :=
  s.ops.all (fun o => !(o.ofGroup L T G && decide (o.id < b) && o.kind.isAtom) || o.accs.all Access.performed)

/-- The access is still to enter the store queue or the side log. -/
def Access.pending (a : Access) : Bool := decide (a.st = .waiting) || decide (a.st = .held)

/-- Every store of the group older than `b` has left its store queue (R200 item 2). -/
def State.storesLeft (s : State) (L T G b : Nat) : Bool :=
  ((s.group? L T G).map (fun g => g.sq.all (fun e => !decide (e.op < b)))).getD true &&
    s.ops.all (fun o => !(o.ofGroup L T G && decide (o.id < b) && o.kind.isStore && o.accs.any Access.pending))

/-- A home lies within a scope for die d: 0 CORE, 1 DIE, 2 ISLAND (R189, R208). -/
def inScope (scope d home : Nat) : Bool :=
  if scope = 0 then false else if scope = 1 then decide (home = d) else decide (home / 2 = d / 2)

/-- Every store and atomic of the group older than `b` whose home lies in scope is acknowledged (R200 item 3). -/
def State.homesAcked (s : State) (c L T G b scope : Nat) : Bool :=
  (s.core c).path.all (fun x => !(x.launch == L && x.team == T && x.gnum == G && decide (x.op < b) &&
    inScope scope (dieOfCore c) x.die))

/-- Every side-log entry of the group older than `b` has replayed (R200 item 4). -/
def State.logDone (s : State) (c L T G b : Nat) : Bool :=
  (s.core c).sideLog.all (fun e => !(e.launch == L && e.team == T && e.gnum == G && decide (e.op < b)))

/-- Every TLD.ob of the group older than `b` has read its slot: it is ordered as an LDL (R208, R361). -/
def State.slotsRead (s : State) (L T G b : Nat) : Bool :=
  s.ops.all (fun o => !(o.ofGroup L T G && decide (o.id < b)) || (match o.kind with
    | .tldOb _ => false
    | _ => true))

/-- Every local-store access of the group older than `b` has performed (R200 item 5). -/
def State.localsDone (s : State) (L T G b : Nat) : Bool :=
  s.slotsRead L T G b && ((s.group? L T G).map (fun g => g.stream.all (fun e => !decide (e.id < b)))).getD true

/-- What a release by the group, placed at `b` in its program order, waits for (R200, R208). -/
def State.relReady (s : State) (c L T G b scope : Nat) : Bool :=
  s.readsDone L T G b && s.storesLeft L T G b && s.localsDone L T G b &&
    (decide (scope = 0) || (s.homesAcked c L T G b scope && s.logDone c L T G b))

/-! ### A group's own earlier stores -/

/-- Physical address and bytes of each part of an entry. -/
def Store.phys (e : Store) : List (Nat × List Byte) := e.parts.map (fun p => (e.tr.phys p.1, p.2))

/-- The plain stores of the group older than operation `b` that have not performed at their homes, oldest first
(R196): those on the path, which the L1 has already where it had the sector, and those still to leave. (DEDUCED, log 17) -/
def State.ownStores (s : State) (c L T G b : Nat) (onPath : Bool) : List (Nat × List Byte) :=
  let sent := if onPath then
      (s.core c).path.flatMap (fun x => match x.store with
        | some e => if x.launch == L && x.team == T && x.gnum == G && decide (x.op < b) && !x.applied &&
            decide (e.kind = .plain) then e.phys else []
        | none => [])
    else []
  let queued := ((s.group? L T G).map (fun g =>
    (g.sq.filter (fun e => decide (e.op < b) && decide (e.kind = .plain) && !e.left)).flatMap Store.phys)).getD []
  let pending := s.ops.flatMap (fun o =>
    match o.kind with
    | .store _ | .tst _ => if o.ofGroup L T G && decide (o.id < b) then
        o.accs.flatMap (fun a => match a.tr with
          | some t => if a.st = .waiting then [(t.phys a.va, a.data)] else []
          | none => [])
      else []
    | _ => [])
  sent ++ queued ++ pending

/-- Bytes with a list of stores laid over them. -/
def overlays (pa : Nat) (bs : List Byte) (l : List (Nat × List Byte)) : List Byte := l.foldl (fun b x => overlay pa b x.1 x.2) bs

/-! ### Entering the store queue and the side log -/

/-- Append an entry to the group's store queue; none where its 64 entries are in use (R196). -/
def State.enqueue (s : State) (o : Op) (e : Store) : Option State :=
  match s.group? o.launch o.team o.gnum with
  | none => none
  | some g => if 64 ≤ g.sq.length then none
    else some (s.modGroup o.launch o.team o.gnum (fun g => { g with sq := g.sq ++ [e] }))

/-- Scope of a release still to perform, for a new entry: 0 for none (R200, R438). -/
def Op.relScope (o : Op) : Nat := if o.rel && !o.relDone then (if o.island then 2 else 1) else 0

/-- The entry of its instruction and grain that a store joins (R196). -/
def State.nearEntry (s : State) (o : Op) (a : Access) (tr : Tr) : Option Store :=
  let grain := grainOf tr.leaf
  (s.group? o.launch o.team o.gnum).bind (fun g => if a.sk = .plain then g.sq.find? (fun e =>
    e.op == o.id && decide (e.kind = .plain) && !e.left &&
      decide (e.tr.phys ((e.parts.headD (0, [])).1) / grain = tr.phys a.va / grain)) else none)

/-- A store enters the queue, joining the entry of its instruction and grain where there is one (R196). -/
def State.admitPlain (s : State) (o : Op) (a : Access) (tr : Tr) : Option State :=
  match s.nearEntry o a tr with
  | some e =>
    some ((s.modGroup o.launch o.team o.gnum (fun g => { g with
      sq := updWhere (fun x => x.id == e.id) (fun x => { x with parts := x.parts ++ [(a.va, a.data)] }) g.sq })).modAcc
        o.id a.id (fun a => { a with st := .sent, entry := e.id }))
  | none =>
    (s.enqueue o { id := a.id, op := o.id, tr := tr, parts := [(a.va, a.data)], kind := a.sk, relScope := o.relScope }).map
      (fun s => s.modAcc o.id a.id (fun a => { a with st := .sent, entry := a.id }))

/-- A store or reduction retires into the side log; none where it is not logged, where the log's 512 entries are in use,
or where an earlier load or atomic of its group has still to perform, which no store may overtake (R195, R197, R201,
R204, R243, R245, R246). (DEDUCED, log 68) -/
def State.admitLog (s : State) (o : Op) (a : Access) (t : Team) : Option State :=
  let slot := some (groupSlot t o.gnum, a.thread)
  match s.place t.core o.launch slot a.va true with
  | .log p n =>
    if 512 ≤ (s.core t.core).sideLog.length || !s.readsDone o.launch o.team o.gnum o.id then none
    else
      let e : LogEntry :=
        { launch := o.launch, team := o.team, gnum := o.gnum, thread := a.thread, op := o.id, va := a.va
          bytes := a.data
          kind := match a.sk with
            | .red _ _ => 1
            | .redi _ _ => 2
            | _ => 0
          opk := match a.sk with
            | .red k _ => k
            | .redi k _ => k
            | _ => 0
          page := p, size := n
          tr := match s.look t.core o.launch slot a.va with
            | .present x => some x
            | _ => none }
      some ((s.modCore t.core (fun k => { k with sideLog := k.sideLog ++ [e] })).modAcc o.id a.id (fun a => { a with st := .done }))
  | _ => none

/-- A contribution of one element enters the queue (R270, R274). -/
def State.admitContrib (s : State) (o : Op) (a : Access) (t : Team) (r : Range) : Option State :=
  match a.tr with
  | none => none
  | some tr =>
    (s.enqueue o { id := a.id, op := o.id, tr := tr, parts := [(a.va, a.data)], kind := a.sk }).map (fun s =>
      ({ s with contribs := s.contribs ++ [({
          id := a.id, launch := o.launch, team := o.team, gnum := o.gnum, isl := t.core / 256, range := r.id
          seq := a.opnd, ord := r.ord, elems := [(a.va, numOf a.data, a.unpred)], trs := r.trs, op := o.id, entry := a.id
          wide := r.fmt64 } : Contrib)] } : State).modAcc o.id a.id (fun a => { a with st := .sent, entry := a.id }))

/-- An ACCSCALE enters the queue: one entry and one contribution over the rows of all its threads (R270, R287). -/
def State.admitScale (s : State) (o : Op) (a : Access) (t : Team) (r : Range) : Option State :=
  (s.enqueue o { id := a.id, op := o.id, tr := { page := 0, size := 0, pa := 0, leaf := 0 }, kind := a.sk }).map (fun s =>
    ({ s with contribs := s.contribs ++ [({
        id := a.id, launch := o.launch, team := o.team, gnum := o.gnum, isl := t.core / 256, range := r.id
        seq := a.opnd2, ord := r.ord, elems := [], scale := o.accs.map (fun x => (x.va, x.len, x.opnd))
        bad := o.accs.any (·.unpred), trs := r.trs, op := o.id, entry := a.id, wide := r.fmt64 } : Contrib)] } : State).modAcc o.id a.id
      (fun a => { a with st := .sent, entry := a.id }))

/-- The page that a byte range's access has taken for an address (R236). -/
def Access.trAt (a : Access) (va : Nat) : Option Tr := a.trs.find? (fun t => decide (t.page ≤ va) && decide (va < t.page + t.size))

/-- ACCZERO takes one entry for each grain, under the translations of its issue, as far as there is room; its access
keeps count of the bytes taken (R236, R270, R288). -/
def zeroLoop (o : Op) (a : Access) : Nat → Nat → State → State
  | 0, done, s => s.modAcc o.id a.id (fun a => { a with taken := done })
  | n + 1, done, s =>
    let va := a.va + done
    match (if a.len ≤ done then none else a.trAt va) with
    | none => s.modAcc o.id a.id (fun a => { a with taken := done, st := .sent })
    | some t =>
      let k := min (a.len - done) (grainOf t.leaf - va % grainOf t.leaf)
      match ({ s with nextId := s.nextId + 1 } : State).enqueue o
          { id := s.nextId, op := o.id, tr := t, kind := .zero k
            parts := [(va, if a.unpred then s.freeBytes (a.id + va) k else [])] } with
      | none => s.modAcc o.id a.id (fun a => { a with taken := done })
      | some s1 => zeroLoop o a n (done + k) s1

/-- Put one access of a store into its group's queue or the side log; none where it has to wait. -/
def State.admitOne (s : State) (o : Op) (a : Access) : Option State :=
  match s.team? o.launch o.team with
  | none => none
  | some t =>
    match a.sk with
    | .zero _ =>
      some (zeroLoop o a 66 a.taken s)
    | .contrib r => (s.ranges.find? (fun x => x.id == r)).bind (s.admitContrib o a t)
    | .scale r => (s.ranges.find? (fun x => x.id == r)).bind (s.admitScale o a t)
    | _ => match a.tr with
      | some tr => s.admitPlain o a tr
      | none => s.admitLog o a t

/-- Where the queue is full, later accesses of the same instruction still join the entries of their grains, which the queue
holds already: an entry leaves whole (R196, R361). -/
def joinList (o : Op) : List (Nat × Nat) → State → State
  | [], s => s
  | (i, j) :: rest, s =>
    match (if i = o.id then (s.op? i).bind (fun p => p.accs.find? (fun a => a.id == j)) else none) with
    | none => joinList o rest s
    | some a => match a.tr with
      | none => joinList o rest s
      | some tr =>
        if a.st = .waiting ∧ (s.nearEntry o a tr).isSome then joinList o rest ((s.admitPlain o a tr).getD s) else joinList o rest s

/-- Take the group's pending stores in program order, as far as there is room. An access held on its page lets the
other threads of its instruction go on, and nothing later (R211). -/
def admitList : List (Nat × Nat) → Option Nat → State → State
  | [], _, s => s
  | (i, j) :: rest, stop, s =>
    match s.op? i with
    | none => admitList rest stop s
    | some o =>
      match o.accs.find? (fun a => a.id == j) with
      | none => admitList rest stop s
      | some a =>
        if stop.isSome && stop != some i then s
        else if a.st = .held then admitList rest (some i) s
        else match s.admitOne o a with
          | none => joinList o rest s
          | some t =>
            let full := ((t.op? i).bind (fun o => o.accs.find? (fun x => x.id == j))).any Access.pending
            if full then t else admitList rest stop t

/-- The group's stores enter its queue and the side log in program order (R195, R196). (DESIGN CHOICE, log 9) -/
def State.admitStores (s : State) (L T G : Nat) : State :=
  let todo := s.ops.flatMap (fun o =>
    if o.ofGroup L T G && o.kind.isStore then
      (o.accs.filter Access.pending).map (fun a => (o.id, a.id))
    else [])
  if todo.isEmpty then s else admitList todo none s

/-! ### The local-store stream -/

/-- Length of a local access, for overlap. -/
def LocalAcc.len (s : State) (e : LocalAcc) : Nat :=
  match e.kind with
  | .load o a => ((s.op? o).bind (fun o => (o.accs.find? (fun x => x.id == a)).map (·.len))).getD 8
  | .store _ _ bs => bs.length
  | _ => 32

/-- Two entries touch common bytes. (DEDUCED, log 18) -/
def LocalAcc.meets (s : State) (e f : LocalAcc) : Bool :=
  decide (e.addr < f.addr + f.len s) && decide (f.addr < e.addr + e.len s)

/-- The team that an entry reaches (R128, R194). -/
def State.streamTeam (s : State) (L T addr : Nat) : Option Team :=
  match s.team? L T with
  | none => none
  | some t => if addr / 2 ^ 19 % 2 = 1 then t.partner.bind (fun p => s.team? L p) else some t

/-- The partner takes arrivals: it is in RUN, or draining with this team as one unit (R173). -/
def Team.takes (t : Team) : Bool := decide (t.ctx = .run) || decide (t.ctx = .halting) || decide (t.ctx = .draining)

/-- An arrival from outside its unit is taken only in RUN (R173). -/
def Team.takesOutside (t : Team) : Bool := decide (t.ctx = .run)

/-- The entry may perform now, behind the entries of its group still waiting (R197, R204, R208, R299, R301). `remote` says
that a partner's BARV may be delivered in this step. (DEDUCED, log 18) -/
def State.localReady (s : State) (g : Group) (behind : List LocalAcc) (e : LocalAcc) (remote : Bool) : Bool :=
  let own := decide (e.addr / 2 ^ 19 % 2 = 0)
  let calm := ((s.streamTeam g.launch g.team e.addr).map (fun t => t.ringWrites.isEmpty)).getD true
  let reach := own || ((s.streamTeam g.launch g.team e.addr).map Team.takes).getD false
  let fin := s.acquiresDone g.launch g.team g.gnum e.after && s.atomsDone g.launch g.team g.gnum e.after &&
    s.slotsRead g.launch g.team g.gnum e.after
  let rel := !e.rel || (s.readsDone g.launch g.team g.gnum e.after && s.storesLeft g.launch g.team g.gnum e.after)
  -- the copy engine acts on a ring write before anything else reaches that local store (R318)
  calm && match e.kind with
  | .load o _ => fin && reach && (s.op? o).all (fun p => p.relDone) && behind.all (fun f => match f.kind with
      | .load _ _ => false
      | _ => !e.meets s f)
  | .store o _ _ => fin && reach && behind.isEmpty && rel && (s.op? o).isNone
  | .barv _ => fin && behind.isEmpty && rel && (own || (remote && reach))
  | _ => fin && behind.isEmpty && rel

/-- Addresses and lengths of the group's stores to memory that no home has acknowledged, those still to enter its queue
among them (R318). -/
def State.unreleased (s : State) (g : Group) : List (Nat × Nat) :=
  let c := ((s.team? g.launch g.team).map (·.core)).getD 0
  let parts := fun (e : Store) => e.parts.map (fun p => (p.1, e.partLen p))
  (s.ops.filter (fun o => o.ofGroup g.launch g.team g.gnum && o.kind.isStore)).flatMap (fun o =>
    (o.accs.filter Access.pending).map (fun a => (a.va, a.len))) ++
  g.sq.flatMap parts ++
    (s.core c).path.flatMap (fun x => if x.launch == g.launch && x.team == g.team && x.gnum == g.gnum then
      ((x.store.map parts).getD []) else []) ++
    (s.core c).sideLog.filterMap (fun e => if e.launch == g.launch && e.team == g.team && e.gnum == g.gnum then
      some (e.va, e.bytes.length) else none)

/-- Perform an entry of a stream (R216, R296, R301, R305 to R310). -/
def State.performLocal (s : State) (g : Group) (e : LocalAcc) : State :=
  let off := localOff e.addr
  let who := ((s.streamTeam g.launch g.team e.addr).map (·.idx)).getD g.team
  match e.kind with
  | .load o a =>
    let n := e.len s
    let bs := ((s.team? g.launch who).map (fun t => t.read off n)).getD []
    s.modAcc o a (fun x => { x with st := .done, data := bs })
  | .store _ _ bs => s.stlWrite g.launch who off bs (s.unreleased g)
  | .binit v => s.barInit g.launch g.team off v
  | .binval => s.barInval g.launch g.team off
  | .barv n =>
    if e.addr / 2 ^ 19 % 2 = 1 then
      if ((s.team? g.launch who).map (·.exited)).getD true then s else s.barEvent g.launch who off (.remote n)
    else s.barEvent g.launch g.team off (.arrive n)
  | .bexp n => s.barEvent g.launch g.team off (.expect n)
  | .bwait r p => s.applyBwait g e.addr r p
  | .bsync n t m => s.applyBsync g e.addr n t m

/-- Walk the stream once, performing what may perform. -/
def drainList (L T G : Nat) (remote : Bool) : List LocalAcc → List LocalAcc → State → State
  | [], behind, s => s.modGroup L T G (fun g => { g with stream := behind })
  | e :: rest, behind, s =>
    match s.group? L T G with
    | none => s
    | some g =>
      if s.localReady g behind e remote then
        let s1 := s.performLocal g e
        -- an LDL.acq completes its acquire with its last access (R208, R438)
        let s2 := match e.kind with
          | .load o _ => s1.modOp o (fun o => { o with acqDone := o.acqDone || o.accs.all Access.performed })
          | _ => s1
        drainList L T G remote rest behind s2
      else drainList L T G remote rest (behind ++ [e]) s

/-- Perform the local-store accesses of a group that nothing holds (log: they perform as soon as they may).
(DESIGN CHOICE, log 9) -/
def State.drainLocal (s : State) (L T G : Nat) (remote : Bool) : State :=
  match s.group? L T G with
  | none => s
  | some g => if g.stream.isEmpty then s else drainList L T G remote g.stream [] s

/-! ### Replay of the side log -/

/-- The launch takes NOT_MAPPED in class LAUNCH, once for each page on each core (R244). (DEDUCED, log 26) -/
def State.logNotMapped (s : State) (c launch team page va code : Nat) : State :=
  let seen := ((s.launch? launch).map (fun x => x.notMapped.contains (c, page))).getD true
  if seen then s
  else (s.raiseLaunch launch team Code.notMapped Cls.launch va (BitVec.ofNat 32 code)).modLaunch launch (fun x =>
    { x with notMapped := (c, page) :: x.notMapped })

/-- The log entry lies on the page. -/
def LogEntry.onPage (e : LogEntry) (launch page size : Nat) : Bool :=
  e.launch == launch && decide (page ≤ e.va) && decide (e.va < page + size)

/-- Drop log entries from a core. -/
def State.dropLog (s : State) (c : Nat) (p : LogEntry → Bool) : State :=
  s.modCore c (fun k => { k with sideLog := k.sideLog.filter (fun e => !p e) })

/-- Replay one entry: it goes to its home as a store or reduction under the page's attributes now (R244). -/
def State.replayOne (s : State) (c : Nat) (e : LogEntry) (t : Tr) : State :=
  match s.pageFault t .store e.va (dieOfCore c) with
  | some code => (s.dropLog c (· == e)).logNotMapped c e.launch e.team e.page e.va code
  | none =>
    let kind := if e.kind = 1 then StoreKind.red e.opk (decide (e.bytes.length = 8))
      else if e.kind = 2 then .redi e.opk (decide (e.bytes.length = 8)) else .plain
    let st : Store := { id := s.nextId, op := e.op, tr := t, parts := [(e.va, e.bytes)], kind := kind }
    { s.modCore c (fun k => { k with
        sideLog := updWhere (fun x => x == e) (fun x => { x with replay := some s.nextId }) k.sideLog
        path := k.path ++ [{ die := t.home, launch := e.launch, team := e.team, gnum := e.gnum, op := e.op
                             access := s.nextId, store := some st, at_ := s.nextId }] }) with
      nextId := s.nextId + 1 }

/-- Replay the entries of a core whose page's notice has come, in log order: each notice sends its page's entries before
the next arrives (R244). What may not overtake an earlier access has not entered the log (`admitLog`). -/
def replayList (c : Nat) : List LogEntry → State → State
  | [], s => s
  | e :: rest, s =>
    match e.tr with
    | none => replayList c rest s
    | some t => replayList c rest (if e.replay.isSome then s else s.replayOne c e t)

/-- Replay what may replay on every core (R244). -/
def State.replayLogs (s : State) : State := s.cores.foldl (fun s k => replayList k.id (s.core k.id).sideLog s) s

/-! ### Between events -/

/-- Acquires whose accesses have all performed invalidate the core's L1 (R201, R438). (DESIGN CHOICE, log 9) -/
def State.finishAcquires (s : State) : State :=
  (s.ops.filter (fun o => o.kind.isRead && o.acq && !o.acqDone && o.accs.all Access.performed)).foldl (fun s o =>
    let c := ((s.team? o.launch o.team).map (·.core)).getD 0
    (s.acquireL1 c).modOp o.id (fun o => { o with acqDone := true })) s

/-- Let everything that waited only on this event go on: acquires, replays, store queues and local-store streams.
(DESIGN CHOICE, log 9) -/
def State.settle (s : State) : State :=
  let s1 := s.finishAcquires.replayLogs
  s1.groups.foldl (fun s g => (s.admitStores g.launch g.team g.gnum).drainLocal g.launch g.team g.gnum false) s1

/-- An event: its effect, or nothing at all where its conditions do not hold. (DESIGN CHOICE, log 66) -/
def event (s : State) (r : Option State) : Out :=
  match r with
  | some t => .next t.redraw
  | none => .next s

end Sys2Proof.Machine
end

