-- ==== Sys2Proof/Machine/Memory.lean ====
section
/-!
DEFINITION. Memory.lean: the instruction words of the memory engine (R187, R211 to R224). A word checks its operands,
takes them from the registers and starts an operation; the events of MemSteps.lean carry it out.
-/
namespace Sys2Proof.Machine

/-! ### Types -/

/-- Bytes of a memory type (R212). -/
def memSize (t : BitVec 4) : Nat :=
  match t.toNat with
  | 0 => 1 | 1 => 1 | 2 => 2 | 3 => 2 | 4 => 4 | 5 => 4 | 6 => 8 | 7 => 8 | 8 => 8 | 9 => 4 | 10 => 2 | 11 => 2 | _ => 1

/-- What a load writes from the bytes it read (R212). -/
def loadWords (t : BitVec 4) (bs : List Byte) : List Word :=
  let v := numOf bs
  match t.toNat with
  | 0 => [BitVec.ofNat 32 v] | 2 => [BitVec.ofNat 32 v] | 4 => [BitVec.ofNat 32 v] | 5 => [BitVec.ofNat 32 v] | 9 => [BitVec.ofNat 32 v]
  | 1 => [(BitVec.ofNat 8 v).signExtend 32]
  | 3 => [(BitVec.ofNat 16 v).signExtend 32]
  | 6 => pair (BitVec.ofNat 64 v) | 7 => pair (BitVec.ofNat 64 v) | 8 => pair (BitVec.ofNat 64 v)
  | _ =>
    match floatType t with
    | some f => [BitVec.ofNat 32 (Fmt.f32.round .rne (f.decode (v % 2 ^ f.width)))]
    | none => [0]

/-- The bytes a store writes from its register operand (R212, R90). -/
def storeBytes (t : BitVec 4) (v : DWord) : List Byte :=
  if t.toNat < 10 then bytesOf v.toNat (memSize t)
  else
    match floatType t with
    | some f => bytesOf (f.narrow .rne false (Fmt.f32.decode (v.toNat % 2 ^ 32))) (memSize t)
    | none => []

/-! ### Checks of R211 -/

/-- The address pair of a thread. -/
def Thr.adr (e : Thr) (a : BitVec 7) : Nat := (e.v64 a).toNat

/-- Key of the thread's last-page register (R234). -/
def Thr.slot (e : Thr) : Option (Nat × Nat) :=
  (e.s.team? e.l.launch e.l.team).map (fun t => (groupSlot t e.l.gnum, e.t))

/-- The lookup of an address by a thread. -/
def Thr.look (e : Thr) (va : Nat) : Look := e.s.look e.l.core e.l.launch e.slot va

/-- The page of an address, if it is mapped. -/
def Thr.mapped (e : Thr) (va : Nat) : Option Tr :=
  match e.look va with
  | .present t => some t
  | _ => none

/-- The page of an address, if it is present: one that is mapped but still logged counts as not present (R243). -/
def Thr.present (e : Thr) (va : Nat) : Option Tr :=
  (e.mapped va).filter (fun t => t.scratch || !(e.s.core e.l.core).logged e.l.launch va)

/-- A check that only present pages make. -/
def onPage (adr : Thr → Nat) (code : Thr → Tr → Option Nat) : Thr → Option Trap := fun e =>
  match e.present (adr e) with
  | none => none
  | some t => (code e t).map (fun c => { code := c, addr := adr e })

/-- Step 1 of R211: a data address. -/
def chkRange (adr : Thr → Nat) : Thr → Option Trap := failIf (fun e => decide (2 ^ 57 ≤ adr e)) Code.addrRange adr

/-- Step 2 of R211. -/
def chkAlign (adr : Thr → Nat) (n : Nat) : Thr → Option Trap := failIf (fun e => decide (adr e % n ≠ 0)) Code.alignFault adr

/-- Steps 3 to 5 of R211. -/
def chkPage (adr : Thr → Nat) (k : AccKind) : List (Thr → Option Trap) :=
  [ onPage adr (fun e t => if badPermission t k (adr e) then some Code.accessFault else none),
    onPage adr (fun e t => if badMode t k (dieOfCore e.l.core) then some Code.pageMode else none),
    onPage adr (fun e t => if t.scratch then none else e.s.absentCode t.home) ]

/-- The checks of a memory instruction of width n, with its own between steps 2 and 3 (R211, R224). -/
def dataChecks (u : Bool) (a : BitVec 7) (n : Nat) (k : AccKind) (mid : List (Thr → Option Trap)) (s : State) (l : Lane)
    (g : Group) : Option Trap :=
  firstFail s l g u ([chkRange (fun e => e.adr a), chkAlign (fun e => e.adr a) n] ++ mid ++ chkPage (fun e => e.adr a) k)

/-! ### Starting an operation -/

/-- Destination registers of an operation. -/
def dstOf (g : Group) (d : BitVec 7) (n : Nat) : Option (Nat × Nat) := if d.toNat < 112 then some (16 * g.wb + d.toNat, n) else none

/-- Source registers of an operation. -/
def srcOf (g : Group) (c : BitVec 7) (n : Nat) : List (Nat × Nat) := if c.toNat < 112 then [(16 * g.wb + c.toNat, n)] else []

/-- The operation that the lane's current instruction starts. -/
def Lane.start (l : Lane) (s : State) (kind : OpKind) (u : Bool) : Op :=
  { id := s.nextId, launch := l.launch, team := l.team, gnum := l.gnum, flag := l.flagNow
    wb := ((s.laneGroup? l).map (·.wb)).getD 0, nblk := ((s.laneGroup? l).map (·.nblk)).getD 0, claddr := l.claddr
    cidx := l.idx, word := l.words.getD l.idx 0, mask := l.issuing, uni := u, kind := kind, born := s.now }

/-- Step 6 of R211 for one access: it translates, or is held, or goes to the side log (`plain`; R240, R243). An access
that has its translation keeps it. -/
def State.placeAccess (s : State) (core launch : Nat) (slot : Option (Nat × Nat)) (plain : Bool) (a : Access) : State × Access :=
  if a.tr.isSome then (s, a) else
  let s1 := s.noteLook core launch slot (s.look core launch slot a.va)
  match s.place core launch slot a.va plain with
  | .go t => (s1, { a with st := .waiting, tr := some t })
  | .hold => (s1.requestMap core launch a.va slot, { a with st := .held, tr := none })
  | .log _ _ => (s1.requestMap core launch a.va slot, { a with st := .waiting, tr := none })

/-- Number the accesses of a new operation and place each. -/
def placeAll (core launch : Nat) (slot : Nat → Option (Nat × Nat)) (plain : Bool) : List Access → State → State × List Access
  | [], s => (s, [])
  | a :: rest, s =>
    let (s1, b) := s.placeAccess core launch (slot a.thread) plain { a with id := s.nextId }
    let (s2, bs) := placeAll core launch slot plain rest { s1 with nextId := s1.nextId + 1 }
    (s2, b :: bs)

/-- Start an operation whose accesses translate: the widest scope of its pages decides its release (R438). -/
def State.startMem (s : State) (l : Lane) (o : Op) (plain : Bool) (accs : List Access) : State :=
  let slot := fun (t : Nat) => (s.team? l.launch l.team).map (fun x => (groupSlot x l.gnum, t))
  let (s1, bs) := placeAll l.core l.launch slot plain accs { s with nextId := s.nextId + 1 }
  let wide := bs.any (fun a => match a.tr with
    | some t => isIsland t.leaf
    | none => true)
  let s2 := { s1 with ops := s1.ops ++ [{ o with accs := bs, island := wide, relDone := !o.rel, acqDone := !o.acq }] }
  s2.admitStores l.launch l.team l.gnum

/-- The accesses of the executing threads, from each thread's view. -/
def accessesOf (s : State) (l : Lane) (g : Group) (u : Bool) (f : Thr → Access) : List Access :=
  (l.execThreads u).map (fun t => { f (thr s l g t) with thread := t })

/-- Number accesses from n on. -/
def numbered (n : Nat) (accs : List Access) : List Access := accs.zipIdx.map (fun x => { x.1 with id := n + x.2 })

/-! ### LD, ST, PREF, PQRY -/

/-- LD and LD.span (R213, R214). -/
def loadWord (i : Instr) (d a : BitVec 7) (t : BitVec 4) (u : Bool) (kind : OpKind) (acq nc : Bool) (s : State) : Out :=
  runWord i (dataChecks u a (memSize t) .load []) (fun s l g =>
    s.startMem l { l.start s kind u with dst := dstOf g d (tySize t), acq := acq, nc := nc } false
      (accessesOf s l g u (fun e => { id := 0, thread := 0, va := e.adr a, len := memSize t }))) s

/-- LD (R213). -/
def execLd (d a : BitVec 7) (o : BitVec 2) (t : BitVec 4) (u : Bool) (s : State) : Out :=
  loadWord (.ld d a o t u) d a t u (.load t.toNat) (decide (o = 1)) (decide (o = 2)) s

/-- LD.span (R214). -/
def execLdSpan (d a : BitVec 7) (k : BitVec 3) (t : BitVec 4) (u : Bool) (s : State) : Out :=
  loadWord (.ldSpan d a k t u) d a t u (.span t.toNat k.toNat) false false s

/-- ST (R215). -/
def execSt (d a : BitVec 7) (r : Bool) (t : BitVec 4) (u : Bool) (s : State) : Out :=
  runWord (.st d a r t u) (dataChecks u a (memSize t) .store []) (fun s l g =>
    s.startMem l { l.start s (.store t.toNat) u with srcs := srcOf g d (tySize t) ++ srcOf g a 2, rel := r } (!r)
      (accessesOf s l g u (fun e =>
        { id := 0, thread := 0, va := e.adr a, len := memSize t, data := storeBytes t (e.z.typed t d) }))) s

/-- An address that PREF drops: it would fail R211, or its page is not present (R217). One whose page is in transition
holds the group instead (R240). -/
def Thr.prefDrops (e : Thr) (va : Nat) : Bool :=
  decide (2 ^ 57 ≤ va) ||
    match e.look va with
    | .absent _ _ _ _ _ => true
    | .moving _ => false
    | .present t => (e.present va).isNone || (e.s.pageFault t .load va (dieOfCore e.l.core)).isSome

/-- The page of an address is in transition, which holds every access to it (R240). -/
def Thr.moving (e : Thr) (va : Nat) : Bool := match e.look va with
  | .moving _ => decide (va < 2 ^ 57)
  | _ => false

/-- The first bytes of the 2^k grains from the grain of va, to the end of its 4 KiB frame (R217). -/
def prefGrains (t : Tr) (va k : Nat) : List Nat :=
  let g := grainOf t.leaf
  let first := va / g
  (List.range (min (2 ^ k) (4096 / g - va % 4096 / g))).map (fun i => (first + i) * g)

/-- PREF.rind of one address: a fill request at the home (R217, R263). -/
def State.prefRind (s : State) (e : Thr) (va k : Nat) : State :=
  match e.present va with
  | none => s
  | some t =>
    if t.scratch || !roomFor s t.home (t.phys va / 4096) (grainOf t.leaf) then s
    else s.requestFill t.home (t.phys va) (grainOf t.leaf) (2 ^ k) false

/-- The accesses of PREF.l1 of one address, one for each whole grain, where R190 permits (R217). -/
def State.prefAccs (s : State) (e : Thr) (va k : Nat) : List Access :=
  match e.present va with
  | none => []
  | some t => if s.cacheable e.l.core t (t.phys va) then
      (prefGrains t va k).map (fun v => ({ id := 0, thread := e.t, va := v, len := grainOf t.leaf } : Access))
    else []

/-- What PREF or CSPAN has to do for threads whose pages are in transition: it holds the group until they are not (R240).
Neither has a flag. -/
def State.holdHint (s : State) (l : Lane) (kind : OpKind) (u : Bool) (accs : List Access) : State :=
  if accs.isEmpty then s
  else
    { s with
      nextId := s.nextId + 1 + accs.length
      ops := s.ops ++ [{ l.start s kind u with
        flag := 15, accs := (accs.zipIdx.map (fun x => { x.1 with id := s.nextId + 1 + x.2, st := .held })) }] }

/-- PREF (R217): level 0 fills the L1 where R190 permits, level 1 the rind. -/
def execPref (x a : BitVec 7) (k : BitVec 3) (v : BitVec 2) (u : Bool) (s : State) : Out :=
  runWord (.pref x a k v u) noOwn (fun s l g =>
    let all := ((l.execThreads u).map (thr s l g)).filter (fun e => decide (e.adr a < 2 ^ 57))
    let es := all.filter (fun e => !e.prefDrops (e.adr a))
    let wait := (es.filter (fun e => e.moving (e.adr a))).map (fun e =>
      ({ id := 0, thread := e.t, va := e.adr a, len := 1, opnd := k.toNat } : Access))
    let now := es.filter (fun e => !e.moving (e.adr a))
    let s0 := all.foldl (fun s e => s.noteLook e.l.core e.l.launch e.slot (e.look (e.adr a))) s
    if v = 0 then
      let accs := now.flatMap (fun e => s.prefAccs e (e.adr a) k.toNat)
      let s1 := if accs.isEmpty then s0 else s0.startMem l { l.start s0 .pref u with flag := 15 } false accs
      s1.holdHint l .pref u wait
    else (now.foldl (fun s e => s.prefRind e (e.adr a) k.toNat) s0).holdHint l .prefRind u wait) s

/-- PQRY (R218): the query is answered when it completes. -/
def execPqry (d a z : BitVec 7) (u : Bool) (s : State) : Out :=
  runWord (.pqry d a z u) noOwn (fun s l g =>
    { s with
      nextId := s.nextId + 1
      ops := s.ops ++ [{ l.start s .pqry u with
        dst := dstOf g d 2
        accs := accessesOf s l g u (fun e => { id := 0, thread := 0, va := e.adr a, len := 8, st := .done }) }] }) s

/-! ### ATOM -/

/-- Words as one number, the first lowest. -/
def numOfWords : List Word → Nat
  | [] => 0
  | w :: ws => w.toNat + 2 ^ 32 * numOfWords ws

/-- The victim core that v[A+2] names (R224). (DEDUCED, log 17) -/
def victimCore (core : Nat) (w : Word) : Nat := core / 256 % 32 * 256 + w.toNat / 128 % 2 * 128 + w.toNat % 128

/-- The checks of a promotion (R224). (DEDUCED, log 17) -/
def promChecks (a : BitVec 7) : List (Thr → Option Trap) :=
  let word := fun (e : Thr) => (e.vN 4 a).getD 2 0
  [ failIf (fun e => decide (96 ≤ (word e).toNat % 128)) Code.addrRange (fun e => (word e).toNat),
    fun e => (e.s.absentCode (dieOfCore (victimCore e.l.core (word e)))).map (fun _ =>
      { code := Code.dieAbsent, addr := (word e).toNat }) ]

/-- Registers of operation o's D group (R220). -/
def atomGroup (o : Nat) (t : BitVec 3) : Nat := if o = 8 ∨ o = 10 then 2 * atomRegs t else atomRegs t

/-- ATOM (R220, R221, R224). -/
def atomWord (i : Instr) (o : Nat) (d a : BitVec 7) (p : Bool) (ord : BitVec 2) (t : BitVec 3) (u : Bool) (s : State) : Out :=
  let n := atomRegs t
  let adr := fun (e : Thr) => if p then numOfWords ((e.vN 4 a).take 2) else e.adr a
  runWord i
    (fun s l g => firstFail s l g u ([chkRange adr, chkAlign adr (4 * n)] ++ (if p then promChecks a else []) ++
      chkPage adr .atomic))
    (fun s l g =>
      s.startMem l
        { l.start s (.atom o t.toNat) u with
          dst := dstOf g d n, srcs := srcOf g d (atomGroup o t) ++ srcOf g a (if p then 4 else 2)
          acq := ord.getLsbD 0, rel := ord.getLsbD 1 }
        false
        (accessesOf s l g u (fun e =>
          let ops := e.z.vN (atomGroup o t) d
          { id := 0, thread := 0, va := adr e, len := 4 * n, opnd := numOfWords (ops.take n), opnd2 := numOfWords (ops.drop n)
            victim := if p then some (victimCore l.core ((e.vN 4 a).getD 2 0)) else none }))) s

def execAtomAdd (d a : BitVec 7) (p : Bool) (o : BitVec 2) (t : BitVec 3) (u : Bool) (s : State) : Out :=
  atomWord (.atomAdd d a p o t u) 0 d a p o t u s
def execAtomSub (d a : BitVec 7) (p : Bool) (o : BitVec 2) (t : BitVec 3) (u : Bool) (s : State) : Out :=
  atomWord (.atomSub d a p o t u) 1 d a p o t u s
def execAtomMin (d a : BitVec 7) (p : Bool) (o : BitVec 2) (t : BitVec 3) (u : Bool) (s : State) : Out :=
  atomWord (.atomMin d a p o t u) 2 d a p o t u s
def execAtomMax (d a : BitVec 7) (p : Bool) (o : BitVec 2) (t : BitVec 3) (u : Bool) (s : State) : Out :=
  atomWord (.atomMax d a p o t u) 3 d a p o t u s
def execAtomAnd (d a : BitVec 7) (p : Bool) (o : BitVec 2) (t : BitVec 3) (u : Bool) (s : State) : Out :=
  atomWord (.atomAnd d a p o t u) 4 d a p o t u s
def execAtomOr (d a : BitVec 7) (p : Bool) (o : BitVec 2) (t : BitVec 3) (u : Bool) (s : State) : Out :=
  atomWord (.atomOr d a p o t u) 5 d a p o t u s
def execAtomXor (d a : BitVec 7) (p : Bool) (o : BitVec 2) (t : BitVec 3) (u : Bool) (s : State) : Out :=
  atomWord (.atomXor d a p o t u) 6 d a p o t u s
def execAtomSwap (d a : BitVec 7) (p : Bool) (o : BitVec 2) (t : BitVec 3) (u : Bool) (s : State) : Out :=
  atomWord (.atomSwap d a p o t u) 7 d a p o t u s
def execAtomCas (d a : BitVec 7) (p : Bool) (o : BitVec 2) (t : BitVec 3) (u : Bool) (s : State) : Out :=
  atomWord (.atomCas d a p o t u) 8 d a p o t u s
def execAtomIncw (d a : BitVec 7) (p : Bool) (o : BitVec 2) (t : BitVec 3) (u : Bool) (s : State) : Out :=
  atomWord (.atomIncw d a p o t u) 9 d a p o t u s
def execAtomAddb (d a : BitVec 7) (p : Bool) (o : BitVec 2) (t : BitVec 3) (u : Bool) (s : State) : Out :=
  atomWord (.atomAddb d a p o t u) 10 d a p o t u s
def execAtomFadd (d a : BitVec 7) (p : Bool) (o : BitVec 2) (t : BitVec 3) (u : Bool) (s : State) : Out :=
  atomWord (.atomFadd d a p o t u) 11 d a p o t u s

/-- The row of R222: w-bit numbers, and what the operation stores, if anything. -/
def atomNew (o : Nat) (t : BitVec 3) (old x y : Nat) : Option Nat :=
  let w := 32 * atomRegs t
  let m := 2 ^ w
  let signed := decide (t = 1) || decide (t = 3)
  let below := if signed then decide (intOf true w old < intOf true w x) else decide (old < x)
  match o with
  | 0 => some ((old + x) % m)
  | 1 => some ((old + m - x % m) % m)
  | 2 => some (if below then old else x)
  | 3 => some (if below then x else old)
  | 4 => some (old &&& x)
  | 5 => some (old ||| x)
  | 6 => some (old ^^^ x)
  | 7 => some x
  | 8 => if old = x then some y else none
  | 9 => some (if x ≤ old then 0 else (old + 1) % m)
  | 10 => if old + x < m ∧ old + x ≤ y then some (old + x) else none
  | _ => some (if t = 4 then Fmt.f32.add .rne old x else Fmt.f64.add .rne old x)

end Sys2Proof.Machine
end

