-- ==== Sys2Proof/Machine/Local.lean ====
section
/-!
DEFINITION. Local.lean: LDL and STL (R194, R208, R216).
-/
namespace Sys2Proof.Machine

/-- The local address of a thread. -/
def Thr.ladr (e : Thr) (a : BitVec 7) : Nat := (e.v32 a).toNat

/-- Step 1 of R211 for a local address: R194, for n bytes. -/
def chkLocal (adr : Thr → Nat) (n : Nat) : Thr → Option Trap :=
  failIf (fun e => match e.s.team? e.l.launch e.l.team with
    | none => true
    | some t => (e.s.localTarget t (adr e) n).isNone) Code.localRange adr

/-- Steps 1 and 2 of R211 for LDL and STL: R194 names the byte at the address, then natural alignment (R216). -/
def localChecks (u : Bool) (a : BitVec 7) (n : Nat) (s : State) (l : Lane) (g : Group) : Option Trap :=
  firstFail s l g u [chkLocal (fun e => e.ladr a) 1, chkAlign (fun e => e.ladr a) n]

/-- Start a local-store operation: its accesses join the group's stream (R208). -/
def State.startLocal (s : State) (l : Lane) (o : Op) (accs : List Access) (load rel : Bool) : State :=
  let bs := numbered (s.nextId + 1) accs
  let es := bs.zipIdx.map (fun x =>
    ({ id := x.1.id, addr := x.1.va, kind := if load then .load o.id x.1.id else .store o.id x.1.id x.1.data
       rel := rel && decide (x.2 = 0), after := o.id } : LocalAcc))
  let s1 := { s with nextId := s.nextId + 1 + bs.length, ops := s.ops ++ [{ o with accs := bs, acqDone := !o.acq }] }
  (s1.modGroup l.launch l.team l.gnum (fun g => { g with stream := g.stream ++ es })).drainLocal l.launch l.team l.gnum false

/-- LDL (R216). -/
def execLdl (d a : BitVec 7) (q : Bool) (t : BitVec 4) (u : Bool) (s : State) : Out :=
  runWord (.ldl d a q t u) (localChecks u a (memSize t)) (fun s l g =>
    s.startLocal l { l.start s (.localLoad t.toNat) u with dst := dstOf g d (tySize t), acq := q }
      (accessesOf s l g u (fun e => { id := 0, thread := 0, va := e.ladr a, len := memSize t, st := .sent })) true false) s

/-- STL (R216). -/
def execStl (d a : BitVec 7) (r : Bool) (t : BitVec 4) (u : Bool) (s : State) : Out :=
  runWord (.stl d a r t u) (localChecks u a (memSize t)) (fun s l g =>
    s.startLocal l { l.start s (.localStore t.toNat) u with srcs := srcOf g d (tySize t) ++ srcOf g a 1 }
      (accessesOf s l g u (fun e =>
        { id := 0, thread := 0, va := e.ladr a, len := memSize t, data := storeBytes t (e.z.typed t d), st := .done }))
      false r) s

end Sys2Proof.Machine
end

