-- ==== Sys2Proof/Machine/Barrier.lean ====
section
/-!
DEFINITION. Barrier.lean: the barrier instructions (R304 to R311) and the events that reach an object from outside its
core (R301, R310).
-/
namespace Sys2Proof.Machine

/-- The checks of R304; `partner`: DIEB may be set. -/
def barChecks (u partner : Bool) (a : BitVec 7) (s : State) (l : Lane) (g : Group) : Option Trap :=
  let adr := fun (e : Thr) => e.ladr a
  firstFail s l g u
    [ chkLocal adr 1,
      failIf (fun e => !partner && decide (adr e / 2 ^ 19 % 2 = 1)) Code.localRange adr,
      chkAlign adr 32 ]

/-- Append barrier operations to the group's stream, one for each executing thread, and apply what may be applied (R300,
R304). -/
def State.pushBar (s : State) (l : Lane) (g : Group) (u rel : Bool) (a : BitVec 7) (kind : Thr → LocalKind) : State :=
  let es := ((l.execThreads u).map (thr s l g)).zipIdx.map (fun x =>
    ({ id := s.nextId + x.2, addr := x.1.ladr a, kind := kind x.1, rel := rel, after := s.nextId + x.2 } : LocalAcc))
  (({ s with nextId := s.nextId + es.length } : State).modGroup l.launch l.team l.gnum (fun g => { g with
    stream := g.stream ++ es })).drainLocal l.launch l.team l.gnum false

/-- BINIT (R305). -/
def execBinit (d a z : BitVec 7) (u : Bool) (s : State) : Out :=
  runWord (.binit d a z u) (barChecks u false a) (fun s l g => s.pushBar l g u false a (fun e => .binit (e.z.v64 d))) s

/-- BINVAL (R305). -/
def execBinval (x a z : BitVec 7) (u : Bool) (s : State) : Out :=
  runWord (.binval x a z u) (barChecks u false a) (fun s l g => s.pushBar l g u false a (fun _ => .binval)) s

/-- BARV, register form: a release at CORE scope (R299, R306). -/
def execBarv (x a b : BitVec 7) (u : Bool) (s : State) : Out :=
  runWord (.barv x a b u) (barChecks u true a)
    (fun s l g => s.pushBar l g u true a (fun e => .barv ((e.y.v32 b).toNat % 65536))) s

/-- BARV, immediate form (R306). -/
def execBarvImm (x a i : BitVec 7) (u : Bool) (s : State) : Out :=
  runWord (.barvImm x a i u) (barChecks u true a) (fun s l g => s.pushBar l g u true a (fun _ => .barv i.toNat)) s

/-- BEXP (R307). -/
def execBexp (x a b : BitVec 7) (u : Bool) (s : State) : Out :=
  runWord (.bexp x a b u) (barChecks u false a) (fun s l g => s.pushBar l g u false a (fun e => .bexp (e.y.v32 b).toNat)) s

/-- BWAIT: operands from the lowest-numbered issuing thread; the wait is judged after the clause (R304, R308). -/
def execBwait (x a b : BitVec 7) (u : Bool) (s : State) : Out :=
  runWord (.bwait x a b u) (barChecks true false a) (fun s l g =>
    let e := thr s l g l.lowest
    s.modLane (fun k => { k with
      bwait := some (e.ladr a, .bwait ((e.y.v32 b).getLsbD 16) ((e.y.v32 b).toNat % 65536)) })) s

/-- BSYNC: the arrival counts the issuing threads, or 1 with U (R310). -/
def execBsync (x a b : BitVec 7) (u : Bool) (s : State) : Out :=
  runWord (.bsync x a b u) (barChecks true false a) (fun s l g =>
    let e := thr s l g l.lowest
    s.modLane (fun k => { k with
      bwait := some (e.ladr a, .bsync (if u then 1 else (threadsOf l.issuing).length) (e.y.v32 b).toNat l.issuing) })) s

/-- The group's stream still holds an operation on the object, or a store to it (R304). -/
def Group.pendingOn (g : Group) (off : Nat) : Bool :=
  g.stream.any (fun e => decide (e.addr / 2 ^ 19 % 2 = 0) && decide (localOff e.addr / 32 * 32 = off) && (match e.kind with
    | .load _ _ => false
    | _ => true))

/-- What BTEST reads from an object (R309). -/
def btestWord (t : Team) (off : Nat) (p : Word) : Word :=
  let c := t.barPhase off (p.getLsbD 16)
  (if decide (c % 2 = 1) == p.getLsbD 0 then 0#32 else 1#32) ||| (if t.barValid off then 2#32 else 0#32)

/-- BTEST reads in the lane, after every earlier write of the group to the object: until then it waits there (R304,
R309). -/
def execBtest (d a b : BitVec 7) (u : Bool) (s : State) : Out :=
  match s.lanes with
  | [] => .fault .noLane
  | l :: _ =>
    match s.laneGroup? l with
    | none => .fault .noLane
    | some g =>
      let offs := (l.execThreads u).map (fun t => localOff ((thr s l g t).ladr a))
      if (checkWord (.btest d a b u) s l g).isNone && (barChecks u false a s l g).isNone && offs.any g.pendingOn then
        .next (s.modLane (fun k => { k with stalled := true }))
      else
        runWord (.btest d a b u) (barChecks u false a) (fun s l g =>
          let s0 := offs.foldl (fun s o => s.useBar l.launch l.team o) s
          let f := fun (e : Thr) => match s0.team? l.launch l.team with
            | none => (0 : Word)
            | some t => btestWord t (localOff (e.ladr a)) (e.y.v32 b)
          let seen := (l.execThreads u).any (fun t =>
            let e := thr s0 l g t
            (f e).getLsbD 0 && !(e.y.v32 b).getLsbD 16 &&
              ((s0.team? l.launch l.team).map (fun (x : Team) => decide (x.bar (localOff (e.ladr a)) 0 9 1 = 1))).getD false)
          (if seen then s0.acquireL1 l.core else s0).putRegs l.launch l.team l.gnum
            (writesAt g d (resultsOf s l g u (fun e => [f e])))) s

/-- REMOTE_ARRIVAL (R301): subjects launch, team and group that sent it. The BARV at the head of the group's stream
reaches the partner; where the partner takes none, it waits to be sent again (R173). -/
def execRemoteArrival (s : State) : Out :=
  event s (match s.group? (s.sub 0) (s.sub 1) (s.sub 2) with
    | none => none
    | some g =>
      match g.stream with
      | [] => none
      | e :: _ =>
        match e.kind with
        | .barv _ =>
          if decide (e.addr / 2 ^ 19 % 2 = 0) || !s.localReady g [] e true then none
          else some ((s.drainLocal g.launch g.team g.gnum true).settle)
        | _ => none)

/-- Missing threads of a BSYNC that timed out (R311): thread, state, PC, 64 * slot + group, mask. -/
def missingThreads (s : State) (t : Team) (off p : Nat) : List (Nat × Nat × Nat × Nat × Word) :=
  let gset := t.readNum (off + 24) 8
  (s.groups.filter (fun g => g.launch == t.launch && g.team == t.idx && !g.exited && decide (gset / 2 ^ g.gnum % 2 = 1))).flatMap
    (fun g =>
      let mask := (g.bsyncs.filter (fun b => b.1 == off && b.2.1 == p)).foldl (fun m b => m ||| b.2.2) (0 : Word)
      (g.thr.zipIdx.filter (fun x => decide (x.1.st ≠ .done) && !mask.getLsbD x.2)).map (fun x =>
        (x.2, match x.1.st with
          | .run => 0
          | .park => 1
          | .wait => 2
          | .done => 3, x.1.pc.toNat, 64 * t.slot + g.gnum, (0 : Word))))

/-- What the record of a BSYNC's time-out says as it expires (R311): DETAIL and the missing threads. -/
def State.expiry (s : State) (g : Group) (a p : Nat) : Option Expiry :=
  (s.team? g.launch g.team).map (fun t =>
    { detail := BitVec.ofNat 32 (p % 65536 * 65536 + t.bar (localOff a) 0 48 16), missing := missingThreads s t (localOff a) p })

/-- BSYNC_TIMEOUT (R310, R311): subjects launch, team, group. -/
def execBsyncTimeout (s : State) : Out :=
  event s (match s.group? (s.sub 0) (s.sub 1) (s.sub 2), s.team? (s.sub 0) (s.sub 1) with
    | some g, some t =>
      match g.wait with
      | .bsync a p left _ =>
        if left ≠ 1 ∨ t.ctx ≠ .run then none
        else
          (g.expired.orElse (fun _ => s.expiry g a p)).map (fun e => s.raiseWait g Code.barTimeout (localOff a) e.detail e.missing)
      | _ => none
    | _, _ => none)

end Sys2Proof.Machine
end

