-- ==== Sys2Proof/Machine/Acc.lean ====
section
/-!
DEFINITION. Acc.lean: accumulator ranges and contributions to them (R97, R209, R269 to R283), as their homes apply them.
-/
namespace Sys2Proof.Machine

/-! ### Elements -/

/-- Bytes of an element. -/
def Range.size (r : Range) : Nat := if r.fmt64 then 8 else 4

/-- Format of an element. -/
def Range.fmt (r : Range) : Fmt := if r.fmt64 then .f64 else .f32

/-- The element's value. -/
def Range.elem (r : Range) (i : Nat) : Nat := Cells.get 0 r.vals i

/-- Change an element. -/
def Range.setElem (r : Range) (i v : Nat) : Range := { r with vals := Cells.set 0 r.vals i v }

/-- Leave an element unpredictable. -/
def Range.spoilElem (r : Range) (i : Nat) : Range := if r.unpred.contains i then r else { r with unpred := i :: r.unpred }

/-- The factor of ACCSCALE, an FP32 value, in the range's format (R287). -/
def Range.factor (r : Range) (f : Nat) : Nat := if r.fmt64 then Fmt.f32.convert .f64 .rne false f else f

/-- Scale one row (R287). -/
def Range.scaleRow (r : Range) (bad : Bool) (row : Nat × Nat × Nat) : Range :=
  (List.range (row.2.1 / r.size)).foldl (fun r k =>
    let i := (row.1 - r.base) / r.size + k
    let r1 := r.setElem i (r.fmt.mul .rne (r.elem i) (r.factor row.2.2))
    if bad then r1.spoilElem i else r1) r

/-- Apply a contribution (R97, R274): each element takes its part, REMAIN falls and the next number follows. In a FAST
range the count, which R277 defines for ORD alone, goes on as well, and DETAIL of an ACC_SEQ record shows it.
(DESIGN CHOICE, log 77) -/
def Range.apply (r : Range) (c : Contrib) : Range :=
  let r1 := c.elems.foldl (fun r e =>
    let i := (e.1 - r.base) / r.size
    let r1 := r.setElem i (r.fmt.add .rne (r.elem i) e.2.1)
    if e.2.2 then r1.spoilElem i else r1) r
  let r2 := c.scale.foldl (fun r row => r.scaleRow c.bad row) r1
  { r2 with remain := r2.remain - 1, seqNext := (r2.seqNext + 1) % 65536 }

/-- Apply every pooled contribution whose number is next, in turn (R276). -/
def Range.applyPool : Nat → Range → Range
  | 0, r => r
  | n + 1, r =>
    match r.pool.find? (fun c => decide (c.seq = r.seqNext)) with
    | none => r
    | some c => Range.applyPool n ({ r with pool := r.pool.filter (fun x => x.id != c.id) }.apply c)

/-! ### Banks and pools -/

/-- Virtual addresses a contribution touches, one for each element or row element. -/
def Contrib.places (c : Contrib) (size : Nat) : List Nat :=
  c.elems.map (·.1) ++ c.scale.flatMap (fun r => (List.range (r.2.1 / size)).map (fun k => r.1 + k * size))

/-- Die and bank of a virtual address of a range. -/
def Range.bankAt (s : State) (r : Range) (va : Nat) : Option (Nat × Nat) :=
  (r.phys va).map (fun p => (dieOfPa p, bankOf (s.die (dieOfPa p)) (p / 4096)))

/-- Banks that hold a contribution's elements. -/
def Contrib.banks (s : State) (r : Range) (c : Contrib) : List (Nat × Nat) :=
  ((c.places r.size).filterMap (fun va => r.bankAt s va)).eraseDups

/-- Pool entries in use in a bank, over every range whose pool stands in the rind: that of a SAVED range is in its image
(R276, R281). -/
def poolUsed (s : State) (b : Nat × Nat) : Nat :=
  s.ranges.foldl (fun n r => if r.live then n + (r.pool.filter (fun c => (c.banks s r).contains b)).length else n) 0

/-- The pool of the range is within the limits of R276 (R277). -/
def poolWithin (s : State) (r : Range) : Bool :=
  r.pool.all (fun c => decide ((c.seq + 65536 - r.seqNext) % 65536 < 64) &&
    (c.banks s r).all (fun b => decide (poolUsed s b ≤ 64)))

/-- What becomes of an arriving contribution (R275, R276). -/
inductive Fate where
  | apply | hold | refuse | discard
  deriving DecidableEq, Repr

/-- The fate of a contribution at a live range. `draining`: it comes from a team that is draining (R277). -/
def fate (s : State) (r : Range) (c : Contrib) (draining : Bool) : Fate :=
  if !r.ord then (if r.remain = 0 then .discard else .apply)
  else
    let d := (c.seq + 65536 - r.seqNext) % 65536
    if 32768 ≤ d then .discard
    else if r.remain ≤ d then .discard
    else if r.pool.any (fun x => x.seq == c.seq) then .discard
    else if d = 0 then .apply
    else if !c.scale.isEmpty then .refuse
    else if draining then .hold
    else if !poolWithin s r then .refuse
    else if 64 ≤ d || (c.banks s r).any (fun b => decide (64 ≤ poolUsed s b)) then .refuse
    else .hold

/-- An ACC_SEQ record (R277). -/
def State.accSeq (s : State) (c : Contrib) (seqNext : Nat) : State :=
  let first := match c.elems with
    | e :: _ => e.1
    | [] => (c.scale.headD (0, 0, 0)).1
  s.raiseLaunch c.launch c.team Code.accSeq Cls.async first (BitVec.ofNat 32 (c.seq * 65536 + seqNext))

/-! ### Reductions at memory -/

/-- RED at memory (R290): 0 fast, 2 min, 3 max. -/
def redNew (k : Nat) (wide : Bool) (old x : Nat) : Nat :=
  let f := if wide then Fmt.f64 else Fmt.f32
  if k = 2 then f.minMax false old x else if k = 3 then f.minMax true old x else f.add .rne old x

/-- REDI (R58, R290): 0 add, 1 min signed, 2 min unsigned, 3 max signed, 4 max unsigned, 5 and, 6 or, 7 xor. -/
def rediNew (k : Nat) (wide : Bool) (old x : Nat) : Nat :=
  let w := if wide then 64 else 32
  match k with
  | 0 => (old + x) % 2 ^ w
  | 1 => if intOf true w old < intOf true w x then old else x
  | 2 => min old x
  | 3 => if intOf true w old < intOf true w x then x else old
  | 4 => max old x
  | 5 => old &&& x
  | 6 => old ||| x
  | _ => old ^^^ x

/-- Leave the values of the accumulating elements that n bytes from pa meet unpredictable (R283). -/
def State.spoilMet (s : State) (pa n : Nat) : State :=
  (List.range n).foldl (fun s i =>
    match s.rangeAt (pa + i) with
    | none => s
    | some (r, e) => s.modRange r.id (fun r => r.spoilElem e)) s

/-- A FAST contribution that was checked as an ordinary reduction and meets an accumulating element (R283): applied
where the range is FAST and of its format, else every element that its bytes meet is left unpredictable. -/
def State.fastAt (s : State) (r : Range) (i : Nat) (wide : Bool) (x pa : Nat) (L T : Nat) (va : Nat) : State :=
  if !r.ord && r.fmt64 == wide then
    if r.remain = 0 then s.raiseLaunch L T Code.accSeq Cls.async va (BitVec.ofNat 32 r.seqNext)
    else s.modRange r.id (fun r => { r.setElem i (r.fmt.add .rne (r.elem i) x) with
      remain := r.remain - 1, seqNext := (r.seqNext + 1) % 65536 })
  else s.spoilMet pa (if wide then 8 else 4)

/-- Apply RED or REDI to an element at its home (R269, R283, R290). -/
def State.reduceHome (s : State) (red : Bool) (k : Nat) (wide : Bool) (pa grain x L T va : Nat) : State :=
  let n := if wide then 8 else 4
  match s.rangeAt pa with
  | some (r, i) => if red && decide (k = 0) then s.fastAt r i wide x pa L T va else s.spoil pa n
  | none =>
    let old := s.homeNum pa n
    s.homeWrite pa grain (bytesOf (if red then redNew k wide old x else rediNew k wide old x) n)

/-! ### Arrival -/

/-- The home has taken or discarded a contribution: its sender's entry leaves the store queue, its operation goes on
(R270, R290). (DEDUCED, log 27) -/
def State.contribDone (s : State) (c : Contrib) (pooled : Bool) : State :=
  let s1 := s.modGroup c.launch c.team c.gnum (fun g => { g with sq := g.sq.filter (fun e => !(c.entry ≠ 0 && e.id == c.entry)) })
  let s2 := if c.scale.isEmpty then s1
    else s1.modOp c.op (fun o => { o with accs := o.accs.map (fun a => { a with st := .done }) })
  let s3 := { s2 with mmas := updWhere (fun m => m.id == c.mma && decide (c.mma ≠ 0)) (fun m => { m with accepted := c.chunk :: m.accepted }) s2.mmas }
  let part := fun (d : Dest) => { d with left := d.left - 1 }
  let s4 := { s3 with fabs := updWhere (fun f => f.id == c.fab && decide (c.fab ≠ 0)) (fun f => { f with dests := f.dests.map part }) s3.fabs }
  { s4 with contribs := s4.contribs.filter (fun x => x.id != c.id) }.modRange c.range (fun r =>
    if pooled then { r with pool := r.pool ++ [c] } else r)

/-- The team of a contribution is draining: its clauses have all ended (R172, R175, R277). -/
def State.draining (s : State) (c : Contrib) : Bool :=
  ((s.team? c.launch c.team).map (fun t => decide (t.ctx = .draining))).getD false

/-- A contribution whose range is gone (R283): FAST elements reduce at memory, everything else is discarded with
ACC_SEQ, whose DETAIL has no SEQNEXT to give and holds 0 for it. (DESIGN CHOICE, log 75) -/
def State.contribLate (s : State) (c : Contrib) : State :=
  if c.ord || !c.scale.isEmpty then (s.accSeq c 0).contribDone c false
  else
    let s1 := c.elems.foldl (fun s e =>
      match c.trs.find? (fun t => decide (t.page ≤ e.1) && decide (e.1 < t.page + t.size)) with
      | none => s
      | some t =>
        let n := if c.wide then 8 else 4
        let x := if e.2.2 then numOf (s.freeBytes e.1 n) else e.2.1
        s.reduceHome true 0 c.wide (t.phys e.1) (grainOf t.leaf) x c.launch c.team e.1) s
    s1.contribDone c false

/-- An arrival from team `frm` of the launch is taken by team T: in RUN, or while both drain as one unit (R173, R174).
(DEDUCED, log 65) -/
def State.takesFrom (s : State) (L T frm : Nat) : Bool :=
  match s.team? L T with
  | none => true
  | some t => decide (t.ctx = .run) || decide (frm = T) ||
      ((decide (t.ctx = .halting) || decide (t.ctx = .draining)) &&
        (decide (t.partner = some frm) || ((s.launch? L).map (fun x => decide (x.bits 2 52 1 = 1))).getD false))

/-- Deliver a contribution; none where its home refuses it (R173, R275, R276). (DEDUCED, log 27) -/
def State.deliver (s : State) (c : Contrib) : Option State :=
  match s.ranges.find? (fun r => r.id == c.range) with
  | none => some (s.contribLate c)
  | some r =>
    if r.st = .saved ∨ r.st = .opening ∨ (c.fab ≠ 0 ∧ !s.takesFrom r.launch r.team c.team) then none
    else
      match fate s r c (s.draining c) with
      | .refuse => none
      | .discard => some ((s.accSeq c r.seqNext).contribDone c false)
      | .hold => some (s.contribDone c true)
      | .apply => some ((s.modRange r.id (fun r => (r.apply c).applyPool (r.pool.length + 1))).contribDone c false)

/-! ### Open and close -/

/-- Pages of a byte range by steps of 64 KiB: an address in each (R273). -/
def pageSteps (va n : Nat) : List Nat :=
  if n = 0 then []
  else va :: (List.range ((va + n - 1) / 65536 - va / 65536)).map (fun i => (va / 65536 + 1 + i) * 65536)

/-- The pages of a range, where every one is present and not logged. -/
def State.rangePages (s : State) (core launch : Nat) (slot : Option (Nat × Nat)) (va n : Nat) : Option (List Tr) :=
  ((pageSteps va n).mapM (fun a => match s.place core launch slot a false with
    | .go t => some t
    | _ => none)).map List.eraseDups

/-- Units a range needs: die, frame, units (R279). -/
def Range.needs (r : Range) : List (Nat × Nat × Nat) := r.parts.map (fun p => (dieOfPa (p.1 * 4096), p.1, p.2))

/-- Units of a range in one bank. -/
def Range.inBank (s : State) (r : Range) (b : Nat × Nat) : Nat :=
  (r.needs.filter (fun x => decide (x.1 = b.1) && decide (bankOf (s.die b.1) x.2.1 = b.2))).foldl (fun n x => n + x.2.2) 0

/-- Banks a range needs. -/
def Range.banks (s : State) (r : Range) : List (Nat × Nat) :=
  (r.needs.map (fun x => (x.1, bankOf (s.die x.1) x.2.1))).eraseDups

/-- Units and tags of the range in the set of a frame. -/
def Range.inSet (s : State) (r : Range) (d f : Nat) : Nat × Nat :=
  (r.needs.filter (fun x => decide (x.1 = d) && sameSet (s.die d) f x.2.1)).foldl (fun a x => (a.1 + x.2.2, a.2 + 1)) (0, 0)

/-- The range could never be served (R279). -/
def Range.never (s : State) (r : Range) : Bool :=
  (r.banks s).any (fun b => decide (128 * ((s.die b.1).brole.getD b.2 {}).accq < r.inBank s b)) ||
    r.needs.any (fun x => decide (128 < (r.inSet s x.1 x.2.1).1) || decide (16 < (r.inSet s x.1 x.2.1).2))

/-- The range an ACCOPEN asks for (R272, R285). -/
def openRangeOf (id isl launch team va n : Nat) (desc : Nat) (trs : List Tr) : Range :=
  { id := id, launch := launch, isl := isl, team := team, base := va, len := n, fmt64 := decide (desc % 2 = 1)
    ord := decide (desc / 2 % 2 = 1), remain := desc / 65536 % 2 ^ 32, seqNext := desc / 2 ^ 48 % 65536, trs := trs }

/-- The range that a waiting access of an ACCOPEN would open. -/
def State.wantedRange (s : State) (o : Op) (a : Access) : Option Range :=
  match s.team? o.launch o.team with
  | none => none
  | some t => (s.rangePages t.core o.launch (some (groupSlot t o.gnum, a.thread)) a.va a.len).map (fun trs =>
      openRangeOf a.id (t.core / 256) o.launch o.team a.va a.len a.opnd trs)

/-- The ranges of ACCOPENs whose accesses are in some state: operation, access, range; oldest first. -/
def State.opensIn (s : State) (st : AccSt) : List (Nat × Nat × Range) :=
  s.ops.flatMap (fun o =>
    if o.kind = .accOpen then
      o.accs.filterMap (fun a => if a.st = st then (s.wantedRange o a).map (fun r => (o.id, a.id, r)) else none)
    else [])

/-- The ranges that have obtained their capacity and wait for the release of their group (R273, R279). -/
def State.reserved (s : State) : List Range := (s.opensIn .served).map (fun x => x.2.2)

/-- Capacity for a range, where it is missing no other (R279). `own`: its entry in the range table is its own already.
What an open has obtained that still waits for its group's release is taken (R273). -/
def capacityFor (s : State) (r : Range) (own : Bool) : Bool :=
  let res := s.reserved.filter (fun q => q.id != r.id)
  (r.banks s).all (fun b =>
      let br := (s.die b.1).brole.getD b.2 {}
      decide (br.aused + (res.map (fun q => q.inBank s b)).sum + r.inBank s b ≤ 128 * br.accq)) &&
    r.needs.all (fun x =>
      let h := accHeld s x.1 x.2.1
      let p := res.foldl (fun a q => let n := q.inSet s x.1 x.2.1
        (a.1 + n.1, a.2 + n.2)) ((0 : Nat), (0 : Nat))
      let n := r.inSet s x.1 x.2.1
      decide (h.1 + p.1 + n.1 ≤ 128) && decide (h.2 + p.2 + n.2 ≤ 16)) &&
    (own || decide ((s.ranges.filter (fun q => decide (q.isl = r.isl))).length +
      (res.filter (fun q => decide (q.isl = r.isl))).length < 1024))

/-- Change AUSED by the range's units (R255, R279). -/
def State.useUnits (s : State) (r : Range) (add : Bool) : State :=
  (r.banks s).foldl (fun s b =>
    let n := r.inBank s b
    s.modDie b.1 (fun x => { x with
      brole := setNth x.brole b.2 (let br := x.brole.getD b.2 {}
        { br with aused := if add then br.aused + n else br.aused - n }) })) s

/-- Take grains with bytes in [lo, hi) of a frame out of the blocks that hold them, splitting those blocks (R273, R291).
Their dirty bytes go to HBM first where `save` is set. -/
def State.carve (s : State) (d frame lo hi : Nat) (replica save : Bool) : State :=
  let cut := (s.die d).blocks.filter (fun b => decide (b.frame = frame) && decide (b.replica = replica) &&
    decide (lo < (b.hi + 1) * b.grain) && decide (b.lo * b.grain < hi))
  cut.foldl (fun s b =>
    let inside := fun (g : Nat) => decide (lo < (g + 1) * b.grain) && decide (g * b.grain < hi)
    let s1 := if save then s.writeBack { b with dirty := b.dirty.filter inside } else s
    let first := max b.lo (lo / b.grain)
    let last := min b.hi ((hi - 1) / b.grain)
    let keep := fun (x y : Nat) => ({ b with
      lo := x, hi := y, dirty := b.dirty.filter (fun g => decide (x ≤ g) && decide (g ≤ y))
      data := b.data.keep (fun o => decide (x * b.grain ≤ o) && decide (o < (y + 1) * b.grain)) } : Block)
    let left := if b.lo < first then [keep b.lo (first - 1)] else []
    let right := if last < b.hi then [keep (last + 1) b.hi] else []
    s1.modDie d (fun x => { x with blocks := left ++ right ++ x.blocks.filter (fun c => !(c == b)) })) s

/-- Frame by frame: physical frame and the byte bounds of the range in it. -/
def Range.spans (r : Range) : List (Nat × Nat × Nat) :=
  r.frames.filterMap (fun vf =>
    let lo := max r.base (vf * 4096)
    let hi := min (r.base + r.len) (vf * 4096 + 4096)
    (r.phys lo).map (fun p => (p / 4096, p % 4096, p % 4096 + (hi - lo))))

/-- Grain of the page of the range that holds a physical frame. -/
def Range.grainAt (r : Range) (frame : Nat) : Nat :=
  ((r.trs.find? (fun t => decide (t.pa ≤ frame * 4096) && decide (frame * 4096 < t.pa + t.size))).map (fun t => grainOf t.leaf)).getD 32

/-- Two launches hold open ranges over one frame: the bytes on it are unpredictable after each close (R285). A SAVED
range has no pages pinned: it is judged as it is opened again. -/
def State.markShared (s : State) (r : Range) : State :=
  s.ranges.foldl (fun s q =>
    if q.launch ≠ r.launch && q.live then
      let common := r.parts.map (·.1) |>.filter (fun f => (q.parts.map (·.1)).contains f)
      let mark := fun (x : Range) => (List.range (x.len / x.size)).foldl (fun y i =>
        match y.phys (y.base + i * y.size) with
        | some p => if common.contains (p / 4096) then y.loseElem i else y
        | none => y) x
      if common.isEmpty then s else (s.modRange q.id mark).modRange r.id mark
    else s) s

/-- Steps 2 and 3 of R273: the range enters the table and its grains become accumulating, with their initial values.
`wild`: those are unpredictable, since a source register of the ACCOPEN was written too early (R101). -/
def State.openRange (s : State) (r : Range) (zinit wild : Bool) : State :=
  -- blocks of another grain are first dropped (R262): those that stay are taken apart at whole grains
  let s := r.spans.foldl (fun (s : State) x => s.matchGrain (dieOfPa (x.1 * 4096)) x.1 (r.grainAt x.1)) s
  let n := r.len / r.size
  let vals := if zinit then [] else
    (List.range n).foldl (fun m i => match r.phys (r.base + i * r.size) with
      | some p => Cells.set 0 m i (s.homeNum p r.size)
      | none => m) []
  let lost := if wild then List.range n else if zinit then [] else
    (List.range n).filter (fun i => match r.phys (r.base + i * r.size) with
      | some p => (s.rangeAt p).isSome
      | none => false)
  let s1 := r.spans.foldl (fun s x => s.carve (dieOfPa (x.1 * 4096)) x.1 x.2.1 x.2.2 false false) s
  let s2 := s1.useUnits r true
  let s3 := { s2 with ranges := s2.ranges ++ [{ r with vals := vals, unpred := lost }] }
  let s4 := r.spans.foldl (fun s x => evictFor (dieOfPa (x.1 * 4096)) x.1 (fitsHeld (dieOfPa (x.1 * 4096)) x.1) 17 s) s3
  s4.markShared r

/-- The page of a range that holds an address: one it has pinned, or, where its save has let go of them (R249, R281), as
the island's table maps it now. -/
def State.rangePage (s : State) (r : Range) (va : Nat) : Option Tr :=
  if r.st = .saved then
    match s.walk (if s.diePresent (2 * r.isl) then 2 * r.isl else 2 * r.isl + 1) r.launch va with
    | .present t => some t
    | .moving t => some t
    | _ => none
  else r.trs.find? (fun t => decide (t.page ≤ va) && decide (va < t.page + t.size))

/-- The range is removed from every copy of the range table; `vals`: its values become ordinary dirty grains, else
every byte of it is unpredictable (R278, R280). -/
def State.dropRange (s : State) (r : Range) (vals : Bool) : State :=
  let s1 := { (if r.live then s.useUnits r false else s) with ranges := s.ranges.filter (fun q => q.id != r.id) }
  (List.range (r.len / r.size)).foldl (fun s i =>
    let va := r.base + i * r.size
    match s.rangePage r va with
    | none => s
    | some t =>
      let bs := if vals && !r.unpred.contains i && !r.lost.contains i then bytesOf (r.elem i) r.size else s.freeBytes (va + 7) r.size
      s.homeWrite (t.phys va) (grainOf t.leaf) bs) s1

/-- The close point is reached: closing, REMAIN 0, nothing pooled (R278). -/
def Range.due (r : Range) : Bool := decide (r.st = .closing) && decide (r.remain = 0) && r.pool.isEmpty

/-- The close point (R278). What an ACCCLOSE writes whose source registers were written too early is unpredictable
(R101). -/
def State.closePoint (s : State) (r : Range) : State :=
  let s1 := s.dropRange r (!(s.op? r.closer).any (·.tainted))
  match s.op? r.closer with
  | none => s1
  | some o =>
    let c := ((s.team? o.launch o.team).map (·.core)).getD 0
    let tags := (List.range (r.len / 32)).filterMap (fun i => (r.phys (r.base + 32 * i)).map (· / 32))
    (s1.invalidateL1 c (fun t _ => tags.contains t)).modOp o.id (fun o => { o with
      accs := updWhere (fun a => decide (a.va = r.base)) (fun a => { a with st := .done, len := r.len }) o.accs })

end Sys2Proof.Machine
end

