-- ==== Sys2Proof/Machine/NearCache.lean ====
section
/-!
DEFINITION. NearCache.lean: the near-cache instructions (R284 to R292) and the events of accumulator ranges (R276 to
R280).
-/
namespace Sys2Proof.Machine

/-- The address named by step 1 of R284 with n bytes from it (R284). -/
def chkSpan (adr len : Thr → Nat) : Thr → Option Trap :=
  failIf (fun e => decide (2 ^ 57 ≤ adr e) || decide (2 ^ 57 < adr e + len e)) Code.addrRange adr

/-- A check failing with ALIGN_FAULT. -/
def chkMod (bad : Thr → Bool) (adr : Thr → Nat) : Thr → Option Trap := failIf bad Code.alignFault adr

/-- A range of the launch on the lane's island that contains an address (R289). -/
def Thr.rangeOf (e : Thr) (va : Nat) : Option Range :=
  e.s.ranges.find? (fun r => decide (r.isl = e.l.core / 256) && decide (r.launch = e.l.launch) && decide (r.base ≤ va) &&
    decide (va < r.base + r.len))

/-- A range of the launch on the lane's island that meets [va, va+n). -/
def Thr.rangeMeets (e : Thr) (va n : Nat) : Option Range :=
  e.s.ranges.find? (fun r => decide (r.isl = e.l.core / 256) && decide (r.launch = e.l.launch) && decide (r.base < va + n) &&
    decide (va < r.base + r.len))

/-- The present pages that [va, va+n) meets, with an address in each. -/
def Thr.pages (e : Thr) (va n : Nat) : List (Nat × Tr) := (pageSteps va n).filterMap (fun a => (e.present a).map (fun t => (a, t)))

/-- A check made on every present page of [va, va+n). -/
def onPages (adr len : Thr → Nat) (skip : Thr → Bool) (code : Thr → Nat → Tr → Option Nat) : Thr → Option Trap := fun e =>
  if skip e then none
  else (e.pages (adr e) (len e)).findSome? (fun p => (code e p.1 p.2).map (fun c => { code := c, addr := p.1 }))

/-- Steps of R211 3 to 5 over every present page of a byte range. -/
def chkPages (adr len : Thr → Nat) (skip : Thr → Bool) (k : AccKind) : List (Thr → Option Trap) :=
  [ onPages adr len skip (fun _ a t => if badPermission t k a then some Code.accessFault else none),
    onPages adr len skip (fun e _ t => if badMode t k (dieOfCore e.l.core) then some Code.pageMode else none),
    onPages adr len skip (fun e _ t => if t.scratch then none else e.s.absentCode t.home) ]

/-! ### ACCOPEN -/

/-- The checks of ACCOPEN that also a map notice repeats (R285), for one thread; `others`: base and length of the other
issuing threads' ranges. -/
def accOpenChecks (adr len desc : Thr → Nat) (others : Thr → List (Nat × Nat)) : List (Thr → Option Trap) :=
  [ chkSpan adr len,
    chkMod (fun e => decide (len e = 0) || decide (0x04000000 < len e) || decide (adr e % 32 ≠ 0) || decide (len e % 32 ≠ 0)) adr,
    failIf (fun e => decide (desc e / 8 % 2 ^ 13 ≠ 0) || (e.rangeMeets (adr e) (len e)).isSome ||
      (others e).any (fun o => decide (o.1 < adr e + len e) && decide (adr e < o.1 + o.2))) Code.accFormat adr,
    onPages adr len (fun _ => false) (fun e _ t =>
      if adr e % grainOf t.leaf ≠ 0 ∨ len e % grainOf t.leaf ≠ 0 then some Code.alignFault else none),
    onPages adr len (fun _ => false) (fun _ a t => if badPermission t .atomic a then some Code.accessFault else none),
    onPages adr len (fun _ => false) (fun e _ t =>
      if t.scratch || decide (modeOf t.leaf = 2) || !mayAccumulate t.leaf || badMode t .atomic (dieOfCore e.l.core) then
        some Code.pageMode else none),
    onPages adr len (fun _ => false) (fun e _ t => if t.scratch then none else e.s.absentCode t.home) ]

/-- An ACCOPEN access: held while a page of its range is not present or logged, else waiting for capacity (R279,
R285). -/
def State.placeOpen (s : State) (core launch : Nat) (slot : Option (Nat × Nat)) (a : Access) : State × Access :=
  let s1 := (pageSteps a.va a.len).foldl (fun s v => (s.noteLook core launch slot (s.look core launch slot v)).requestMap core launch v slot) s
  ((s1, { a with st := if (s1.rangePages core launch slot a.va a.len).isSome then .waiting else .held }))

/-- Place the ranges of an ACCOPEN, one for each executing thread. -/
def placeOpens (core launch : Nat) (slot : Nat → Option (Nat × Nat)) : List Access → State → State × List Access
  | [], s => (s, [])
  | a :: rest, s =>
    let (s1, b) := s.placeOpen core launch (slot a.thread) { a with id := s.nextId }
    let (s2, bs) := placeOpens core launch slot rest { s1 with nextId := s1.nextId + 1 }
    (s2, b :: bs)

/-- ACCOPEN (R285). -/
def execAccopen (d a b : BitVec 7) (u : Bool) (s : State) : Out :=
  let adr := fun (e : Thr) => e.adr a
  let len := fun (e : Thr) => (e.y.v32 b).toNat
  runWord (.accopen d a b u)
    (fun s l g => firstFail s l g u (accOpenChecks adr len (fun e => (e.z.v64 d).toNat) (fun e =>
      ((l.execThreads u).filter (· ≠ e.t)).map (fun t => (adr (thr s l g t), len (thr s l g t))))))
    (fun s l g =>
      let slot := fun (t : Nat) => (s.team? l.launch l.team).map (fun x => (groupSlot x l.gnum, t))
      let accs := accessesOf s l g u (fun e => { id := 0, thread := 0, va := adr e, len := len e, opnd := (e.z.v64 d).toNat })
      let (s1, bs) := placeOpens l.core l.launch slot accs { s with nextId := s.nextId + 1 }
      { s1 with ops := s1.ops ++ [{ l.start s .accOpen u with
        accs := bs, srcs := srcOf g d 2 ++ srcOf g a 2 ++ srcOf g b 1 }] }) s

/-- Every held ACCOPEN of an island that waits for capacity: operation, access, range; oldest first (R279). -/
def State.heldOpens (s : State) (isl : Nat) : List (Nat × Nat × Range) :=
  (s.opensIn .waiting).filter (fun x => decide (x.2.2.isl = isl))

/-- The opening group's release at the scope of the range's pages is done: step 1 of R273. -/
def State.openReleased (s : State) (i : Nat) (r : Range) : Bool :=
  match s.op? i with
  | none => false
  | some p => s.relReady (((s.team? p.launch p.team).map (·.core)).getD 0) p.launch p.team p.gnum p.id
      (if r.trs.any (fun t => isIsland t.leaf) then 2 else 1)

/-- Steps 2 to 4 of R273 for an access that has its capacity. -/
def State.openNow (s : State) (i j : Nat) (r : Range) : State :=
  let o := s.op? i
  let zinit := ((o.bind (fun o => o.accs.find? (fun a => a.id == j))).map (fun a => decide (a.opnd / 4 % 2 = 1))).getD false
  ((s.openRange r zinit (o.any (·.tainted))).modAcc i j (fun a => { a with st := .done })).settle

/-- ACCOPEN_CAPACITY (R273, R279): subject the operation. The oldest held open of the island, those that can never be
served passed over, takes its capacity once it is there, and its range opens as soon as the opening group's release is
done: at once, or in a later step. -/
def execAccopenCapacity (s : State) : Out :=
  event s (match s.op? (s.sub 0) with
    | none => none
    | some o =>
      match ((s.opensIn .served).filter (fun x => decide (x.1 = o.id) && s.openReleased o.id x.2.2)).head? with
      | some (i, j, r) => some (s.openNow i j r)
      | none =>
        match s.team? o.launch o.team with
        | none => none
        | some t =>
          match (s.heldOpens (t.core / 256)).find? (fun x => !x.2.2.never s) with
          | none => none
          | some (i, j, r) =>
            if decide (i ≠ o.id) || !capacityFor s r false then none
            else if s.openReleased i r then some (s.openNow i j r)
            else some (s.modAcc i j (fun a => { a with st := .served })))

/-! ### ACCCLOSE -/

/-- ACCCLOSE (R286). -/
def execAccclose (x a z : BitVec 7) (u : Bool) (s : State) : Out :=
  let adr := fun (e : Thr) => e.adr a
  runWord (.accclose x a z u)
    (fun s l g => firstFail s l g u
      [ chkRange adr,
        failIf (fun e =>
          (match e.s.ranges.find? (fun r => decide (r.isl = e.l.core / 256) && decide (r.launch = e.l.launch) && decide (r.base = adr e)) with
            | none => true
            | some r => decide (r.st = .closing) || decide (r.closer ≠ 0)) ||
          (l.execThreads u).any (fun t => decide (t ≠ e.t) && decide (adr (thr s l g t) = adr e))) Code.accFormat adr ])
    (fun s l g =>
      { s with
        nextId := s.nextId + 1 + (l.execThreads u).length
        ops := s.ops ++ [{ l.start s (.accClose 0) u with
          srcs := srcOf g a 2
          accs := numbered (s.nextId + 1) (accessesOf s l g u (fun e => { id := 0, thread := 0, va := adr e, len := 1 })) }]
        ranges := updWhere (fun r => decide (r.isl = l.core / 256) && decide (r.launch = l.launch) &&
            (accessesOf s l g u (fun e => { id := 0, thread := 0, va := adr e, len := 1 })).any (fun a => decide (a.va = r.base)))
          (fun r => { r with closer := s.nextId }) s.ranges }) s

/-- The closing group has released at the range's scope: the pending close stands (R278, R286). A SAVED range refuses
it until it is restored (R173). -/
def State.pendCloses (s : State) : State :=
  s.ranges.foldl (fun (s : State) (r : Range) =>
    match s.op? r.closer with
    | none => s
    | some o =>
      let sc : Nat := if r.trs.any (fun t => isIsland t.leaf) then 2 else 1
      let c := ((s.team? o.launch o.team).map (·.core)).getD 0
      if r.st = .open ∧ s.relReady c o.launch o.team o.gnum o.id sc then s.modRange r.id (fun r => { r with st := .closing }) else s) s

/-- ACC_CLOSE_POINT (R278): subject the range. -/
def execAccClosePoint (s : State) : Out :=
  event s (match s.pendCloses.ranges.find? (fun r => r.id == s.sub 0) with
    | none => none
    | some r => if r.due then some (s.pendCloses.closePoint r).settle else none)

/-! ### ACCSCALE and ACCZERO -/

/-- ACCSCALE (R287). -/
def execAccscale (d a b : BitVec 7) (u : Bool) (s : State) : Out :=
  let adr := fun (e : Thr) => e.adr a
  let len := fun (e : Thr) => (e.z.v64 d).toNat / 2 ^ 32
  let fac := fun (e : Thr) => (e.z.v64 d).toNat % 2 ^ 32
  let first := fun (s : State) (l : Lane) (g : Group) => (thr s l g l.lowest).rangeOf (adr (thr s l g l.lowest))
  runWord (.accscale d a b u)
    (fun s l g => firstFail s l g u
      [ chkSpan adr len,
        failIf (fun e => match first s l g with
          | none => true
          | some r => !(decide (r.base ≤ adr e) && decide (adr e + len e ≤ r.base + r.len))) Code.accFormat adr,
        chkMod (fun e => match first s l g with
          | none => false
          | some r => decide (len e = 0) || decide (adr e % r.size ≠ 0) || decide (len e % r.size ≠ 0)) adr ])
    (fun s l g =>
      let seq := ((thr s l g l.lowest).y.v32 b).toNat % 65536
      let rid := ((first s l g).map (·.id)).getD 0
      let accs := (accessesOf s l g u (fun e =>
        { id := 0, thread := 0, va := adr e, len := len e, opnd := fac e, opnd2 := seq, sk := .scale rid })).zipIdx.map (fun x =>
          { x.1 with id := s.nextId + 1 + x.2, st := if x.2 = 0 then .waiting else .sent })
      ({ s with
        nextId := s.nextId + 1 + accs.length
        ops := s.ops ++ [{ l.start s (.accScale rid) u with
          accs := accs, srcs := srcOf g d 2 ++ srcOf g a 2 ++ srcOf g b 1 }] } : State).admitStores l.launch l.team l.gnum) s

/-- The translations an ACCZERO takes at its issue (R236, R288): inside a range those of the range, else those of its pages
where every one is present and not logged, else none, and the group is held. -/
def Thr.zeroTrs (e : Thr) (va n : Nat) : List Tr :=
  match e.rangeMeets va n with
  | some r => r.trs
  | none => (e.s.rangePages e.l.core e.l.launch e.slot va n).getD []

/-- The lookups of an ACCZERO outside any range: present pages fill the thread's last-page register, and pages not present
are asked for (R233, R241, R288). -/
def State.noteZero (s : State) (e : Thr) (a : Access) : State :=
  if (e.rangeMeets a.va a.len).isSome then s
  else (pageSteps a.va a.len).foldl (fun s v =>
    let s1 := s.noteLook e.l.core e.l.launch e.slot (s.look e.l.core e.l.launch e.slot v)
    if a.st = .held then s1.requestMap e.l.core e.l.launch v e.slot else s1) s

/-- ACCZERO (R288). Bytes inside a SAVED range are taken as inside an open one: steps 4 to 6 are not made, and the bytes are
zeroed through the pages that the range had. (DESIGN CHOICE, log 77) -/
def execAcczero (x a b : BitVec 7) (u : Bool) (s : State) : Out :=
  let adr := fun (e : Thr) => e.adr a
  let len := fun (e : Thr) => (e.y.v32 b).toNat
  let inside := fun (e : Thr) => (e.rangeMeets (adr e) (len e)).isSome || decide (len e = 0)
  runWord (.acczero x a b u)
    (fun s l g => firstFail s l g u
      ([ chkSpan adr len,
         chkMod (fun e => decide (adr e % 32 ≠ 0) || decide (len e % 32 ≠ 0)) adr,
         failIf (fun e => match e.rangeMeets (adr e) (len e) with
           | none => false
           | some r => !(decide (r.base ≤ adr e) && decide (adr e + len e ≤ r.base + r.len))) Code.accFormat adr,
         onPages adr len inside (fun e _ t =>
           if adr e % grainOf t.leaf ≠ 0 ∨ len e % grainOf t.leaf ≠ 0 then some Code.alignFault else none) ] ++
        chkPages adr len inside .store))
    (fun s l g =>
      let accs := (accessesOf s l g u (fun e => { id := 0, thread := 0, va := adr e, len := len e, sk := .zero 0, trs := e.zeroTrs (adr e) (len e) })).map
        (fun x => { x with st := if (x.trAt x.va).isSome || decide (x.len = 0) then .waiting else .held })
      let s0 := accs.foldl (fun s x => s.noteZero (thr s l g x.thread) x) { s with nextId := s.nextId + 1 }
      ({ s0 with
        nextId := s0.nextId + accs.length
        ops := s0.ops ++ [{ l.start s .accZero u with accs := numbered s0.nextId accs, srcs := srcOf g a 2 ++ srcOf g b 1 }] } : State).admitStores
          l.launch l.team l.gnum) s

/-! ### RED and REDI -/

/-- RED and REDI (R289, R290): operation k of R58, element of 8 bytes when `w`, `seq` the sequence number. -/
def redWord (i : Instr) (red : Bool) (k : Nat) (d a : BitVec 7) (b : Option (BitVec 7)) (u w : Bool) (s : State) : Out :=
  let n := if w then 8 else 4
  let adr := fun (e : Thr) => e.adr a
  let seq := fun (e : Thr) => ((b.map e.y.v32).getD 0).toNat % 65536
  runWord i
    (fun s l g => firstFail s l g u
      ([ chkSpan adr (fun _ => n),
         chkAlign adr n,
         failIf (fun e => match e.rangeOf (adr e) with
           | some r => !red || decide (2 ≤ k) || (w != r.fmt64) || (decide (k = 1) != r.ord)
           | none => red && decide (k = 1)) Code.accFormat adr ] ++
        chkPages adr (fun _ => n) (fun e => (e.rangeOf (adr e)).isSome) .store))
    (fun s l g =>
      s.startMem l
        { l.start s .red u with srcs := srcOf g d (wd w) ++ srcOf g a 2 ++ ((b.map (fun c => srcOf g c 1)).getD []) } true
        (accessesOf s l g u (fun e =>
          let x : Access := { id := 0, thread := 0, va := adr e, len := n, data := bytesOf (e.z.vw w d).toNat n, opnd := seq e }
          match e.rangeOf (adr e) with
          | some r => { x with
              tr := r.trs.find? (fun t => decide (t.page ≤ adr e) && decide (adr e < t.page + t.size)), sk := .contrib r.id }
          | none => { x with sk := if red then .red k w else .redi k w }))) s

def execRedFast (d a z : BitVec 7) (u w : Bool) (s : State) : Out := redWord (.redFast d a z u w) true 0 d a none u w s
def execRedOrd (d a b : BitVec 7) (u w : Bool) (s : State) : Out := redWord (.redOrd d a b u w) true 1 d a (some b) u w s
def execRedMin (d a z : BitVec 7) (u w : Bool) (s : State) : Out := redWord (.redMin d a z u w) true 2 d a none u w s
def execRedMax (d a z : BitVec 7) (u w : Bool) (s : State) : Out := redWord (.redMax d a z u w) true 3 d a none u w s
def execRediAdd (d a z : BitVec 7) (u w : Bool) (s : State) : Out := redWord (.rediAdd d a z u w) false 0 d a none u w s
def execRediMinI (d a z : BitVec 7) (u w : Bool) (s : State) : Out := redWord (.rediMinI d a z u w) false 1 d a none u w s
def execRediMinB (d a z : BitVec 7) (u w : Bool) (s : State) : Out := redWord (.rediMinB d a z u w) false 2 d a none u w s
def execRediMaxI (d a z : BitVec 7) (u w : Bool) (s : State) : Out := redWord (.rediMaxI d a z u w) false 3 d a none u w s
def execRediMaxB (d a z : BitVec 7) (u w : Bool) (s : State) : Out := redWord (.rediMaxB d a z u w) false 4 d a none u w s
def execRediAnd (d a z : BitVec 7) (u w : Bool) (s : State) : Out := redWord (.rediAnd d a z u w) false 5 d a none u w s
def execRediOr (d a z : BitVec 7) (u w : Bool) (s : State) : Out := redWord (.rediOr d a z u w) false 6 d a none u w s
def execRediXor (d a z : BitVec 7) (u w : Bool) (s : State) : Out := redWord (.rediXor d a z u w) false 7 d a none u w s

/-! ### CFLUSH, CINV, CSPAN -/

/-- A page of a byte range is in transition (R240). -/
def Thr.anyMoving (e : Thr) (va n : Nat) : Bool := (pageSteps va n).any e.moving

/-- The lookups of a byte range fill the thread's last-page register (R233). -/
def State.noteSpan (s : State) (e : Thr) (va n : Nat) : State :=
  ((pageSteps va n).filter (fun v => decide (v < 2 ^ 57))).foldl (fun s v =>
    s.noteLook e.l.core e.l.launch e.slot (s.look e.l.core e.l.launch e.slot v)) s

/-- CFLUSH and CINV (R291): bytes of the scratch window are skipped; the work is done when the operation completes, on the
pages as they were translated at its issue (R236). A page in transition holds the group (R240). -/
def flushWord (i : Instr) (inv : Bool) (a b : BitVec 7) (u : Bool) (s : State) : Out :=
  let adr := fun (e : Thr) => e.adr a
  let len := fun (e : Thr) => (e.y.v32 b).toNat
  runWord i
    (fun s l g => firstFail s l g u [
      chkSpan adr len,
      onPages adr len (fun _ => false) (fun _ a t =>
        if !t.scratch && badPermission t .load a then some Code.accessFault else none),
      onPages adr len (fun _ => false) (fun e _ t =>
        if !t.scratch && badMode t .load (dieOfCore e.l.core) then some Code.pageMode else none),
      onPages adr len (fun _ => false) (fun e _ t => if t.scratch then none else e.s.absentCode t.home) ])
    (fun s l g =>
      let accs := accessesOf s l g u (fun e =>
        let a : Access := { id := 0, thread := 0, va := adr e, len := len e }
        if e.anyMoving a.va a.len then { a with st := .held } else { a with trs := (e.pages a.va a.len).map (·.2), st := .sent })
      let s0 := accs.foldl (fun s x => s.noteSpan (thr s l g x.thread) x.va x.len) { s with nextId := s.nextId + 1 }
      { s0 with
        nextId := s0.nextId + accs.length
        ops := s0.ops ++ [{ l.start s (.flush inv) u with accs := numbered s0.nextId accs }] }) s

/-- CFLUSH (R291). -/
def execCflush (x a b : BitVec 7) (u : Bool) (s : State) : Out := flushWord (.cflush x a b u) false a b u s

/-- CINV (R291). -/
def execCinv (x a b : BitVec 7) (u : Bool) (s : State) : Out := flushWord (.cinv x a b u) true a b u s

/-- Widen the bytes of a CFLUSH or CINV to whole grains of its pages, as the bounds of a range (R291). -/
def Access.widened (a : Access) : Nat × Nat :=
  let g := fun (x : Nat) => ((a.trAt x).map (fun t => grainOf t.leaf)).getD 32
  let last := a.va + a.len - 1
  (a.va / g a.va * g a.va, (last + g last) / g last * g last)

/-- The bytes of the group's earlier stores and reductions in [lo, hi) are all acknowledged (R291). -/
def State.rangeAcked (s : State) (c L T G b lo hi : Nat) : Bool :=
  let meets := fun (e : Store) => e.parts.any (fun p =>
    decide (p.1 < hi) && decide (lo < p.1 + e.partLen p))
  ((s.group? L T G).map (fun g => g.sq.all (fun e => !(decide (e.op < b) && meets e)))).getD true &&
    (s.core c).path.all (fun x => !(x.launch == L && x.team == T && x.gnum == G && decide (x.op < b) && (x.store.map meets).getD false)) &&
    (s.core c).sideLog.all (fun e => !(e.launch == L && e.team == T && e.gnum == G && decide (e.op < b) &&
      decide (e.va < hi) && decide (lo < e.va + e.bytes.length))) &&
    s.ops.all (fun o => !(o.ofGroup L T G && decide (o.id < b) && o.kind.isStore &&
      o.accs.any (fun a => a.pending && decide (a.va < hi) && decide (lo < a.va + a.len))))

/-- Write back, and for CINV drop, the grains of one page's part of the range (R291). -/
def State.flushPage (s : State) (inv : Bool) (t : Tr) (lo hi : Nat) : State :=
  if t.scratch then s
  else
    let first := t.phys lo
    let n := hi - lo
    (List.range ((first + n - 1) / 4096 + 1 - first / 4096)).foldl (fun s i =>
      let f := first / 4096 + i
      let x := max first (f * 4096) - f * 4096
      let y := min (first + n) (f * 4096 + 4096) - f * 4096
      if inv then
        let s1 := s.carve t.home f x y false true
        [2 * (t.home / 2), 2 * (t.home / 2) + 1].foldl (fun s d => s.carve d f x y true false) s1
      else
        s.dies.zipIdx.foldl (fun s b =>
          if b.2 = t.home then
            (b.1.blocks.filter (fun k => decide (k.frame = f) && !k.replica)).foldl (fun s k =>
              let inside := fun (g : Nat) => decide (x < (g + 1) * k.grain) && decide (g * k.grain < y)
              (s.writeBack { k with dirty := k.dirty.filter inside }).modDie t.home (fun z => { z with
                blocks := updWhere (fun c => c == k) (fun c => { c with dirty := c.dirty.filter (fun g => !inside g) }) z.blocks })) s
          else s) s) s

/-- What CFLUSH and CINV do for one thread when they complete; none while an earlier store to the range is not
acknowledged (R291). -/
def State.flushRange (s : State) (o : Op) (inv : Bool) (a : Access) : Option State :=
  match s.team? o.launch o.team with
  | some t =>
    if a.st = .declined ∨ a.len = 0 then some s
    else if a.st ≠ .sent then none
    else
      let (lo, hi) := a.widened
      if !s.rangeAcked t.core o.launch o.team o.gnum o.id lo hi then none
      else
        let pages := (pageSteps lo (hi - lo)).filterMap (fun v => (a.trAt v).map (fun t => (v, t)))
        let s1 := pages.foldl (fun s p =>
          let x := max lo (p.1 / 65536 * 65536)
          let y := min hi (p.1 / 65536 * 65536 + 65536)
          s.flushPage inv p.2 x y) s
        if inv then
          let tags := pages.flatMap (fun p =>
            let x := max lo (p.1 / 65536 * 65536)
            let y := min hi (p.1 / 65536 * 65536 + 65536)
            if p.2.scratch then [] else sectorsOf (p.2.phys x) (y - x))
          some (s1.invalidateL1 t.core (fun k _ => tags.contains k))
        else some s1
  | none => none

/-- CSPAN on the frames of n bytes from va (R292). -/
def State.setSpans (s : State) (e : Thr) (va n : Nat) (clear : Bool) (k : Nat) : State :=
  if n = 0 then s
  else
    (List.range ((va + n - 1) / 4096 + 1 - va / 4096)).foldl (fun s i =>
      let v := va / 4096 * 4096 + i * 4096
      if 2 ^ 57 ≤ v then s
      else match e.present v with
        | none => s
        | some t => if t.scratch then s
          else s.modDie t.home (fun x =>
            let key := predKey x (t.phys v / 4096)
            let old := Cells.get 0 x.predictor key
            { x with predictor := Cells.set 0 x.predictor key (if clear then old &&& 7#4 else 8#4 ||| BitVec.ofNat 4 (k % 8)) })) s

/-- CSPAN (R292); a page in transition holds the group (R240). -/
def execCspan (d a : BitVec 7) (c : Bool) (k : BitVec 3) (u : Bool) (s : State) : Out :=
  runWord (.cspan d a c k u) noOwn (fun s l g =>
    let es := (l.execThreads u).map (thr s l g)
    let len := fun (e : Thr) => (e.z.v32 d).toNat
    let wait := (es.filter (fun e => e.anyMoving (e.adr a) (len e))).map (fun e =>
      ({ id := 0, thread := e.t, va := e.adr a, len := len e } : Access))
    let s0 := es.foldl (fun s e => s.noteSpan e (e.adr a) (len e)) s
    let s1 := (es.filter (fun e => !e.anyMoving (e.adr a) (len e))).foldl (fun s e =>
      s.setSpans e (e.adr a) (len e) c k.toNat) s0
    s1.holdHint l (.cspan c k.toNat) u wait) s

/-! ### Contributions on their way -/

/-- An earlier chunk of the same matrix operation has not been accepted: chunks are sent and applied in order (R96,
R352). -/
def State.chunkBehind (s : State) (c : Contrib) : Bool :=
  decide (c.mma ≠ 0) && s.contribs.any (fun x => x.mma == c.mma && decide (x.chunk < c.chunk))

/-- A team is placed on a core of die d. -/
def State.teamOn (s : State) (L T d : Nat) : Bool := ((s.team? L T).map (fun t => decide (dieOfCore t.core = d))).getD false

/-- The die that sent a contribution has been fenced: it sends nothing more (R429). -/
def State.senderGone (s : State) (c : Contrib) : Bool :=
  ((s.team? c.launch c.team).bind (fun t => s.absentCode (dieOfCore t.core))).isSome

/-- CONTRIBUTION_ARRIVAL (R275, R276): subject the contribution. A refused one waits to be sent again, if its sender still
sends (R429). -/
def execContributionArrival (s : State) : Out :=
  event s (match s.contribs.find? (fun c => c.id == s.sub 0) with
    | none => none
    | some c =>
      if !c.sent || c.refused || s.chunkBehind c then none
      else match s.deliver c with
        | some t => some t.pendCloses.settle
        | none => some (if s.senderGone c then s.contribDone c false
            else { s with contribs := updWhere (fun x => x.id == c.id) (fun x => { x with refused := true }) s.contribs }))

end Sys2Proof.Machine
end

