-- ==== Sys2Proof/Machine/Held.lean ====
section
/-!
DEFINITION. Held.lean: accesses held on their pages, and the side log, once a page is mapped or declined (R240 to R246).
-/
namespace Sys2Proof.Machine

/-- The permission an operation's accesses need (R211). -/
def OpKind.needs : OpKind → AccKind
  | .store _ => .store
  | .red => .store
  | .accZero => .store
  | .tst _ => .store
  | .atom _ _ => .atomic
  | .accOpen => .atomic
  | _ => .load

/-- What a page in transition alone can hold: pages not present it skips or drops (R217, R240, R291, R292). -/
def OpKind.spans : OpKind → Bool
  | .flush _ => true
  | k => k.hint

/-- Accesses of one operation that its page holds, or that wait for room in the side log (R113 reason 5). -/
def Access.stuck (a : Access) : Bool :=
  decide (a.st = .held) || (decide (a.st = .waiting) && a.tr.isNone && (match a.sk with
    | .zero _ => false
    | .scale _ => false
    | _ => true))

/-- An access would go to the side log if its page is not present: plain stores and reductions (R240). -/
def Op.plain (o : Op) : Bool := (match o.kind with
  | .store _ => !o.rel
  | .red => true
  | _ => false)

/-- The group takes NOT_MAPPED for an access of an operation (R242), unless a fault holds it already.
(DEDUCED, log 25) -/
def State.notMapped (s : State) (o : Op) (a : Access) (code : Nat) : State :=
  let s1 := s.modOp o.id (fun o => { o with accs := updWhere Access.stuck (fun a => { a with st := .declined }) o.accs })
  match s.group? o.launch o.team o.gnum with
  | none => s1
  | some g =>
    if g.halt ≠ .none then s1
    else s1.raiseGroup g Code.notMapped Cls.defer a.va (BitVec.ofNat 32 code) o.claddr o.mask a.thread []

/-- A thread's view of an operation in flight, for its checks. -/
def Op.view (o : Op) (s : State) (t : Team) (g : Group) (thread : Nat) : Thr :=
  thr s { core := t.core, launch := o.launch, team := o.team, gnum := o.gnum, claddr := o.claddr, issuing := o.mask } g thread

/-- A held ACCOPEN access is checked again from step 1 (R285). -/
def State.retryOpen (s : State) (o : Op) (a : Access) (t : Team) (g : Group) : State :=
  let e := o.view s t g a.thread
  let fails := (accOpenChecks (fun _ => a.va) (fun _ => a.len) (fun _ => a.opnd) (fun _ => [])).findSome? (fun c => c e)
  match fails with
  | some x => s.notMapped o a x.code
  | none =>
    if (s.rangePages t.core o.launch (some (groupSlot t o.gnum, a.thread)) a.va a.len).isSome then
      s.modAcc o.id a.id (fun a => { a with st := .waiting })
    else s

/-- A held ACCZERO translates its pages and is checked again from step 1 (R236, R242, R288). -/
def State.retryZero (s : State) (o : Op) (a : Access) (t : Team) (slot : Option (Nat × Nat)) : State :=
  match s.rangePages t.core o.launch slot a.va a.len with
  | none => (pageSteps a.va a.len).foldl (fun s v => s.requestMap t.core o.launch v slot) s
  | some trs =>
    let bad := fun (p : Tr) =>
      if a.va % grainOf p.leaf ≠ 0 ∨ a.len % grainOf p.leaf ≠ 0 then some Code.alignFault
      else s.pageFault p .store (max a.va p.page) (dieOfCore t.core)
    match trs.findSome? bad with
    | some code => s.notMapped o a code
    | none => (trs.foldl (fun s p => s.noteLook t.core o.launch slot (.present p)) s).modAcc o.id a.id (fun a => { a with
        st := .waiting, trs := trs })

/-- CFLUSH, CINV, CSPAN or PREF that a page in transition held (R240): none of its pages may be in transition any more.
A check that CFLUSH or CINV fails now gives NOT_MAPPED (R242); PREF drops the address (R217). -/
def State.retrySpan (s : State) (o : Op) (a : Access) (t : Team) (g : Group) : State :=
  let e := o.view s t g a.thread
  let gone := fun (s : State) => { s.modOp o.id (fun o => { o with accs := o.accs.filter (fun b => b.id != a.id) }) with
    ops := (s.modOp o.id (fun o => { o with accs := o.accs.filter (fun b => b.id != a.id) })).ops.filter (fun o => !(o.kind.hint && o.accs.isEmpty)) }
  if e.anyMoving a.va a.len then s
  else
    let s1 := s.noteSpan e a.va a.len
    match o.kind with
    | .flush _ =>
      let ps := e.pages a.va a.len
      match ps.findSome? (fun p => if p.2.scratch then none else s.pageFault p.2 .load p.1 (dieOfCore t.core)) with
      | some code => s.notMapped o a code
      | none => s1.modAcc o.id a.id (fun a => { a with st := .sent, trs := ps.map (·.2) })
    | .cspan c k => gone (s1.setSpans e a.va a.len c k)
    | .prefRind => gone (if e.prefDrops a.va then s1 else s1.prefRind e a.va a.opnd)
    | _ =>
      let accs := if e.prefDrops a.va then [] else numbered s1.nextId ((s1.prefAccs e a.va a.opnd).map (fun b => { b with tr := e.present b.va }))
      gone ({ s1 with nextId := s1.nextId + accs.length }.modOp o.id (fun o => { o with accs := o.accs ++ accs }))

/-- A held access translates and is checked again (R242). -/
def State.retryAccess (s : State) (o : Op) (a : Access) : State :=
  match s.team? o.launch o.team, s.group? o.launch o.team o.gnum with
  | some t, some g =>
    if o.kind = .accOpen then s.retryOpen o a t g
    else if o.kind = .accZero then s.retryZero o a t (some (groupSlot t o.gnum, a.thread))
    else if o.kind.spans then s.retrySpan o a t g
    else
      let slot := some (groupSlot t o.gnum, a.thread)
      let d := dieOfCore t.core
      let va := a.va
      match s.place t.core o.launch slot va o.plain with
      | .go tr =>
        match s.pageFault tr o.kind.needs va d with
        | some code => s.notMapped o a code
        | none => (s.noteLook t.core o.launch slot (.present tr)).modAcc o.id a.id (fun a => { a with st := .waiting, tr := some tr })
      | .hold => (s.requestMap t.core o.launch va slot).modAcc o.id a.id (fun a => { a with st := .held, tr := none })
      | .log _ _ => (s.requestMap t.core o.launch va slot).modAcc o.id a.id (fun a => { a with st := .waiting, tr := none })
  | _, _ => s

/-- Operations of a core for a launch. -/
def State.opsOn (s : State) (c launch : Nat) : List Op :=
  s.ops.filter (fun o => o.launch == launch && ((s.team? o.launch o.team).map (·.core)) == some c)

/-- Operations of a core for a launch by ascending team slot, then group number: the order in which one event hands in
the records of several groups (R170). -/
def State.opsBySlot (s : State) (c launch : Nat) : List Op :=
  (List.range 4).flatMap (fun k => (List.range 64).flatMap (fun n =>
    (s.opsOn c launch).filter (fun o => decide (o.gnum = n) && decide (((s.team? o.launch o.team).map (·.slot)) = some k))))

/-- The bytes of an access that lie on a page. -/
def Access.onPage (a : Access) (page size : Nat) : Bool := decide (a.va < page + size) && decide (page < a.va + max a.len 1)

/-- Every held access of the core to the page tries again, those of several groups by team slot and group (R170, R242,
R244). -/
def State.retryHeld (s : State) (c launch page size : Nat) : State :=
  ((s.opsBySlot c launch).flatMap (fun o => (o.accs.filter (fun a => a.stuck && a.onPage page size)).map (fun a => (o, a)))).foldl
    (fun s x => match (s.op? x.1.id).bind (fun o => (o.accs.find? (fun a => a.id == x.2.id)).map (fun a => (o, a))) with
      | some (o, a) => if a.stuck then s.retryAccess o a else s
      | none => s) s

/-- A map notice reaches a core (R242, R244): the page's entries replay, with the translation found now, and held accesses
try again, which the entries still hold up. -/
def State.coreMapped (s : State) (c launch page size : Nat) : State :=
  let found := fun (va : Nat) => match s.look c launch none va with
    | .present t => some t
    | .moving t => some t
    | _ => none
  let s1 := s.modCore c (fun k => { k with
    sideLog := updWhere (fun e => e.onPage launch page size && e.tr.isNone) (fun e => { e with tr := found e.va }) k.sideLog })
  (s1.replayLogs).retryHeld c launch page size

/-- A decline reaches a core (R242, R244): held groups take NOT_MAPPED, and the page's entries are discarded.
(DEDUCED, log 25; DEDUCED, log 26) -/
def State.coreDeclined (s : State) (c launch page size : Nat) : State :=
  let es := (s.core c).sideLog.filter (fun e => e.onPage launch page size && e.replay.isNone)
  let s1 := match es with
    | [] => s
    | e :: _ => (s.dropLog c (fun x => x.onPage launch page size && x.replay.isNone)).logNotMapped c launch e.team page e.va 0
  ((s1.opsBySlot c launch).flatMap (fun o => (o.accs.filter (fun a => a.stuck && a.onPage page size)).map (fun a => (o, a)))).foldl
    (fun s x => match (s.op? x.1.id).bind (fun o => (o.accs.find? (fun a => a.id == x.2.id)).map (fun a => (o, a))) with
      | some (o, a) => if a.stuck then (if o.plain || o.kind.spans then s.retryAccess o a else s.notMapped o a 0) else s
      | none => s) s1

end Sys2Proof.Machine
end

