-- ==== Sys2Proof/Machine/MemSteps.lean ====
section
/-!
DEFINITION. MemSteps.lean: the events of the memory engine: stores on their way to their homes, reads at the home, fills,
releases and promotions (R188 to R209, R438, R439).
-/
namespace Sys2Proof.Machine

/-- The core of an operation. -/
def State.coreOf (s : State) (L T : Nat) : Nat := ((s.team? L T).map (·.core)).getD 0

/-! ### Stores leave and perform -/

/-- Fills on their way to core c take a store that leaves for its home after them (R191, R196). (DEDUCED, log 14) -/
def State.storeInFlight (s : State) (c pa : Nat) (bs : List Byte) : State :=
  { s with ops := s.ops.map (fun o =>
      if s.coreOf o.launch o.team = c then
        { o with accs := o.accs.map (fun a =>
            match a.tr with
            | some t => if a.st = .served && !a.fill.isEmpty then
                { a with fill := overlay (t.phys a.va / grainOf t.leaf * grainOf t.leaf) a.fill pa bs } else a
            | none => a) }
      else o) }

/-- The core may cache the lines that an entry writes (R190). -/
def State.caches (s : State) (c : Nat) (e : Store) : Bool := e.phys.all (fun p => s.cacheable c e.tr p.1)

/-- Put a store on its core's path (R196). (DEDUCED, log 14) -/
def State.sendStore (s : State) (c : Nat) (g : Group) (e : Store) : State :=
  { s.modCore c (fun k => { k with path := k.path ++ [{ die := e.tr.home, launch := g.launch, team := g.team, gnum := g.gnum, op := e.op, access := e.id, store := some e, at_ := s.nextId }] }) with
    nextId := s.nextId + 1 }

/-- Every thread's bytes for an entry's grain are in it (R196). -/
def State.entryWhole (s : State) (e : Store) : Bool :=
  match e.kind, s.op? e.op with
  | .scale _, _ => true
  | .zero _, _ => true
  | _, none => true
  | _, some o =>
    let grain := grainOf e.tr.leaf
    !o.accs.any (fun a => a.pending && e.parts.any (fun p => decide (p.1 / grain = a.va / grain)))

/-- STORE_QUEUE_DEPART (R196, R197, R200, R270): subjects launch, team, group. The entry at the head enters the L1 and
leaves for its home, or stays until it is acknowledged. -/
def execStoreQueueDepart (s : State) : Out :=
  event s (match s.group? (s.sub 0) (s.sub 1) (s.sub 2) with
    | none => none
    | some g =>
      match g.sq with
      | [] => none
      | e :: _ =>
        let c := s.coreOf g.launch g.team
        let taken := s.entryWhole e
        if e.left || decide (e.relScope ≠ 0) || !s.readsDone g.launch g.team g.gnum e.op || !taken then none
        else
          let stay := s.modGroup g.launch g.team g.gnum (fun g => { g with
            sq := updWhere (fun x => x.id == e.id) (fun x => { x with left := true }) g.sq })
          let gone := s.modGroup g.launch g.team g.gnum (fun g => { g with sq := g.sq.filter (fun x => x.id != e.id) })
          match e.kind with
          | .contrib _ => some { stay with contribs := updWhere (fun x => x.entry == e.id) (fun x => { x with sent := true }) stay.contribs }
          | .scale _ => some { stay with contribs := updWhere (fun x => x.entry == e.id) (fun x => { x with sent := true }) stay.contribs }
          | .plain =>
            -- it updates every valid sector, also one that another page of the frame has put there (R191)
            let update := fun (s : State) => e.phys.foldl (fun s p => (s.modCore c (fun k => k.l1Store p.1 p.2)).storeInFlight c p.1 p.2) s
            if s.caches c e then some ((update gone).sendStore c g e).settle
            else some ((update stay).sendStore c g { e with left := true })
          | _ => if s.caches c e then some (gone.sendStore c g e).settle else some (stay.sendStore c g { e with left := true }))

/-- Clear one grain's bytes (R288): elements of a range become +0, though one that a store or a second range has spoiled
stays unpredictable at the close (R209, R285). Where a source register was written too early, `wild`
bytes stand for the zeros (R101). -/
def State.zeroHome (s : State) (pa grain n : Nat) (wild : List Byte) : State :=
  match s.rangeAt pa with
  | none => s.homeWriteAll pa grain (if wild.isEmpty then List.replicate n 0 else wild)
  | some (r, i) =>
    s.modRange r.id (fun r => (List.range (n / r.size)).foldl (fun r k =>
      if wild.isEmpty then { r.setElem (i + k) 0 with unpred := r.unpred.filter (· != i + k) } else r.spoilElem (i + k)) r)

/-- A store performs at its home (R188, R269). -/
def State.applyStore (s : State) (x : Sent) (e : Store) : State :=
  let grain := grainOf e.tr.leaf
  e.parts.foldl (fun s p =>
    let pa := e.tr.phys p.1
    match e.kind with
    | .red k w => s.reduceHome true k w pa grain (numOf p.2) x.launch x.team p.1
    | .redi k w => s.reduceHome false k w pa grain (numOf p.2) x.launch x.team p.1
    | .zero n => s.zeroHome pa grain n p.2
    | _ => s.homeWriteAll pa grain p.2) s

/-- The grain that an atomic needs: a missing one is allocated as a one-grain fill (R266), whether or not the atomic will
store, and the further grains of the predictor's length are asked for (R263). (DESIGN CHOICE, log 78) -/
def State.atomGrain (s : State) (pa grain : Nat) : State :=
  let d := dieOfPa pa
  if isScratch pa || s.inMailbox pa then s
  else
    let miss := !(s.matchGrain d (pa / 4096) grain).held pa grain
    let n := predicted (s.die d) (pa / 4096)
    let s1 := s.useGrain pa grain
    if miss && s1.held pa grain && decide (1 < n) && decide (pa % 4096 / grain + 1 < 4096 / grain) then
      s1.requestFill d (pa / grain * grain + grain) grain (n - 1) false
    else s1

/-- An atomic performs at its home, as one indivisible step, and invalidates its own core's sector (R204, R221). -/
def State.applyAtomic (s : State) (c : Nat) (o : Op) (a : Access) (k ty : Nat) : State :=
  match a.tr with
  | none => s
  | some t =>
    let pa := t.phys a.va
    let grain := grainOf t.leaf
    let spoiled := (s.rangeAt pa).isSome
    let old := if a.unpred || spoiled then s.freeBytes a.id a.len else s.homeBytes pa a.len
    let s := s.atomGrain pa grain
    let s1 := match atomNew k (BitVec.ofNat 3 ty) (numOf (s.homeBytes pa a.len)) a.opnd a.opnd2 with
      | some v => s.homeWrite pa grain (if a.unpred then s.freeBytes (a.id + 1) a.len else bytesOf v a.len)
      | none => if a.unpred then s.homeWrite pa grain (s.freeBytes (a.id + 1) a.len) else s.spoil pa a.len
    ((s1.modAcc o.id a.id (fun a => { a with st := .served, data := old })).invalidateL1 c (fun x _ => x == pa / 32))

/-- HOME_APPLY (R188, R196): subjects the core and the die. The first entry of the core's path to that home performs. -/
def execHomeApply (s : State) : Out :=
  event s (
    let c := s.sub 0
    match (s.core c).path.find? (fun x => decide (x.die = s.sub 1) && !x.applied) with
    | none => none
    | some x =>
      let mark := fun (s : State) => s.modCore c (fun k => { k with
        path := updWhere (fun y => y.access == x.access) (fun y => { y with applied := true }) k.path })
      match x.store with
      | some e => some (mark (s.applyStore x e)).settle
      | none =>
        match s.op? x.op with
        | none => some (mark s)
        | some o =>
          match o.kind, o.accs.find? (fun a => a.id == x.access) with
          | .atom k ty, some a => some (mark (s.applyAtomic c o a k ty)).settle
          | _, _ => some (mark s))

/-- STORE_ACKNOWLEDGEMENT (R196, R244): subject the access or entry. -/
def execStoreAcknowledgement (s : State) : Out :=
  event s (match s.cores.find? (fun k => k.path.any (fun x => x.applied && x.access == s.sub 0)) with
    | none => none
    | some k =>
      match k.path.find? (fun x => x.applied && x.access == s.sub 0) with
      | none => none
      | some x =>
        let s1 := s.modCore k.id (fun k => { k with path := k.path.filter (fun y => y.access != x.access) })
        let s2 := s1.modGroup x.launch x.team x.gnum (fun g => { g with sq := g.sq.filter (fun e => e.id != x.access) })
        let s3 := s2.modAcc x.op x.access (fun a => { a with st := .done })
        match k.sideLog.find? (fun e => e.replay == some x.access) with
        | none => some s3.settle
        | some e =>
          let s4 := s3.dropLog k.id (fun y => y.replay == some x.access)
          some ((s4.retryHeld k.id e.launch e.page e.size).settle))

/-! ### Reads -/

/-- The access is an ordinary load: it may hit and fill the L1 (R191, R205). -/
def Op.ordinary (o : Op) : Bool := (match o.kind with
  | .load _ => true
  | .span _ _ => true
  | .pref => true
  | _ => false) && !o.acq && !o.nc

/-- Earlier threads of the instruction have performed, but for those held on their pages (R195, R211). -/
def Op.lowerDone (o : Op) (a : Access) : Bool :=
  o.accs.all (fun b => decide (a.thread ≤ b.thread) || b.performed || b.stuck)

/-- The access may perform now as far as its own group's order goes (R197, R201, R204, R438). -/
def State.mayPerform (s : State) (o : Op) (a : Access) : Bool :=
  match o.kind with
  | .pref => true
  | .atom _ _ =>
    o.relDone && o.lowerDone a && s.readsDone o.launch o.team o.gnum o.id && s.storesLeft o.launch o.team o.gnum o.id &&
      s.localsDone o.launch o.team o.gnum o.id && (a.victim.isNone || a.promDone)
  | .fabric => o.relDone && o.lowerDone a && s.readsDone o.launch o.team o.gnum o.id
  | _ => o.lowerDone a && s.readsDone o.launch o.team o.gnum o.id

/-- First byte of the grain of an access. -/
def Access.grainStart (a : Access) (t : Tr) : Nat := t.phys a.va / grainOf t.leaf * grainOf t.leaf

/-- A byte as a replica on die r holds it, else as its home does (R267). -/
def State.byteAt (s : State) (src : Option Nat) (pa : Nat) : Byte :=
  match src.bind (fun r => (s.die r).blocks.find? (fun b =>
      b.replica && decide (b.frame = pa / 4096) && decide (b.lo ≤ pa % 4096 / b.grain) && decide (pa % 4096 / b.grain ≤ b.hi))) with
  | some b => Cells.get 0 b.data (pa % 4096)
  | none => s.homeByte pa

/-- Bytes from a replica or from their home, with the elements of open ranges unpredictable (R209). -/
def State.readHome (s : State) (src : Option Nat) (pa n key : Nat) : List Byte :=
  s.maskOpen pa key ((List.range n).map (fun i => s.byteAt src (pa + i)))

/-- Stores of the core that are on their way, oldest first: the L1 has them already (R196). -/
def Core.onPath (k : Core) : List (Nat × List Byte) :=
  k.path.flatMap (fun x => match x.store with
    | some e => if decide (e.kind = .plain) && !x.applied then e.phys else []
    | none => [])

/-- Where the read of a page may be served besides its home: a replica of an R page on the reading die (R267). -/
def replicaDie (c : Nat) (t : Tr) : Option Nat :=
  if decide (modeOf t.leaf = 2) && isIsland t.leaf && decide (t.home ≠ dieOfCore c) && !t.scratch then some (dieOfCore c) else none

/-- Serve a load, by a replica of die `src` or by its home: its value is fixed, and the grain is on its way to the core
(R188, R191, R196). Bytes of an open range are unpredictable (R209), and so is all that an operation reads whose source
registers were written too early (R101). (DESIGN CHOICE, log 16) -/
def State.serve (s : State) (c : Nat) (o : Op) (a : Access) (t : Tr) (src : Option Nat) : State :=
  let pa := t.phys a.va
  let start := a.grainStart t
  let grain := grainOf t.leaf
  let data := if a.unpred then s.freeBytes a.id a.len
    else s.maskOpen pa a.id (overlays pa (s.readHome src pa a.len a.id) (s.ownStores c o.launch o.team o.gnum o.id true))
  let keep := o.ordinary && s.cacheable c t pa
  let fill := if keep then overlays start (s.readHome src start grain (a.id + 1)) (s.core c).onPath else []
  let s1 := s.modAcc o.id a.id (fun a => { a with st := .served, data := data, fill := fill })
  if !keep then s1
  else
    -- fills that are already on their way carry, of the bytes of this one, what this one carries
    let s2 := { s1 with ops := s1.ops.map (fun (p : Op) =>
      if s1.coreOf p.launch p.team = c then
        { p with accs := p.accs.map (fun (b : Access) => match b.tr with
            | some u => if decide (b.st = AccSt.served) && !b.fill.isEmpty then { b with fill := overlay (b.grainStart u) b.fill start fill } else b
            | none => b) }
      else p) }
    s2.modCore c (fun k => { k with
      l1 := updWhere (fun x => (sectorsOf start grain).contains x.tag)
        (fun x => { x with data := (fill.drop (32 * x.tag - start)).take 32 }) k.l1 })

/-- It reads a block of bytes into a tile or a metadata slot (R361). -/
def Op.block (o : Op) : Bool := match o.kind with
  | .tld _ => true
  | .ldmeta _ => true
  | .fabric => true
  | _ => false

/-- An operation reads grain g of a frame. -/
def Op.readsGrain (o : Op) (frame grain g : Nat) : Bool :=
  o.accs.any (fun a => match a.tr with
    | some t => decide (t.phys a.va / grain ≤ frame * (4096 / grain) + g) &&
        decide (frame * (4096 / grain) + g ≤ (t.phys a.va + a.len - 1) / grain)
    | none => false)

/-- Grains of a frame from g on that an operation reads without a gap: a block read asks for exactly the missing run
(R263). -/
def Op.run (o : Op) (frame grain g : Nat) : Nat :=
  ((List.range (4096 / grain - g)).takeWhile (fun i => o.readsGrain frame grain (g + i))).length

/-- The sectors of a load that misses are on their way to the L1 already, for another access of the core: both are served
once (R213). -/
def State.fillComing (s : State) (c : Nat) (a : Access) (t : Tr) : Bool :=
  s.ops.any (fun p => decide (s.coreOf p.launch p.team = c) && p.ordinary && p.accs.any (fun b => match b.tr with
    | some u => b.id != a.id && (decide (b.st = .sent) || (decide (b.st = .served) && !b.fill.isEmpty)) && s.cacheable c u (u.phys b.va) &&
        (sectorsOf (t.phys a.va) a.len).all (fun x => (sectorsOf (b.grainStart u) (grainOf u.leaf)).contains x && !b.dead.contains x)
    | none => false))

/-- HOME_READ (R188, R196, R198, R213, R263, R265, R267, R439): subjects the operation and the access. A read that waits
is sent once its group's order lets it perform and no fill of its grain is coming; one that has been sent is served where
the home holds its grain, else asks for a fill. (DESIGN CHOICE, log 16) -/
def execHomeRead (s : State) : Out :=
  event s (match s.op? (s.sub 0) with
    | none => none
    | some o =>
      match o.accs.find? (fun a => a.id == s.sub 1) with
      | none => none
      | some a =>
        match a.tr with
        | none => none
        | some t =>
          let c := s.coreOf o.launch o.team
          let pa := t.phys a.va
          let grain := grainOf t.leaf
          let d := t.home
          match o.kind with
          | .atom _ _ =>
            if a.st ≠ .waiting || !s.mayPerform o a then none
            else some (({ s.modCore c (fun k => { k with path := k.path ++ [{ die := d, launch := o.launch, team := o.team, gnum := o.gnum, op := o.id, access := a.id, store := none, at_ := s.nextId }] }) with
              nextId := s.nextId + 1 } : State).modAcc o.id a.id (fun a => { a with st := .sent }))
          | .load _ | .span _ _ | .pref | .tld _ | .ldmeta _ | .fabric =>
            if a.st = .waiting then
              if !s.mayPerform o a || (o.ordinary && s.cacheable c t pa && ((s.core c).hits pa a.len || s.fillComing c a t)) then none
              else some (({ s with nextId := s.nextId + 1 } : State).modAcc o.id a.id (fun a => { a with st := .sent, sentAt := s.nextId }))
            else if a.st ≠ .sent || !s.mayPerform o a then none
            else
              let len := match o.kind with
                | .span _ k => 2 ^ k
                | .tld _ | .ldmeta _ | .fabric => o.run (pa / 4096) grain (pa % 4096 / grain)
                | _ => predicted (s.die d) (pa / 4096)
              let g := pa % 4096 / grain
              match (if o.ordinary then replicaDie c t else none) with
              | some r =>
                if ((s.die r).blocks.any (fun b => b.grain == grain && b.holds (pa / 4096) g true)) then
                  some ((s.touchBlock r (pa / 4096) g true).serve c o a t (some r)).settle
                else if (s.core c).path.any (fun x => decide (x.die = d) && !x.applied && decide (x.at_ < a.sentAt)) then none
                else
                  let s0 := s.matchGrain d (pa / 4096) grain
                  if s0.held pa grain || !roomFor s0 d (pa / 4096) grain then
                    let s1 := s0.touchBlock d (pa / 4096) g false
                    some (((s1.matchGrain r (pa / 4096) grain).serve c o a t none).requestFill r pa grain len true).settle
                  else if s0.coming d (pa / 4096) g grain false then none
                  else some (s0.requestFill d pa grain len false)
              | none =>
                if (s.core c).path.any (fun x => decide (x.die = d) && !x.applied && decide (x.at_ < a.sentAt)) then none
                else if t.scratch then some (s.serve c o a t none).settle
                else
                  let s0 := s.matchGrain d (pa / 4096) grain
                  if s0.held pa grain then
                    let s1 := s0.touchBlock d (pa / 4096) g false
                    some ((if o.block then s1 else s1.modDie d (fun x => x.learn (pa / 4096) g)).serve c o a t none).settle
                  else if !roomFor s0 d (pa / 4096) grain then some (s0.serve c o a t none).settle
                  else if s0.coming d (pa / 4096) g grain false then none
                  else some (s0.requestFill d pa grain len false)
          | _ => none)

/-- FILL_COMPLETE (R264, R266): subject the fill. -/
def execFillComplete (s : State) : Out :=
  event s ((s.fills.find? (fun f => f.id == s.sub 0)).map (fun f => s.completeFill f))

/-- A prefetch that has delivered every grain is over. -/
def State.dropPref (s : State) (i : Nat) : State :=
  { s with ops := s.ops.filter (fun o => !(o.id == i && decide (o.kind = .pref) && o.accs.all (fun a => decide (a.st = .done)))) }

/-- The line of a fill is one of an R page now, whatever its page was when the access translated (R190, R192). -/
def State.rPage (s : State) (c launch va : Nat) (t : Tr) : Bool :=
  match s.walk (dieOfCore c) launch va with
  | .present u => if u.pa = t.pa then decide (modeOf u.leaf = 2) else decide (modeOf t.leaf = 2)
  | _ => decide (modeOf t.leaf = 2)

/-- L1_FILL (R190, R191, R193): subjects the operation and the access. Data that has been served reaches the core, or a
load hits the L1. -/
def execL1Fill (s : State) : Out :=
  event s (match s.op? (s.sub 0) with
    | none => none
    | some o =>
      match o.accs.find? (fun a => a.id == s.sub 1) with
      | none => none
      | some a =>
        match a.tr with
        | none => none
        | some t =>
          let c := s.coreOf o.launch o.team
          let pa := t.phys a.va
          if decide (a.st = .served) && !(match o.kind with
              | .atom _ _ => true
              | _ => false) then
            let s1 := if a.fill.isEmpty then s
              else { s.modCore c (fun k => k.l1Install (a.grainStart t) a.fill a.dead (s.rPage c o.launch a.va t) s.nextId) with
                nextId := s.nextId + 1 }
            some ((s1.modAcc o.id a.id (fun a => { a with st := .done })).dropPref o.id)
          else if decide (a.st = .waiting) && o.ordinary && s.cacheable c t pa && (s.core c).hits pa a.len && s.mayPerform o a then
            let data := s.maskOpen pa a.id
              (overlays pa ((s.core c).l1Bytes pa a.len) (s.ownStores c o.launch o.team o.gnum o.id false))
            some (((({ s.modCore c (fun k => k.l1Touch pa s.nextId) with nextId := s.nextId + 1 } : State).modAcc o.id a.id
              (fun a => { a with st := .done, data := data })).dropPref o.id).settle)
          else none)

/-! ### Releases and promotions -/

/-- Store-queue entries of a group that a promotion covers: what it holds as the promotion arrives (R207), except what
stands behind an atomic with a promotion of its own that has not performed, which could not leave before that atomic does
(R197). (DEDUCED, log 17) -/
def State.coverable (s : State) (g : Group) : List Nat :=
  (g.sq.filter (fun e => !s.ops.any (fun o => o.ofGroup g.launch g.team g.gnum && decide (o.id < e.op) &&
    o.accs.any (fun a => a.victim.isSome && !a.performed)))).map (·.id)

/-- PROMOTION (R207): subject the ATOM. It arrives at the victim of its next thread, and covers the stores that the
victim's groups then hold and those on its path; a second step, once every one of them has been acknowledged, invalidates
the victim's L1. -/
def execPromotion (s : State) : Out :=
  event s (match s.op? (s.sub 0) with
    | none => none
    | some o =>
      match o.accs.find? (fun a => a.victim.isSome && !a.promDone && decide (a.st = .waiting)) with
      | none => none
      | some a =>
        let v := a.victim.getD 0
        let groups := s.groups.filter (fun g => decide (s.coreOf g.launch g.team = v))
        let sent := ((s.core v).path.filter (·.store.isSome)).map (·.access)
        if a.promAt = 0 then
          let busy := s.ops.any (fun p => p.accs.any (fun b => decide (b.victim = some v) && decide (b.promAt ≠ 0) && !b.promDone))
          if !o.relDone || !o.lowerDone a || busy then none
          else some (({ s with nextId := s.nextId + 1 } : State).modAcc o.id a.id (fun a => { a with
            promAt := s.nextId, covers := groups.flatMap s.coverable ++ sent }))
        else if (groups.flatMap (fun g => g.sq.map (·.id)) ++ sent).any (fun i => a.covers.contains i) then none
        else some ((s.acquireL1 v).modAcc o.id a.id (fun a => { a with promDone := true })))

end Sys2Proof.Machine
end

