-- ==== Sys2Proof/Machine/Fabric.lean ====
section
/-!
DEFINITION. Fabric.lean: what the fabric engine does with operations, packets and routes (R247, R248, R372 to R396).
-/
namespace Sys2Proof.Machine

/-! ### The command engine and memory -/

/-- The command engine writes bytes at their homes (R188); where the die is absent nothing is written.
(DEDUCED, log 48) -/
def State.cmdWrite (s : State) (pa : Nat) (bs : List Byte) : State :=
  if (s.absentCode (dieOfPa pa)).isSome then s else s.homeWriteAll pa 32 bs

/-- The command engine reads n bytes as a number; an absent die gives an unpredictable one. (DEDUCED, log 48) -/
def State.cmdNum (s : State) (pa n : Nat) : Nat :=
  if (s.absentCode (dieOfPa pa)).isSome then numOf (s.freeBytes pa n) else s.homeNum pa n

/-- Little-endian bytes of 64-bit words. -/
def wordBytes (ws : List Nat) : List Byte := ws.flatMap (fun w => bytesOf w 8)

/-! ### The reliability log and the lease holder -/

/-- WHERE of a unit that is no address: its die, and a plane or CORE bits (R436). -/
def unitAt (d x : Nat) : Nat := d / 2 * 2 ^ 48 + d % 2 * 2 ^ 47 + x % 2 ^ 13

/-- Write an entry of the reliability log (R436): the recording die, class, unit, where, the launch charged. -/
def State.logEvent (s : State) (d cls unit where_ launch : Nat) : State :=
  let base := s.mailbox + 0x40000
  let k := s.cmdNum base 4
  (s.cmdWrite (base + 32 + 32 * (k % 2047)) (wordBytes [s.timeOf d, cls * 2 ^ 62 + unit * 2 ^ 56 + where_ % 2 ^ 53, launch * 2 ^ 32, 0])).cmdWrite
    base (bytesOf (k + 1) 4)

/-- The lease holder, if there is one: the leader of the highest term (R422). -/
def State.leader? (s : State) : Option Nat :=
  ((List.range 60).filter (fun d => s.diePresent d && decide ((s.die d).lease.st = .leader))).foldl (fun b d => match b with
    | none => some d
    | some e => some (if (s.die e).lease.term < (s.die d).lease.term then d else e)) none

/-! ### Fields -/

/-- Bits [lo+n-1:lo] of W0 or W1 (R379, R380). -/
def FabOp.f0 (f : FabOp) (lo n : Nat) : Nat := f.w0.toNat / 2 ^ lo % 2 ^ n
def FabOp.f1 (f : FabOp) (lo n : Nat) : Nat := f.w1.toNat / 2 ^ lo % 2 ^ n

/-- CLASS. -/
def FabOp.cls (f : FabOp) : Nat := if f.kind = .ratom then f.f0 62 2 else f.f0 58 2

/-- RSP: the remote side is a gang peer's local store. -/
def FabOp.peer (f : FabOp) : Bool := decide (f.kind ≠ .ratom) && decide (f.f0 52 1 = 1)

/-- The remote address: bytes, or an offset for RSP 1. -/
def FabOp.raddr (f : FabOp) : Nat := if f.kind = .ratom then f.f0 0 57 else 32 * f.f0 0 52

/-- The local side is local store. -/
def FabOp.local_ (f : FabOp) : Bool :=
  match f.kind with
  | .put | .putn | .get => decide (f.f1 52 1 = 1)
  | _ => true

/-- The local address: a virtual address, or a local offset. -/
def FabOp.laddr (f : FabOp) : Nat :=
  match f.kind with
  | .put | .putn | .get => 32 * f.f1 0 52
  | .mput => 32 * f.f1 31 14
  | .rred => 32 * f.f1 0 14
  | .ratom => f.f1 0 32

/-- Bytes of an element of RRED, or of an atomic. -/
def FabOp.elt (f : FabOp) : Nat :=
  match f.kind with
  | .rred => if f.ty = 1 then 8 else 4
  | .ratom => 4 * atomRegs (BitVec.ofNat 3 f.ty)
  | _ => 1

/-- It belongs to a stream (R386). -/
def FabOp.streamed (f : FabOp) : Bool := decide (f.order ≠ 0) || decide (f.kind = .ratom)

/-- Change a fabric operation. -/
def State.modFab (s : State) (i : Nat) (g : FabOp → FabOp) : State := { s with fabs := updWhere (fun f => f.id == i) g s.fabs }

/-- The fabric operation with this id. -/
def State.fab? (s : State) (i : Nat) : Option FabOp := s.fabs.find? (fun f => f.id == i)

/-- Change the destination on an island. -/
def FabOp.modDest (f : FabOp) (isl : Nat) (g : Dest → Dest) : FabOp := { f with dests := updWhere (fun d => decide (d.isl = isl)) g f.dests }

/-- The destination on an island. -/
def FabOp.dest? (f : FabOp) (isl : Nat) : Option Dest := f.dests.find? (fun d => decide (d.isl = isl))

/-- The die of an island that receives for it: die 0 where it is present (R248). (DEDUCED, log 35) -/
def State.recvDie (s : State) (isl : Nat) : Nat := if s.diePresent (2 * isl) then 2 * isl else 2 * isl + 1

/-- Bytes of the operation in the inbound logs of an island (R248). -/
def State.inLog (s : State) (i isl : Nat) : Bool :=
  let x := s.die (s.recvDie isl)
  (x.inbound ++ x.inbound2).any (fun e => decide (e.fab = i) && decide (e.isl = isl))

/-- Everything the operation owes has taken effect and been counted (R389, R396). -/
def FabOp.over (f : FabOp) (s : State) : Bool :=
  match f.kind with
  | .get => decide (f.len ≤ f.landed)
  | .ratom => !f.result.isEmpty
  | .rred => f.failed || f.dests.all (fun d => decide (d.left = 0) && !s.inLog f.id d.isl)
  | _ => f.dests.all (fun d => d.counted)

/-- Every earlier fabric operation of the group has been acknowledged (R382, R394). -/
def State.fabAcked (s : State) (L T G before : Nat) : Bool :=
  s.fabs.all (fun f => !(f.launch == L && f.team == T && f.gnum == G && decide (f.op < before)) || f.over s)

/-- Forget operations that owe nothing and whose flag has fallen. -/
def State.sweepFabs (s : State) : State :=
  { s with fabs := s.fabs.filter (fun f => !(f.over s && (s.op? f.op).isNone)) }

/-! ### The source -/

/-- The source has been read, and a release of .rel has performed (R382, R383). -/
def FabOp.ready (f : FabOp) (s : State) : Bool :=
  match s.op? f.op with
  | none => true
  | some o => o.relDone && (o.accs.filter (fun a => decide (a.thread = f.thread))).all (fun a => decide (a.st = .done) || decide (a.st = .declined))

/-- The source bytes. -/
def FabOp.bytes (f : FabOp) (s : State) : List Byte :=
  match s.op? f.op with
  | none => f.src
  | some o => (o.accs.filter (fun a => decide (a.thread = f.thread))).flatMap (fun a =>
      if a.unpred || decide (a.st = .declined) then s.freeBytes a.id a.len else a.data)

/-! ### Routes -/

/-- A topology entry (R375): KIND and VIA. (DEDUCED, log 36) -/
def State.route (s : State) (src dst : Nat) : Nat × Nat :=
  let w := (s.topo.getD (30 * src + dst) 0).toNat
  (w % 4, w / 4 % 32)

/-- Where a packet goes next from where it is (R376). -/
def Packet.next (p : Packet) : Nat :=
  match p.via with
  | some v => if p.at_ = p.src ∧ v ≠ p.src then v else p.dst
  | none => p.dst

/-! ### Arrivals to count -/

/-- An arrival on its way to the issuing team's barrier (R296, R382). -/
def State.sendCount (s : State) (f : FabOp) (kind : ArrKind) : State :=
  { s with
    nextId := s.nextId + 1
    arrivals := s.arrivals ++ [{ id := s.nextId, launch := f.launch, team := f.team, addr := f.bar, kind := kind, fab := f.id }] }

/-- Every byte of a put has taken effect at an island: its acknowledgement leaves (R382, R389). -/
def State.ackDest (s : State) (f : FabOp) (isl : Nat) : State :=
  ((s.modFab f.id (fun f => f.modDest isl (fun d => { d with acked := true })))).sendCount f (.ack isl f.len)

/-! ### Failure -/

/-- The translation that a list gives an address. -/
def trAt (l : List (Nat × Option Tr)) (va : Nat) : Option Tr :=
  l.findSome? (fun p => match p.2 with
    | some t => if t.page ≤ va ∧ va < t.page + t.size then some t else none
    | none => none)

/-- Local bytes that a failed GET, or RATOM, leaves unpredictable (R395). -/
def State.spoilLocal (s : State) (f : FabOp) : State :=
  match f.kind with
  | .ratom => (s.modTeam f.launch f.team (fun t => t.write (f.laddr % 2 ^ 19 + 32) (s.freeBytes (f.id + 3) f.elt))).modFab f.id (fun f => { f with
      result := s.freeBytes (f.id + 3) f.elt })
  | .get =>
    if f.local_ then s.modTeam f.launch f.team (fun t => t.write f.laddr (s.freeBytes f.id f.len))
    else (pageSteps f.laddr f.len).foldl (fun s a =>
      let now := match s.engineLook (s.recvDie (s.coreOf f.launch f.team / 256)) f.launch a with
        | .present t => some t
        | _ => none
      match (trAt f.ltrs a).orElse (fun _ => now) with
      | some t =>
        let n := min (f.laddr + f.len) (65536 * (a / 65536 + 1)) - a
        s.homeWriteAll (t.phys a) (grainOf t.leaf) (s.freeBytes (f.id + a) n)
      | none => s) s
  | _ => s

/-- Every count the operation would have delivered is on its way (R395). -/
def State.countAll (s : State) (f : FabOp) : State :=
  match f.kind with
  | .get =>
    let queued := (s.arrivals.filter (fun a => a.fab == f.id)).foldl (fun n a => match a.kind with
      | .landed b _ => n + b
      | _ => n) 0
    if f.len ≤ f.landed + queued then s else s.sendCount f (.landed (f.len - f.landed - queued) (!f.local_))
  | .ratom => s
  | .rred => s
  | _ => (f.dests.filter (fun d => !d.acked)).foldl (fun s d => s.ackDest f d.isl) s

/-- Take what is in flight of an operation off the fabric, the logs and the ranges. -/
def State.dropFab (s : State) (i : Nat) : State :=
  { s with
    packets := s.packets.filter (fun p => !(p.fab == i))
    contribs := s.contribs.filter (fun c => !(c.fab == i && decide (i ≠ 0)))
    dies := s.dies.map (fun x => { x with
      inbound := x.inbound.filter (fun e => !(e.fab == i)), inbound2 := x.inbound2.filter (fun e => !(e.fab == i)) }) }

/-- FABRIC_FAULT (R247, R395): the launch takes the record, and the operation delivers every count.
(DEDUCED, log 36) -/
def State.failFab (s : State) (f : FabOp) (reason code isl addr : Nat) : State :=
  if f.failed then s
  else
    let s1 := (s.modFab f.id (fun f => { f with failed := true })).raiseLaunch f.launch f.team Code.fabricFault Cls.async addr
      (BitVec.ofNat 32 (reason * 2 ^ 24 + isl % 32 * 2 ^ 16 + code))
    ((s1.dropFab f.id).spoilLocal f).countAll f

/-- It has not reached its destination. -/
def Packet.onItsWay (p : Packet) : Bool := decide (p.st = .waiting) || decide (p.st = .flying)

/-- The operation is in flight from island `src` toward `dst`: packets of it have still to arrive there, or it has to answer from
there (R378). What has arrived whole performs whole (R395). (DEDUCED, log 36) -/
def FabOp.inFlight (f : FabOp) (s : State) (src dst : Nat) : Bool :=
  !f.failed && (s.packets.any (fun p => p.fab == f.id && p.onItsWay && decide (p.src = src) && decide (p.dst = dst)) ||
    (decide (s.coreOf f.launch f.team / 256 = src) && decide (src ≠ dst) && (f.dest? dst).isSome && (match f.kind with
      | .get => decide (f.landed < f.len)
      | .ratom => f.result.isEmpty
      | _ => false)))

/-- Operations in flight toward an island whose entry has become absent (R378, R395). -/
def State.noRoute (s : State) (src dst : Nat) : State :=
  (s.fabs.filter (fun f => f.inFlight s src dst)).foldl (fun s f => s.failFab f 2 Code.islandAbsent dst f.raddr) s

/-! ### Checks at a destination -/

/-- Steps 3 to 5 of R211 for a fabric access, which is of neither die (R247); the window is refused (R260). -/
def State.fabFault (s : State) (t : Tr) (k : AccKind) (va : Nat) : Option Nat :=
  if t.scratch then some Code.pageMode
  else if badPermission t k va then some Code.accessFault
  else if k ≠ .load ∧ modeOf t.leaf = 2 then some Code.pageMode
  else s.absentCode t.home

/-- The pages of [va, va+n) as the island finds them: the first fault, or a translation for each. -/
def State.fabPages (s : State) (isl L va n : Nat) (k : AccKind) : Except (Nat × Nat) (List (Nat × Option Tr)) :=
  (pageSteps va n).mapM (fun a => match s.engineLook (s.recvDie isl) L a with
    | .present t => match s.fabFault t k a with
      | some c => Except.error (c, a)
      | none => .ok (a, some t)
    | _ => .ok (a, none))

/-- Ask for the pages of a list that are not present (R241, R248). -/
def State.fabRequest (s : State) (isl L : Nat) (l : List (Nat × Option Tr)) : State :=
  l.foldl (fun s p => match p.2 with
    | some t => s.noteEngine (s.recvDie isl) L (.present t)
    | none => s.engineRequestMap (s.recvDie isl) L p.1) s

/-- Address of the notify counter of a PUTN (R382). -/
def State.counterAddr (s : State) (f : FabOp) : Nat := ((s.launch? f.launch).map (fun x => x.bits 4 0 64)).getD 0 + 4 * f.f0 60 4

/-- The gang's team on an island (R379). -/
def State.peerTeam (s : State) (L isl : Nat) : Option Team := s.teams.find? (fun t => decide (t.launch = L) && decide (t.core / 256 = isl))

/-- Address of element i of RRED. -/
def FabOp.eltAddr (f : FabOp) (i : Nat) : Nat := f.raddr + i * f.elt

/-- The range that holds an element at its destination (R385). -/
def State.fabRange (s : State) (f : FabOp) (isl va : Nat) : Option Range :=
  s.ranges.find? (fun r => decide (r.isl = isl) && decide (r.launch = f.launch) && decide (r.base ≤ va) && decide (va < r.base + r.len))

/-- The first element of RRED that its destination refuses: code and address (R385). -/
def State.rredFault (s : State) (f : FabOp) (isl : Nat) : Option (Nat × Nat) :=
  (List.range (f.len / f.elt)).findSome? (fun i =>
    let va := f.eltAddr i
    match s.fabRange f isl va with
    | some r => if r.fmt64 != decide (f.ty = 1) || r.ord != decide (f.order = 1) then some (Code.accFormat, va) else none
    | none =>
      if f.order = 1 then some (Code.accFormat, va)
      else match s.engineLook (s.recvDie isl) f.launch va with
        | .present t => (s.fabFault t .store va).map (fun c => (c, va))
        | _ => none)

/-- The present pages of an RRED, whose elements have been checked (R247, R385). -/
def State.rredPages (s : State) (f : FabOp) (isl : Nat) : List (Nat × Option Tr) :=
  (pageSteps f.raddr f.len).map (fun a => match s.engineLook (s.recvDie isl) f.launch a with
    | .present t => (a, some t)
    | _ => (a, none))

/-- The check of a PUTN's counter page (R382). -/
def State.counterFault (s : State) (f : FabOp) (isl : Nat) : Option Nat :=
  if f.kind ≠ .putn then none
  else match s.fabPages isl f.launch (s.counterAddr f) 4 .atomic with
    | .error (c, _) => some c
    | .ok _ => none

/-- The check of a destination, as its first packet arrives (R247, R382, R384, R385). -/
def State.checkDest (s : State) (f : FabOp) (isl : Nat) : State :=
  let note := fun (s : State) (l : List (Nat × Option Tr)) =>
    (s.fabRequest isl f.launch l).modFab f.id (fun f => f.modDest isl (fun d => { d with checked := true, trs := l }))
  if f.peer then
    match s.peerTeam f.launch isl, s.counterFault f isl with
    | none, _ => s.failFab f 3 0 isl f.raddr
    | some t, bad =>
      if t.exited then s.failFab f 3 0 isl f.raddr
      else match bad with
        | some c => s.failFab f 5 c isl f.raddr
        | none => note s []
  else match f.kind with
    | .rred => match s.rredFault f isl with
      | some (c, a) => if c = Code.accFormat then s.failFab f 4 c isl a else s.failFab f 1 c isl a
      | none =>
        let met := s.ranges.filter (fun r => decide (r.isl = isl) && decide (r.launch = f.launch) &&
          decide (r.base < f.raddr + f.len) && decide (f.raddr < r.base + r.len))
        (note s (s.rredPages f isl)).modFab f.id (fun f => f.modDest isl (fun d => { d with
          ranges := met.map (fun r => (r.id, r.base, r.len)) }))
    | .ratom => match s.fabPages isl f.launch f.raddr f.elt .atomic with
      | .ok l => note s l
      | .error (c, _) => s.failFab f 1 c isl f.raddr
    | .get => match s.fabPages isl f.launch f.raddr f.len .load with
      | .ok l => note s l
      | .error (c, _) => s.failFab f 1 c isl f.raddr
    | _ => match s.fabPages isl f.launch f.raddr f.len .store with
      | .error (c, _) => s.failFab f 1 c isl f.raddr
      | .ok l => match s.counterFault f isl with
        | some c => s.failFab f 5 c isl f.raddr
        | none => note s l

/-! ### All or nothing -/

/-- Pages of the operation's part that were not present at its check, and whose notices have not come (R248). -/
def Dest.open_ (d : Dest) : Bool :=
  d.trs.any (fun p => p.2.isNone && !d.mapped.any (fun m => decide (m.1 ≤ p.1) && decide (p.1 < m.1 + m.2)))

/-- Every page of every destination is known to be there: nothing can fail the operation's bytes any more (R247, R395). -/
def FabOp.certain (f : FabOp) : Bool := f.dests.all (fun d => d.checked && !d.open_)

/-- The operation writes bytes or elements, of which none may perform where it fails (R395). -/
def FabOp.writes (f : FabOp) : Bool := decide (f.kind ≠ .get) && decide (f.kind ≠ .ratom)

/-- A packet that writes may take effect: every packet of its operation has reached its destination, and either no page
can be declined any more, or the packet's bytes only retire into the log (R247, R248, R395). (DEDUCED, log 36) -/
def State.mayPut (s : State) (p : Packet) (f : FabOp) (d : Dest) : Bool :=
  p.resp || !f.writes ||
    (s.packets.all (fun q => !(q.fab == f.id && !q.resp && q.onItsWay)) &&
      (f.certain || (!f.peer && decide (f.kind ≠ .rred) &&
        (pageSteps (f.raddr + p.off) p.len).all (fun a => (trAt d.trs a).isNone))))

/-! ### Taking effect -/

/-- A run of bytes cut at the multiples of g: addresses and bytes. -/
def cutAt (g va : Nat) (bs : List Byte) : List (Nat × List Byte) :=
  (List.range ((va + bs.length - 1) / g + 1 - va / g)).map (fun k =>
    let lo := max va (g * (va / g + k))
    (lo, (bs.drop (lo - va)).take (min (va + bs.length) (g * (va / g + k + 1)) - lo)))

/-- Which page an island's engines find an address missing from. -/
def State.missingPage (s : State) (isl L va : Nat) : Nat × Nat :=
  match s.engineLook (s.recvDie isl) L va with
  | .absent p n _ _ _ => (p, n)
  | .moving t => (t.page, t.size)
  | .present t => (t.page, t.size)

/-- The grain of such a page: what its entry says, 32 bytes where that is no leaf (R229, R248). (DEDUCED, log 35) -/
def State.missingGrain (s : State) (isl L va : Nat) : Nat :=
  match s.engineLook (s.recvDie isl) L va with
  | .absent _ n _ e _ => if leafOk e n then grainOf e else 32
  | .moving t => grainOf t.leaf
  | .present t => grainOf t.leaf

/-- Put entries into an inbound log of an island that has room for all; none where neither has (R248).
(DEDUCED, log 35) -/
def State.logInbound (s : State) (isl : Nat) (es : List Inbound) : Option State :=
  let d := s.recvDie isl
  let x := s.die d
  if x.inbound.length + es.length ≤ 512 then some (s.modDie d (fun x => { x with inbound := x.inbound ++ es }))
  else if x.inbound2.length + es.length ≤ 512 then some (s.modDie d (fun x => { x with inbound2 := x.inbound2 ++ es }))
  else none

/-- Bytes arrive at an island's memory: they perform at their homes, or retire grain by grain into its inbound log, whose
pages are asked for; none where the log is full (R247, R248). A page in transition counts as not present.
(DEDUCED, log 74) -/
def State.landBytes (s : State) (f : FabOp) (isl : Nat) (trs : List (Nat × Option Tr)) (va : Nat) (bs : List Byte) : Option State :=
  let ps := cutAt 65536 va bs
  let logged := ps.filter (fun p => (trAt trs p.1).isNone)
  let es := logged.flatMap (fun p =>
    let q := s.missingPage isl f.launch p.1
    (cutAt (s.missingGrain isl f.launch p.1) p.1 p.2).map (fun x =>
      ({ fab := f.id, isl := isl, launch := f.launch, va := x.1, bytes := x.2, page := q.1, size := q.2 } : Inbound)))
  let s1 := if es.isEmpty then some s
    else (s.logInbound isl es).map (fun s => logged.foldl (fun s p => s.logRequestMap (s.recvDie isl) f.launch p.1) s)
  s1.map (fun s => ps.foldl (fun s p => match trAt trs p.1 with
    -- what is on its way to a die that has been fenced is discarded (R435)
    | some t => if (s.absentCode t.home).isSome then s else s.homeWriteAll (t.phys p.1) (grainOf t.leaf) p.2
    | none => s) s)

/-- The notify counter of a PUTN at an island whose bytes have all performed: incremented, or held on its page (R382). -/
def State.notifyCounter (s : State) (f : FabOp) (isl : Nat) : State :=
  let va := s.counterAddr f
  match s.engineLook (s.recvDie isl) f.launch va with
  | .present t =>
    match s.fabFault t .atomic va with
    | some c => s.failFab f 5 c isl f.raddr
    | none =>
      let pa := t.phys va
      (s.homeWrite pa (grainOf t.leaf) (bytesOf ((s.homeNum pa 4 + 1) % 2 ^ 32) 4)).modFab f.id (fun f =>
        f.modDest isl (fun d => { d with notified := true }))
  | _ => s.engineRequestMap (s.recvDie isl) f.launch va

/-- An island has done all of its part: the notify counter, then the acknowledgement (R382, R389). -/
def State.destProgress (s : State) (i isl : Nat) : State :=
  match s.fab? i with
  | none => s
  | some f =>
    match f.dest? isl with
    | none => s
    | some d =>
      if f.failed || d.acked || decide (0 < d.left) || s.inLog i isl then s
      else match f.kind with
        | .put | .mput => s.ackDest f isl
        | .putn =>
          if d.notified then s.ackDest f isl
          else
            let s1 := s.notifyCounter f isl
            if ((s1.fab? i).bind (fun f => f.dest? isl)).any (fun d => d.notified && !d.acked) then s1.ackDest f isl else s1
        | _ => s

/-- One packet, or element, fewer to take effect at an island. -/
def State.tookEffect (s : State) (i isl : Nat) : State :=
  (s.modFab i (fun f => f.modDest isl (fun d => { d with left := d.left - 1 }))).destProgress i isl

/-- A packet has nothing left to do. -/
def State.dropPacket (s : State) (i : Nat) : State := { s with packets := s.packets.filter (fun p => !(p.id == i)) }

/-- A response to a packet leaves its island (R377). -/
def State.respond (s : State) (p : Packet) (data : List Byte) : State :=
  let d := s.recvDie p.dst
  let r : Packet :=
    { id := s.nextId, fab := p.fab, src := p.dst, dst := p.src, at_ := p.dst, resp := true, off := p.off, len := p.len
      data := data, die := d, incar := (s.die d).incar }
  { s.dropPacket p.id with nextId := s.nextId + 1, packets := (s.dropPacket p.id).packets ++ [r] }

/-- An element of RRED arrives (R276, R283, R290, R385): it goes to the range that its check found, or to memory. None
where the inbound log is full. -/
def State.landElem (s : State) (f : FabOp) (isl i : Nat) (bits : Nat) (d : Dest) : Option State :=
  let va := f.eltAddr i
  match d.ranges.find? (fun r => decide (r.2.1 ≤ va) && decide (va < r.2.1 + r.2.2)) with
  | some r =>
    -- what is on its way to a die that has been fenced is discarded (R435)
    if ((trAt d.trs va).bind (fun t => s.absentCode t.home)).isSome then some (s.tookEffect f.id isl)
    else some { s with
      nextId := s.nextId + 1
      contribs := s.contribs ++ [{ id := s.nextId, launch := f.launch, team := f.team, gnum := f.gnum, isl := isl, range := r.1
                                   seq := (f.f1 26 16 + i * f.f1 42 8) % 65536, ord := decide (f.order = 1), elems := [(va, bits, false)]
                                   trs := d.trs.filterMap (·.2), fab := f.id, mma := if f.order = 1 then f.id else 0, chunk := i
                                   wide := decide (f.ty = 1), sent := true }] }
  | none =>
    match trAt d.trs va with
    | some t =>
      let s1 := if (s.absentCode t.home).isSome then s
        else s.reduceHome true 0 (decide (f.ty = 1)) (t.phys va) (grainOf t.leaf) bits f.launch f.team va
      some (s1.tookEffect f.id isl)
    | none =>
      let q := s.missingPage isl f.launch va
      (s.logInbound isl [{ fab := f.id, isl := isl, launch := f.launch, va := va, bytes := bytesOf bits f.elt, red := true, page := q.1, size := q.2 }]).map
        (fun s => (s.logRequestMap (s.recvDie isl) f.launch va).tookEffect f.id isl)

/-- Elements of a packet, in ascending order. -/
def landElems (f : FabOp) (isl : Nat) (d : Dest) : List (Nat × Nat) → State → Option State
  | [], s => some s
  | (i, bits) :: rest, s => (s.landElem f isl i bits d).bind (landElems f isl d rest)

/-- Bytes from `off` on of a peer team's local store (R379, R383). -/
def State.peerWrite (s : State) (L isl off : Nat) (bs : List Byte) : State :=
  match s.peerTeam L isl with
  | none => s
  | some t => s.landLocal L t.idx off bs

/-- What a remote read or atomic finds its page to be: the translation of the check, or, for a page that was not present
then, what is there now; a fault, or a page to wait for (R247, R384). -/
def State.lateTr (s : State) (d : Dest) (f : FabOp) (va : Nat) (k : AccKind) : Option (Except Nat Tr) :=
  match trAt d.trs va with
  | some t => some (.ok t)
  | none => match s.engineLook (s.recvDie d.isl) f.launch va with
    | .present t => match s.fabFault t k va with
      | some c => some (.error c)
      | none => some (.ok t)
    | _ => none

/-- What a packet does at its receiver (R382 to R385), where a die that has been fenced discards what is written and gives
unpredictable bytes (R435): none where it has to wait or is refused. -/
def State.effect (s : State) (p : Packet) (f : FabOp) : Option State :=
  if p.resp then
    -- a source register written too early leaves what it writes unpredictable (R101)
    let got := if (s.op? f.op).any (·.tainted) then s.freeBytes p.id p.data.length else p.data
    match f.kind with
    | .ratom =>
      some (((s.dropPacket p.id).landLocal f.launch f.team (f.laddr % 2 ^ 19 + 32) got).modFab f.id (fun f => { f with result := got }))
    | _ =>
      if f.local_ then
        some (((s.dropPacket p.id).landLocal f.launch f.team (f.laddr + p.off) got).sendCount f (.landed p.len false))
      else
        (s.landBytes f p.dst f.ltrs (f.laddr + p.off) got).map (fun t =>
          let n := ((cutAt 65536 (f.laddr + p.off) got).filter (fun q => (trAt f.ltrs q.1).isSome)).foldl (fun n q => n + q.2.length) 0
          (if n = 0 then t.dropPacket p.id else (t.dropPacket p.id).sendCount f (.landed n true)))
  else
    match f.dest? p.dst with
    | none => none
    | some d =>
      let data := ((f.bytes s).drop p.off).take p.len
      if !s.mayPut p f d then none else
      match f.kind with
      | .get =>
        if f.peer then
          match s.peerTeam f.launch p.dst with
          | none => none
          | some t => if s.takesFrom f.launch t.idx f.team then
              some ((s.respond p (t.read (f.raddr + p.off) p.len)).tookEffect f.id p.dst) else none
        else
          let va := f.raddr + p.off
          match s.lateTr d f va .load with
          | none => none
          | some (.error c) => some (s.failFab f 1 c p.dst f.raddr)
          | some (.ok t) =>
            -- a run that the home has missed it now fetches (R263)
            let pa := t.phys va
            if (s.absentCode t.home).isSome then some ((s.respond p (s.freeBytes p.id p.len)).tookEffect f.id p.dst)
            else some (((s.respond p (s.readHome none pa p.len p.id)).readFill pa p.len (grainOf t.leaf)).tookEffect f.id p.dst)
      | .ratom =>
        match s.lateTr d f f.raddr .atomic with
        | none => none
        | some (.error c) => some (s.failFab f 1 c p.dst f.raddr)
        | some (.ok t) =>
          let pa := t.phys f.raddr
          if (s.absentCode t.home).isSome then some ((s.respond p (s.freeBytes p.id f.elt)).tookEffect f.id p.dst)
          else
          let old := s.readHome none pa f.elt p.id
          let bs := f.bytes s
          let s1 := match atomNew f.o (BitVec.ofNat 3 f.ty) (s.homeNum pa f.elt) (numOf (bs.take f.elt)) (numOf ((bs.drop 16).take f.elt)) with
            | some v => s.homeWrite pa (grainOf t.leaf) (bytesOf v f.elt)
            | none => s.spoil pa f.elt
          some ((s1.respond p old).tookEffect f.id p.dst)
      | .rred =>
        let first := p.off / f.elt
        (landElems f p.dst d ((List.range (p.len / f.elt)).map (fun k => (first + k, numOf ((data.drop (k * f.elt)).take f.elt)))) s).map
          (fun t => t.dropPacket p.id)
      | _ =>
        if f.peer then
          match s.peerTeam f.launch p.dst with
          | none => none
          | some t => if s.takesFrom f.launch t.idx f.team then
              some (((s.peerWrite f.launch p.dst (f.raddr + p.off) data).dropPacket p.id).tookEffect f.id p.dst) else none
        else (s.landBytes f p.dst d.trs (f.raddr + p.off) data).map (fun t => (t.dropPacket p.id).tookEffect f.id p.dst)

/-- Everything earlier in the packet's stream has taken effect at the destination (R386, R387, R248).
(DEDUCED, log 36) -/
def State.streamClear (s : State) (p : Packet) (f : FabOp) : Bool :=
  p.resp || !f.streamed ||
    (s.packets.all (fun q => !(decide (q.dst = p.dst) && !q.resp && q.seq.isSome && decide (q.id < p.id) &&
        ((s.fab? q.fab).any (fun g => g.launch == f.launch && g.team == f.team && g.gnum == f.gnum)))) &&
      s.fabs.all (fun g => !(g.launch == f.launch && g.team == f.team && g.gnum == f.gnum && g.streamed && decide (g.id < f.id)) ||
        g.failed || (match g.dest? p.dst with
          | none => true
          | some d => decide (d.left = 0) && !s.inLog g.id p.dst && (d.notified || decide (g.kind ≠ .putn)))))

/-- Deliver a packet that has arrived: the check of its destination first, its effect once every destination of the
operation has been checked and its turn has come (R247, R386). None where nothing changes. -/
def State.deliverPacket (s : State) (p : Packet) : Option State :=
  match s.fab? p.fab with
  | none => some (s.dropPacket p.id)
  | some f =>
    if p.resp && f.kind = .get && !f.local_ && !f.land then
      -- the landing pages, as the first data returns (R247)
      match s.fabPages p.dst f.launch f.laddr f.len .store with
      | .error (c, _) => some (s.failFab f 1 c p.dst f.raddr)
      | .ok l => some ((s.fabRequest p.dst f.launch l).modFab f.id (fun f => { f with land := true, ltrs := l }))
    else if !p.resp && !((f.dest? p.dst).map (·.checked)).getD true then some (s.checkDest f p.dst)
    else if !(f.dests.all (·.checked)) || !s.streamClear p f then none
    else s.effect p f

/-! ### Inbound logs -/

/-- Replay one entry at its home (R244, R248). -/
def State.replayInbound (s : State) (e : Inbound) : State :=
  match s.fab? e.fab with
  | none => s
  | some f =>
    match s.engineLook (s.recvDie e.isl) e.launch e.va with
    | .present t =>
      match s.fabFault t .store e.va with
      | some c => s.failFab f 1 c e.isl f.raddr
      | none =>
        let s1 := if e.red then s.reduceHome true 0 (decide (f.ty = 1)) (t.phys e.va) (grainOf t.leaf) (numOf e.bytes) f.launch f.team e.va
          else s.homeWriteAll (t.phys e.va) (grainOf t.leaf) e.bytes
        let d := s.recvDie e.isl
        let s2 := s1.modDie d (fun x => { x with inbound := x.inbound.filter (fun y => !(y == e)), inbound2 := x.inbound2.filter (fun y => !(y == e)) })
        if f.kind = .get then s2.sendCount f (.landed e.bytes.length true) else s2.destProgress f.id e.isl
    | _ => s

/-- Entries of a page of a launch on an island. -/
def State.inboundOn (s : State) (isl L page size : Nat) : List Inbound :=
  let x := s.die (s.recvDie isl)
  (x.inbound ++ x.inbound2).filter (fun e => decide (e.launch = L) && decide (e.isl = isl) && decide (page ≤ e.va) && decide (e.va < page + size))

/-- The notice of a page that a destination found absent has come (R248, R395). -/
def FabOp.noticed (f : FabOp) (isl L page size : Nat) : FabOp :=
  if f.launch ≠ L then f
  else f.modDest isl (fun d =>
    if d.trs.any (fun p => p.2.isNone && decide (page ≤ p.1) && decide (p.1 < page + size)) then { d with mapped := (page, size) :: d.mapped }
    else d)

/-- The engines of an island learn that a page is mapped: its log entries replay, those of a writing operation once no page of
it can be declined any more, and increments held on it go on (R248, R382, R395). (DEDUCED, log 36) -/
def State.fabMapped (s : State) (isl L page size : Nat) : State :=
  let s0 : State := { s with fabs := s.fabs.map (fun f => f.noticed isl L page size) }
  let here := s0.inboundOn isl L page size
  let logged := (s0.dies.flatMap (fun x => x.inbound ++ x.inbound2)).filter (fun e => match s0.fab? e.fab with
    | none => false
    | some f => if f.writes then f.certain && decide (f.launch = L) else here.contains e)
  let s1 := logged.foldl (fun s e => s.replayInbound e) s0
  (s1.fabs.filter (fun f => decide (f.launch = L) && decide (f.kind = .putn))).foldl (fun s f => s.destProgress f.id isl) s1

/-- The engines of an island learn that a page is declined (R248, R382, R395). -/
def State.fabDeclined (s : State) (isl L page size : Nat) : State :=
  let hit := (s.inboundOn isl L page size).map (·.fab)
  let on := fun (va : Nat) => decide (page ≤ va) && decide (va < page + size)
  let waits := fun (f : FabOp) => f.writes && (f.dest? isl).any (fun d => d.trs.any (fun p => p.2.isNone && on p.1) &&
    !d.mapped.any (fun m => decide (m.1 = page)))
  s.fabs.foldl (fun s f =>
    if f.launch ≠ L then s
    else if hit.contains f.id || waits f then s.failFab f 1 Code.notMapped isl f.raddr
    else if f.kind = .putn && on (s.counterAddr f) &&
        (f.dest? isl).any (fun d => d.checked && decide (d.left = 0) && !d.notified) && !s.inLog f.id isl then s.failFab f 5 Code.notMapped isl f.raddr
    else if (f.kind = .get ∨ f.kind = .ratom) && s.packets.any (fun p => p.fab == f.id && !p.resp && decide (p.st = .arrived) &&
        decide (p.dst = isl) && on (f.raddr + p.off)) then s.failFab f 1 Code.notMapped isl f.raddr
    else s) s

end Sys2Proof.Machine
end

