-- ==== Sys2Proof/Machine/Special.lean ====
section
/-!
DEFINITION. Special.lean: the special and control registers (R153 to R160).
-/
namespace Sys2Proof.Machine

/-- The island of each team of a launch, in the order of its core list. -/
def Launch.islands (x : Launch) : List Nat := x.cores.map (fun c => c / 256 % 32)

/-- GANG (R155): MEMB, GSIZE and GRANK of a team. -/
def Launch.gangWord (x : Launch) (team : Nat) : Word :=
  if x.bits 2 52 1 = 1 then
    let isl := x.islands.getD team 0
    BitVec.ofNat 32 (2 ^ 31 + 256 * (x.cores.length % 32) + (x.islands.filter (fun i => decide (i < isl))).length % 32)
  else 0

/-- GISL (R154): the islands of the gang. -/
def Launch.gangIslands (x : Launch) : Word := if x.bits 2 52 1 = 1 then maskOf (x.islands.filter (fun i => decide (i < 30))) else 0

/-- A 32-bit special register (R154, R157). Numbers that are not listed raise ILLOP before they are read (R153). -/
def special32Value (s : State) (l : Lane) (g : Group) (n : Nat) : Word :=
  let t := s.team? l.launch l.team
  let x := s.launch? l.launch
  let num := fun (v : Option Nat) => BitVec.ofNat 32 (v.getD 0)
  match n with
  | 0x00 => BitVec.ofNat 32 g.gnum
  | 0x01 => BitVec.ofNat 32 g.role
  | 0x02 => num (t.map (·.slot))
  | 0x03 => BitVec.ofNat 32 l.team
  | 0x04 => num (x.map (fun x => x.bits 2 0 16))
  | 0x05 => BitVec.ofNat 32 (l.core % 2 ^ 13)
  | 0x06 => BitVec.ofNat 32 g.nblk
  | 0x07 => BitVec.ofNat 32 g.wb
  | 0x08 => g.flagsWord
  | 0x09 => if (t.bind (·.partner)).isSome then 1 else 0
  | 0x0A => (x.map (fun x => x.gangWord l.team)).getD 0
  | 0x0B => (x.map (·.gangIslands)).getD 0
  | 0x0C => BitVec.ofNat 32 l.launch
  | 0x0D => num (x.map (·.prio))
  | 0x0E => s.islMask.setWidth 32
  | _ => (s.die (dieOfCore l.core)).bl.getD (n - 0x18) 0xFFFFFFFF

/-- A 64-bit special register (R154, R156). -/
def special64Value (s : State) (l : Lane) (n : Nat) : DWord :=
  let d := dieOfCore l.core
  if n = 0x10 then BitVec.ofNat 64 (s.timeOf d)
  else if n = 0x11 then s.dieMask.setWidth 64
  else if n - 0x40 = d then 0
  else if s.diePresent (n - 0x40) then (s.die d).toff.getD (n - 0x40) toffAbsent
  else toffAbsent

/-- A control register (R158, R159). -/
def controlValue (s : State) (l : Lane) (g : Group) (n : Nat) : Word :=
  let t := s.team? l.launch l.team
  match n with
  | 0 => (t.map (·.bken)).getD 0
  | 1 => g.gtag
  | 2 => g.lastf
  | 3 => BitVec.ofNat 32 ((t.map (·.free)).getD 0)
  | 4 => BitVec.ofNat 32 ((t.map (fun t => t.budget.getD g.role 0)).getD 0)
  | _ => BitVec.ofNat 32 ((t.map (fun t => t.held.getD g.role 0)).getD 0)

/-- MOVS (R153). -/
def execMovs (d y s_ : BitVec 7) (u : Bool) (s : State) : Out :=
  alu (.movs d y s_ u) u d (fun e => [special32Value e.s e.l e.g s_.toNat]) s

/-- MOVS.64 (R153). -/
def execMovs64 (d y s_ : BitVec 7) (u : Bool) (s : State) : Out :=
  alu (.movs64 d y s_ u) u d (fun e => pair (special64Value e.s e.l s_.toNat)) s

/-- MOVC (R153). -/
def execMovc (d y c : BitVec 7) (u : Bool) (s : State) : Out :=
  alu (.movc d y c u) u d (fun e => [controlValue e.s e.l e.g c.toNat]) s

/-- MOVC.w: the value of the highest-numbered thread stands, or with U that of the lowest (R153). -/
def execMovcW (x a c : BitVec 7) (u : Bool) (s : State) : Out :=
  runWord (.movcW x a c u) noOwn (fun s l g =>
    let v := (thr s l g ((l.execThreads u).getLastD 0)).v32 a
    if c.toNat = 0 then s.modTeam l.launch l.team (fun t => { t with bken := v })
    else s.modGroup l.launch l.team l.gnum (fun g => { g with gtag := v })) s

end Sys2Proof.Machine
end

