-- ==== Sys2Proof/Machine/Tile.lean ====
section
/-!
DEFINITION. Tile.lean: tiles, their shapes and states, tile rings, and the fields of a matrix operation (R339 to R351).
-/
namespace Sys2Proof.Machine

/-! ### Shapes and elements -/

/-- Rows, columns and element bytes of a shape (R340). -/
def shapeRows (w : Word) : Nat := w.toNat / 256 % 256 + 1
def shapeCols (w : Word) : Nat := w.toNat % 256 + 1
def shapeElt (w : Word) : Nat := 2 ^ (w.toNat / 2 ^ 18 % 4 + 1)

/-- Shape size S (R341). -/
def shapeSize (w : Word) : Nat := shapeRows w * shapeCols w * shapeElt w

/-- A valid shape (R340). -/
def shapeOk (w : Word) : Bool :=
  decide (w.toNat < 2 ^ 20) && decide (w.toNat / 2 ^ 18 % 4 ≠ 3) && decide (w.toNat / 2 ^ 16 % 4 < 2) && decide (shapeSize w ≤ 8192)

/-- Tile n of a team. -/
def Team.tile (t : Team) (n : Nat) : Tile := t.tiles.getD n {}

/-- Change a tile. -/
def Team.modTile (t : Team) (n : Nat) (f : Tile → Tile) : Team := { t with tiles := setNth t.tiles n (f (t.tile n)) }

/-- Change a tile of team (L, T). -/
def State.modTile (s : State) (L T n : Nat) (f : Tile → Tile) : State := s.modTeam L T (fun t => t.modTile n f)

/-- Bytes of a tile. -/
def Tile.read (x : Tile) (off n : Nat) : List Byte := (List.range n).map (fun i => Cells.get 0 x.data (off + i))

/-- Write bytes of a tile. -/
def Tile.write (x : Tile) (off : Nat) (bs : List Byte) : Tile :=
  { x with data := (bs.zipIdx).foldl (fun m b => Cells.set 0 m (off + b.2) b.1) x.data }

/-- Element x, in row-major order (R341, R362). -/
def Tile.elem (x : Tile) (i : Nat) : Nat := numOf (x.read (i * shapeElt x.shape) (shapeElt x.shape))

/-! ### Rings -/

/-- Fields of a ring descriptor (R345). -/
def Ring.en (r : Ring) : Bool := r.desc.getLsbD 31
def Ring.first (r : Ring) : Nat := r.desc.toNat % 32
def Ring.count (r : Ring) : Nat := r.desc.toNat / 32 % 32 + 1

/-- The member tiles of a descriptor. -/
def Ring.members (r : Ring) : List Nat := (List.range r.count).map (fun i => r.first + i)

/-- Tile at a ring position (R346). -/
def Ring.tileAt (r : Ring) (i : Nat) : Nat := r.first + i % r.count

/-- Tiles between the consumer and the producer pointer. -/
def Ring.fill (r : Ring) : Nat := (r.p + 65536 - r.c) % 65536

/-- Ring n of a team. -/
def Team.ring (t : Team) (n : Nat) : Ring := t.rings.getD n {}

/-- Change a ring. -/
def Team.modRing (t : Team) (n : Nat) (f : Ring → Ring) : Team := { t with rings := setNth t.rings n (f (t.ring n)) }

/-- The tile is a member of an enabled ring (R342). -/
def Team.member (t : Team) (n : Nat) : Bool := t.rings.any (fun r => r.en && r.members.contains n)

/-- Release the tile at the consumer pointer (R343, R348). -/
def Team.release (t : Team) (n : Nat) : Team :=
  let r := t.ring n
  if r.fill = 0 then t
  else
    (t.modTile (r.tileAt r.c) (fun x =>
      if x.readers = 0 then { x with st := .empty, data := [] } else { x with st := .draining })).modRing n
      (fun r => { r with c := (r.c + 1) % 65536 })

/-- A reader of a tile is done (R343). -/
def Tile.readerDone (x : Tile) : Tile :=
  let n := x.readers - 1
  if x.st = .draining ∧ n = 0 then { x with readers := 0, st := .empty, data := [] } else { x with readers := n }

/-- A load of a tile is done (R343). -/
def Tile.loadDone (x : Tile) : Tile :=
  let n := x.loads - 1
  if x.st = .filling ∧ n = 0 then { x with loads := 0, st := .ready } else { x with loads := n }

/-! ### Matrix operations -/

/-- A source of a matrix operation (R350). -/
structure Panel where
  num : Nat
  cnt : Nat
  ring : Bool
  keep : Bool
  deriving DecidableEq, Repr

/-- The fields of ASRC or BSRC. -/
def panelOf (w : Nat) : Panel :=
  { num := w % 32, cnt := w / 128 % 4 + 1, ring := decide (w / 32 % 2 = 1), keep := decide (w / 64 % 2 = 1) }

/-- Bits [lo+n-1:lo] of word k of a parameter block (R349). -/
def blockField (ws : List DWord) (k lo n : Nat) : Nat := (ws.getD k 0).toNat / 2 ^ lo % 2 ^ n

def Mma.field (m : Mma) (k lo n : Nat) : Nat := blockField m.words k lo n
def Mma.srcA (m : Mma) : Panel := panelOf (m.field 3 0 32)
def Mma.srcB (m : Mma) : Panel := panelOf (m.field 3 32 32)
def Mma.depth (m : Mma) : Nat := m.field 2 32 32
def Mma.cols (m : Mma) : Nat := m.field 2 16 16
def Mma.rows (m : Mma) : Nat := m.field 2 0 16
def Mma.ty (m : Mma) : Nat := m.field 1 4 2
def Mma.sparse (m : Mma) : Bool := decide (m.field 1 7 1 = 1)
def Mma.mslot (m : Mma) : Nat := m.field 1 8 3

/-- k of one chunk (R352). -/
def chunkSize (ty : Nat) : Nat := if ty = 0 then 32 else if ty = 1 then 8 else 4

/-- NK, the k-steps of the operation (R351). -/
def Mma.steps (m : Mma) : Nat := (m.depth + m.kt - 1) / m.kt

/-- NC, its chunks (R352). -/
def Mma.chunks (m : Mma) : Nat := (m.depth + chunkSize m.ty - 1) / chunkSize m.ty

/-- The first chunk of step s, or NC. -/
def Mma.chunkOf (m : Mma) (s : Nat) : Nat := min m.chunks (s * (m.kt / chunkSize m.ty))

/-- It reads tile n as a tile source. -/
def Mma.readsTile (m : Mma) (n : Nat) : Bool :=
  [m.srcA, m.srcB].any (fun p => !p.ring && decide (p.num ≤ n) && decide (n < p.num + p.cnt))

/-- It reads ring n. -/
def Mma.readsRing (m : Mma) (n : Nat) : Bool := [m.srcA, m.srcB].any (fun p => p.ring && decide (p.num = n))

/-- R355 is broken for the operations of team (L, T) that satisfy `p`: what k-steps that fire from now on contribute is
unpredictable. (DEDUCED, log 29; DEDUCED, log 30) -/
def State.breach (s : State) (L T : Nat) (p : Mma → Bool) : State :=
  { s with mmas := updWhere (fun m => m.launch == L && m.team == T && p m) (fun m => { m with broken := true }) s.mmas }

/-- The ring tile at consumer position c is one that the operation has not yet released, or has still to read (R355).
(DEDUCED, log 29) -/
def Mma.owes (m : Mma) (n c : Nat) : Bool :=
  let one := fun (p : Panel) (c0 : Option Nat) =>
    p.ring && decide (p.num = n) &&
      (if p.keep then match c0 with
        | none => true
        | some c0 => decide ((c + 65536 - (c0 + m.fired * p.cnt) % 65536) % 65536 < (m.steps - m.fired) * p.cnt)
      else decide (m.readDone < m.steps))
  one m.srcA m.c0a || one m.srcB m.c0b

/-- Stores of tile n that are in flight have lost the bytes they have not handed over (R101, R361).
(DESIGN CHOICE, log 28) -/
def State.taintTile (s : State) (L T n : Nat) : State :=
  (s.ops.filter (fun o => o.launch == L && o.team == T && decide (o.kind = .tst n))).foldl (fun s o => s.taint o) s

/-- An instruction writes the bytes of a standalone tile: R101 and R355. (DESIGN CHOICE, log 28) -/
def State.touchTile (s : State) (L T n : Nat) : State := (s.taintTile L T n).breach L T (fun m => m.readsTile n)

end Sys2Proof.Machine
end

