-- ==== Sys2Proof/Machine/Copy.lean ====
section
/-!
DEFINITION. Copy.lean: the copy engine (R316 to R338): ring headers, taking and checking entries, moving elements, tile
delivery, completion and stops.
-/
namespace Sys2Proof.Machine

/-! ### Ring headers -/

/-- A field of word w of ring r's header (R317); 0 without a header area. -/
def State.hdr (s : State) (L T r w lo n : Nat) : Nat :=
  match s.ringArea L, s.team? L T with
  | some a, some t => fieldOf (t.readNum (a + 32 * r + 8 * w) 8) lo n
  | _, _ => 0

/-- Write a field of a ring header. -/
def State.setHdr (s : State) (L T r w lo n v : Nat) : State :=
  match s.ringArea L with
  | none => s
  | some a => s.modTeam L T (fun t => t.write (a + 32 * r + 8 * w) (bytesOf (putField (t.readNum (a + 32 * r + 8 * w) 8) lo n v) 8))

def State.notify (s : State) (L T r : Nat) : Nat := s.hdr L T r 0 0 32
def State.cons (s : State) (L T r : Nat) : Nat := s.hdr L T r 0 32 32
def State.done (s : State) (L T r : Nat) : Nat := s.hdr L T r 1 32 32

/-- STATE: 0 IDLE, 1 BUSY, 2 STOPPED. -/
def State.ringState (s : State) (L T r : Nat) : Nat := s.hdr L T r 1 30 2

/-- Distance from b to a among 32-bit indices. -/
def ahead (a b : Nat) : Nat := (a + 2 ^ 32 - b % 2 ^ 32) % 2 ^ 32

/-- Entries of a ring that have been taken. -/
def Copy.of (c : Copy) (L T r : Nat) : Bool := c.launch == L && c.team == T && c.ring == r

/-- Change a copy. -/
def State.modCopy (s : State) (i : Nat) (f : Copy → Copy) : State := { s with copies := updWhere (fun c => c.id == i) f s.copies }

/-! ### Stops -/

/-- A stop takes effect once every earlier entry in flight has completed (R320, R335, R336). (DEDUCED, log 33) -/
def State.finishStop (s : State) (L T r : Nat) : State :=
  match (s.team? L T).bind (fun t => t.stopping.find? (fun x => x.ring == r)) with
  | none => s
  | some x =>
    if s.copies.any (fun c => c.of L T r && !c.complete) then s
    else
      let a := (s.ringArea L).getD 0
      let s1 := (((((s.setHdr L T r 1 30 2 2).setHdr L T r 1 16 8 x.reason).setHdr L T r 1 0 16 x.fcode).setHdr L T r 2 32 32 x.index).setHdr
        L T r 3 0 64 x.addr)
      let s2 := s1.modTeam L T (fun t => { t with stopping := t.stopping.filter (fun y => !(y.ring == r)) })
      { s2 with copies := s2.copies.filter (fun c => !c.of L T r) }.raiseLaunch L T Code.copyFault Cls.async
        (2 ^ 63 + a + 32 * r) (BitVec.ofNat 32 (x.reason * 2 ^ 24 + x.fcode))

/-- Give up an entry in flight: its tile in progress returns to empty. -/
def State.dropCopy (s : State) (c : Copy) : State :=
  let s1 := match c.filling with
    | none => s
    | some n => s.modTile c.launch c.team n (fun x => { x with st := .empty, data := [] })
  { s1 with copies := s1.copies.filter (fun x => x.id != c.id) }

/-- The ring stops at an entry (R335): that entry and later ones in flight are given up, earlier ones run on.
(DEDUCED, log 33) -/
def State.ringFail (s : State) (L T r index reason fcode addr : Nat) : State :=
  let d := s.done L T r
  let first := ((s.team? L T).bind (fun t => t.stopping.find? (fun x => x.ring == r))).map (fun x => ahead x.index d)
  if (match first with
      | none => false
      | some n => decide (n ≤ ahead index d)) then s
  else
    let s1 := s.modTeam L T (fun t => { t with
      stopping := { ring := r, index := index, reason := reason, fcode := fcode, addr := addr } ::
        t.stopping.filter (fun x => !(x.ring == r)) })
    ((s1.copies.filter (fun c => c.of L T r && decide (ahead index d ≤ ahead c.index d))).foldl (fun s c => s.dropCopy c) s1).finishStop
      L T r

/-! ### Checks at take -/

/-- ENTRY (R335). -/
def Copy.entryFault (c : Copy) (size : Nat) : Option (Nat × Nat) :=
  if 2 < c.opc then some (3, 0)
  else if c.opc = 0 then none
  else if (c.opc = 1 ∧ 1 < c.ssp) ∨ c.bmode = 3 ∨ c.field 1 57 3 ≠ 0 ∨ c.field 2 52 8 ≠ 0 ∨ c.field 2 19 13 ≠ 0 ∨ c.field 3 20 44 ≠ 0
  then some (3, 0)
  else if (c.opc = 1 ∧ c.ssp = 1 ∧ 2 ^ 19 ≤ c.src) ∨ (c.dsp = 1 ∧ 2 ^ 19 ≤ c.dst) then some (3, Code.localRange)
  else if (c.dsp = 2 ∧ 8 ≤ c.dst) ∨ (c.dsp = 3 ∧ 2 ^ 32 ≤ c.dst) then some (3, 0)
  else if c.descAt % 32 ≠ 0 ∨ (c.baren ∧ c.bar % 32 ≠ 0) ∨ (c.bmen ∧ c.bmap % 8 ≠ 0) then some (3, Code.alignFault)
  else if size < c.descAt + 32 ∨ (c.baren ∧ size < c.bar + 32) ∨ (c.bmen ∧ size < c.bmap + 8) then some (3, Code.localRange)
  else none

/-- DESC and CONV (R326 to R330, R335), and the bounds of the descriptor and the bitmap. (DESIGN CHOICE, log 31) -/
def Copy.descFault (c : Copy) (size : Nat) : Option (Nat × Nat) :=
  if 1 ≤ c.rank ∧ c.rank ≤ 10 ∧ size < c.descAt + 32 + 32 * c.rank then some (3, Code.localRange)
  else if c.dfield 0 16 48 ≠ 0 ∨ c.dfield 2 0 64 ≠ 0 ∨ c.dfield 3 0 64 ≠ 0 ∨ c.rank = 0 ∨ 10 < c.rank ∨ (typeBits c.stype).isNone ∨
      ((c.conv = 3 ∨ c.conv = 4) ∧ (typeBits c.dtype).isNone) then some (4, 0)
  else if (List.range c.rank).any (fun k => decide (c.ext k = 0) || decide (c.box k = 0)) then some (4, 0)
  else if c.scaled ∧ (2 ^ 57 ≤ c.scb ∨ !(c.conv = 1 ∨ c.conv = 2) ∨ !(0x10 ≤ c.stype ∧ c.stype ≤ 0x14)) then some (4, 0)
  else if c.stype = 0x14 ∧ !c.scaled then some (4, 0)
  else if (c.srcBits = 4 ∨ c.dstBits = 4) ∧ (c.org 0 % 2 ≠ 0 ∨ c.box 0 % 2 ≠ 0) then some (4, 0)
  else if 2 ^ 32 ≤ c.len then some (4, 0)
  else if c.bmode = 0 ∧ (List.range c.rank).any (fun k => decide (c.org k < 0) || decide ((c.ext k : Int) < c.org k + c.box k)) then
    some (4, 0)
  else if (c.opc = 1 ∧ c.srcBits ≠ 4 ∧ c.misaligned c.src (c.srcBits / 8) c.sstr c.someCoords) ∨
      (c.dsp < 2 ∧ c.dstBits ≠ 4 ∧ c.misaligned c.dst (c.dstBits / 8) c.dstr c.someIndices) then some (4, Code.alignFault)
  else if 4 < c.conv ∨ ((c.conv = 1 ∨ c.conv = 2) ∧ !(0x10 ≤ c.stype ∧ c.stype ≤ 0x1B)) ∨
      ((c.conv = 3 ∨ c.conv = 4) ∧ (!(c.stype = 8 ∨ c.stype = 0x16) ∨ !(0x10 ≤ c.dtype ∧ c.dtype ≤ 0x16))) then some (5, 0)
  else if c.bmen ∧ size < c.bmap + c.mapBytes then some (3, Code.localRange)
  else none

/-- Every check of R335 that needs no page, with TILE and SLOT (R332): REASON and FCODE of the first that fails. -/
def State.copyFault (s : State) (t : Team) (c : Copy) : Option (Nat × Nat) :=
  let size := 256 * t.nloc
  match c.entryFault size with
  | some f => some f
  | none =>
    if c.opc = 0 then none
    else match c.descFault size with
      | some f => some f
      | none =>
        let nob := ((s.launch? c.launch).map (fun x => x.bits 3 32 32)).getD 0
        if c.dsp = 2 ∧ (t.nring ≤ c.dst ∨ !(t.ring c.dst).en) then some (6, 0)
        else if c.dsp = 3 ∧ nob < c.dst + (c.len + 8191) / 8192 then some (7, 0)
        else none

/-! ### Taking entries -/

/-- Sources that a publication of index i of ring r had not released (R318). -/
def Team.wildOf (t : Team) (r i : Nat) : List (Nat × Nat) :=
  (t.published.filter (fun p => decide (p.ring = r) && decide (ahead i p.first < ahead p.upto p.first))).flatMap (·.wild)

/-- The entry at index i, with its descriptor (R317, R319). -/
def State.readCopy (s : State) (t : Team) (r i : Nat) : Copy :=
  { t.copyAt r i with id := s.nextId, wild := t.wildOf r i, bad := t.changed.contains (r, i)
                      badMap := t.mapChanged.contains (r, i) }

/-- Take one entry (R319). (DESIGN CHOICE, log 31) -/
def State.takeCopy (s : State) (L T r : Nat) : State :=
  match s.team? L T with
  | none => s
  | some t =>
    let i := s.cons L T r
    let c := s.readCopy t r i
    match s.copyFault t c with
    | some (reason, fcode) => s.ringFail L T r i reason fcode 0
    | none => ({ s with nextId := s.nextId + 1, copies := s.copies ++ [c] } : State).setHdr L T r 0 32 32 ((i + 1) % 2 ^ 32)

/-- The ring is not stopped, nor about to be (R320). -/
def State.ringGoes (s : State) (L T r : Nat) : Bool :=
  match s.team? L T with
  | none => false
  | some t => decide (s.ringState L T r ≠ 2) && !t.stopping.any (fun x => x.ring == r)

/-- The ring may take entries: until the drain of its team (R319, R337). -/
def State.ringRuns (s : State) (L T r : Nat) : Bool :=
  s.ringGoes L T r && ((s.team? L T).map (fun t => decide (t.ctx = .run) || decide (t.ctx = .halting))).getD false

/-- Take entries in index order up to NOTIFY, four at most in flight (R319, R324). -/
def takeLoop (L T r : Nat) : Nat → State → State
  | 0, s => s
  | n + 1, s =>
    if s.ringRuns L T r && decide (s.cons L T r ≠ s.notify L T r) && decide (ahead (s.cons L T r) (s.done L T r) < 4) then
      takeLoop L T r n (s.takeCopy L T r)
    else s

/-- What is kept of a ring's publications and of its changed entries is over once the ring is idle. -/
def Team.forgetRing (t : Team) (r : Nat) : Team :=
  { t with
    published := t.published.filter (fun p => p.ring != r)
    changed := t.changed.filter (fun e => e.1 != r)
    mapChanged := t.mapChanged.filter (fun e => e.1 != r) }

/-- Of the changed entries of ring r only the `n` from index v on are kept: DONE has passed the others (R319, R321). -/
def Team.passed (t : Team) (r v n : Nat) : Team :=
  let keep := fun (e : Nat × Nat) => e.1 != r || decide (ahead e.2 v < n)
  { t with changed := t.changed.filter keep, mapChanged := t.mapChanged.filter keep }

/-- The check and the taking of R319, with the state they leave (R320). -/
def State.pumpRing (s : State) (L T r : Nat) : State :=
  if !s.ringGoes L T r then s
  else
    let log2n := (((s.team? L T).map (fun t => (t.latched.getD r (0, 0)).2)).getD 0)
    if 2 ^ log2n < ahead (s.notify L T r) (s.done L T r) then s.ringFail L T r (s.cons L T r) 8 0 0
    else
      let s1 := if s.notify L T r ≠ s.done L T r then s.setHdr L T r 1 30 2 1 else s
      let s2 := takeLoop L T r 4 s1
      if s2.ringGoes L T r && decide (s2.done L T r = s2.notify L T r) then
        (s2.setHdr L T r 1 30 2 0).modTeam L T (fun t => t.forgetRing r)
      else s2

/-- The engine latches W2 (R318); a geometry that R335 refuses stops the ring. -/
def State.latchRing (s : State) (L T r : Nat) : State :=
  let log2n := s.hdr L T r 2 24 4
  let base := s.hdr L T r 2 0 19
  let s1 := s.modTeam L T (fun t => { t with latched := setNth t.latched r (base, log2n) })
  let size := ((s.team? L T).map (fun t => 256 * t.nloc)).getD 0
  if 10 < log2n ∨ size < base + 32 * 2 ^ log2n then s1.ringFail L T r (s.cons L T r) 9 0 0 else s1

/-- The first write to a ring header that waits for the engine. -/
def State.ringWrite? (s : State) (L T r : Nat) : Option RingWrite :=
  match (s.team? L T).bind (fun t => t.ringWrites.head?) with
  | none => none
  | some w => if w.ring = r then some w else none

/-- It has been acted on. -/
def State.popRingWrite (s : State) (L T : Nat) : State := s.modTeam L T (fun t => { t with ringWrites := t.ringWrites.tail })

/-- COPY_NOTIFY (R318 to R320): subjects launch, team, ring. -/
def execCopyNotify (s : State) : Out :=
  let L := s.sub 0
  let T := s.sub 1
  let r := s.sub 2
  event s (match s.ringWrite? L T r with
    | none => none
    | some w =>
      if w.restart.isSome then none
      else
        let s1 := s.popRingWrite L T
        let fresh := decide (s.ringState L T r = 0) && decide (s.cons L T r = s.done L T r)
        some ((if fresh then s1.latchRing L T r else s1).pumpRing L T r).settle)

/-- RING_RESTART (R321): subjects launch, team, ring. -/
def execRingRestart (s : State) : Out :=
  let L := s.sub 0
  let T := s.sub 1
  let r := s.sub 2
  event s (match s.ringWrite? L T r with
    | none => none
    | some w =>
      match w.restart with
      | none => none
      | some v =>
        let s1 := s.popRingWrite L T
        if s.ringState L T r ≠ 2 ∨ ahead (s.notify L T r) (s.done L T r) < ahead v (s.done L T r) then some s1.settle
        else
          let s2 := ((((s1.setHdr L T r 0 32 32 v).setHdr L T r 1 32 32 v).setHdr L T r 1 16 8 0).setHdr L T r 1 0 16 0).setHdr
            L T r 1 30 2 0
          some (((s2.modTeam L T (fun t => t.passed r v (ahead (s.notify L T r) v))).latchRing L T r).pumpRing L T r).settle)

/-! ### Moving elements -/

/-- What reaching an element gives: a value, with whether it is unpredictable and the reads of memory made for it
(address at home, bytes, grain); a stop; or a page to wait for, and whether it is logged on the core. -/
inductive Reach (α : Type) where
  | ok (v : α) (bad : Bool) (reads : List (Nat × Nat × Nat))
  | stop (reason fcode addr : Nat)
  | wait (va : Nat) (onLog : Bool)

/-- Go on with what has been reached. -/
def Reach.andThen {α β : Type} (x : Reach α) (f : α → Reach β) : Reach β :=
  match x with
  | .stop r c a => .stop r c a
  | .wait va l => .wait va l
  | .ok v bad rs => match f v with
    | .stop r c a => .stop r c a
    | .wait va l => .wait va l
    | .ok w bad2 rs2 => .ok w (bad || bad2) (rs ++ rs2)

/-- An address as FADDR holds it. -/
def addrBits (a : Int) : Nat := (a % ((2 ^ 64 : Nat) : Int)).toNat

/-- The page of the bytes from `half` on of the element of n bytes at an address, checked as an access of the engines
(R326, R333). -/
def State.engineReach (s : State) (core L : Nat) (a : Int) (n half reason : Nat) (k : AccKind) : Reach Tr :=
  let va := a.toNat
  let at_ := va + half
  if a < 0 ∨ 2 ^ 57 < va + n then .stop reason Code.addrRange (addrBits a)
  else if va % n ≠ 0 then .stop reason Code.alignFault va
  else if (s.core core).logged L at_ then .wait at_ true
  else match s.engineLook (dieOfCore core) L at_ with
    | .present t => match s.pageFault t k at_ (dieOfCore core) with
      | some code => .stop reason code va
      | none => .ok t false []
    | _ => .wait at_ false

/-- Some of the bytes were not released before the publication (R318). (DESIGN CHOICE, log 31) -/
def Copy.early (c : Copy) (va n : Nat) : Bool := c.wild.any (fun w => decide (w.1 < va + n) && decide (va < w.1 + w.2))

/-- Read n bytes of the element of `size` bytes at a, from `half` on, in the source space; bytes of open ranges are
unpredictable (R209, R326, R333). -/
def State.copyRead (s : State) (t : Team) (c : Copy) (a : Int) (size half n : Nat) (local_ : Bool) : Reach (List Byte) :=
  if local_ then
    if a < 0 ∨ 256 * t.nloc < a.toNat + size then .stop 1 Code.localRange (addrBits a)
    else if a.toNat % size ≠ 0 then .stop 1 Code.alignFault a.toNat
    else .ok (t.read (a.toNat + half) n) false []
  else (s.engineReach t.core t.launch a size half 1 .load).andThen (fun tr =>
    let pa := tr.phys (a.toNat + half)
    .ok (s.maskOpen pa (c.id + half) (s.homeBytes pa n)) (c.early (a.toNat + half) n) [(pa, n, grainOf tr.leaf)])

/-- n bytes from `half` on of element i of the stream, converted (R325 to R330). A zero entry reads no source, but with SCALED
1 its scale bytes. (DESIGN CHOICE, log 31) -/
def State.copyElem (s : State) (t : Team) (c : Copy) (i half n : Nat) : Reach Nat :=
  match c.coord i with
  | none => .ok 0 false []
  | some xs =>
    let size := if c.srcBits = 4 then 1 else c.srcBits / 8
    (if c.opc = 2 then .ok [] false [] else s.copyRead t c (c.srcAddr xs) size half (min n size) (decide (c.ssp = 1))).andThen (fun bs =>
      let raw := numOf bs
      let e := if c.srcBits = 4 then (if xs.headD 0 % 2 = 1 then raw / 16 else raw % 16) else raw
      if c.scaled then (s.copyRead t c (c.scaleAddr xs) 1 0 1 false).andThen (fun sc => .ok (c.convert e (numOf sc)) false [])
      else .ok (c.convert e 0) false [])

/-- The bytes of unit u. (DEDUCED, log 32) -/
def State.copyUnit (s : State) (t : Team) (c : Copy) (u : Nat) : Reach (List Byte) :=
  if c.dstBits = 4 then
    (s.copyElem t c (2 * u) 0 8).andThen (fun lo => (s.copyElem t c (2 * u + 1) 0 8).andThen (fun hi =>
      .ok [BitVec.ofNat 8 (lo % 16 + 16 * (hi % 16))] false []))
  else (s.copyElem t c (c.elemOf u) (c.halfOf u) 8).andThen (fun v => .ok (bytesOf v c.unitBytes) false [])

/-- Operand-buffer bytes of a launch on a die (R261). -/
def Die.slots (x : Die) (L : Nat) : Cells Byte := ((x.obuf.find? (fun e => e.1 == L)).map (·.2)).getD []

/-- Write operand-buffer bytes. -/
def Die.putSlots (x : Die) (L off : Nat) (bs : List Byte) : Die :=
  { x with obuf := (L, (bs.zipIdx).foldl (fun m b => Cells.set 0 m (off + b.2) b.1) (x.slots L)) :: x.obuf.filter (fun e => !(e.1 == L)) }

/-- Write the bytes of unit u where they land (R326, R331, R333). -/
def State.copyWrite (s : State) (t : Team) (c : Copy) (u : Nat) (bs : List Byte) : Reach State :=
  let a := c.dstAddr u
  let size := c.dstBits / 8 + (if c.dstBits = 4 then 1 else 0)
  match c.dsp with
  | 0 => (s.engineReach t.core t.launch a size (c.halfOf u) 2 .store).andThen (fun tr =>
      .ok ((s.noteEngine (dieOfCore t.core) t.launch (.present tr)).homeWriteAll (tr.phys (a.toNat + c.halfOf u)) (grainOf tr.leaf) bs)
        false [])
  | 1 =>
    if a < 0 ∨ 256 * t.nloc < a.toNat + size then .stop 2 Code.localRange (addrBits a)
    else if a.toNat % size ≠ 0 then .stop 2 Code.alignFault a.toNat
    else .ok (s.landLocal t.launch t.idx (a.toNat + c.halfOf u) bs) false []
  | 2 => .ok (s.modCopy c.id (fun c => { c with buf := c.buf ++ bs })) false []
  | _ => .ok (s.modDie (dieOfCore t.core) (fun x => x.putSlots t.launch (8192 * c.dst + u * c.unitBytes) bs)) false []

/-- Set bits of the chunk bitmap (R334), with an OR on the 8-byte word of each, on which the copy engine acts where it holds a
NOTIFY word (R318). -/
def State.setBits (s : State) (c : Copy) (js : List Nat) : State :=
  if !c.bmen then s
  else js.foldl (fun s j =>
    let o := c.bmap + j / 8
    (s.modTeam c.launch c.team (fun t =>
      let old := Cells.get 0 t.loc o
      let bit := 1#8 <<< (j % 8)
      let new := if c.bad || c.badMap then (if (s.free (c.id + j)).getLsbD 0 then old ||| bit else old &&& ~~~bit) else old ||| bit
      t.write o [new])).ringTouch c.launch c.team (o / 8 * 8) 8) s

/-- Count at the entry's barrier: one event for each of the `events` units of `n` bytes (R331, R334). (DEDUCED, log 32) -/
def State.countLanded (s : State) (c : Copy) (events n : Nat) (mem : Bool) : State :=
  if !c.baren then s
  else if c.bad then s.barEvent c.launch c.team c.bar (.landed ((s.free (c.id + 1)).toNat % 2 ^ 32) mem)
  else (List.range events).foldl (fun s _ => s.barEvent c.launch c.team c.bar (.landed n mem)) s

/-- Every earlier entry of the ring has completed (R322). -/
def State.copyFirst (s : State) (c : Copy) : Bool :=
  let d := s.done c.launch c.team c.ring
  s.copies.all (fun x => !(x.of c.launch c.team c.ring && decide (ahead x.index d < ahead c.index d)) || x.complete)

/-- Earlier entries of the ring that feed the same tile ring have completed (R332). -/
def State.tileTurn (s : State) (c : Copy) : Bool :=
  let d := s.done c.launch c.team c.ring
  s.copies.all (fun x => !(x.of c.launch c.team c.ring && decide (ahead x.index d < ahead c.index d) &&
    decide (x.tileRing = c.tileRing)) || x.complete)

/-- The entry asks for the page it waits for (R241, R333). -/
def State.copyWait (s : State) (t : Team) (c : Copy) (va : Nat) (dst onLog : Bool) : State :=
  (s.engineRequestMap (dieOfCore t.core) t.launch va).modCopy c.id (fun c => { c with waits := some (va, dst), onLog := onLog })

/-- The entry waits: for the notice of the page it asked for, or until the page is no longer logged on its core (R242 to
R244, R333). (DEDUCED, log 32) -/
def State.copyWaits (s : State) (t : Team) (c : Copy) : Bool :=
  match c.waits with
  | none => false
  | some (va, _) => !c.onLog || (s.core t.core).logged c.launch va

/-- Move the next unit of an entry: none while it waits. -/
def State.moveUnit (s : State) (t : Team) (c : Copy) : Option State :=
  let u := c.pos
  if s.copyWaits t c then none
  else match s.copyUnit t c u with
  | .stop r f x => some (s.ringFail c.launch c.team c.ring c.index r f x)
  | .wait va onLog => some (s.copyWait t c va false onLog)
  | .ok bs bad reads =>
    let bytes := if bad || c.bad then s.freeBytes (c.id + u) bs.length else bs
    match s.copyWrite t c u bytes with
    | .stop r f x => some (s.ringFail c.launch c.team c.ring c.index r f x)
    | .wait va onLog => some (s.copyWait t c va true onLog)
    | .ok s1 _ _ =>
      -- what the home has missed it now fetches (R263)
      let s2 := (reads.foldl (fun s x => s.readFill x.1 x.2.1 x.2.2) s1).modCopy c.id (fun c => { c with
        pos := u + 1, waits := none, onLog := false })
      if c.dsp = 2 then some s2
      else
        let s3 := s2.countLanded c bs.length 1 (decide (c.dsp = 0))
        let last := (u + 1) * c.unitBytes
        let s4 := if last % 512 = 0 ∨ u + 1 = c.units then s3.setBits c [(last - 1) / 512] else s3
        if c.dsp = 3 ∧ u + 1 = c.units then
          some (s4.modDie (dieOfCore t.core) (fun x =>
            x.putSlots t.launch (8192 * c.dst + last) (List.replicate ((8192 - last % 8192) % 8192) 0)))
        else some s4

/-- The entry waits for its next tile now (R332, R347). -/
def State.wantsTile (s : State) (c : Copy) : Bool :=
  !c.complete && decide (c.dsp = 2) && decide (c.opc ≠ 0) && c.filling.isNone && decide (c.pos < c.units) &&
    !(c.fence && !s.copyFirst c) && s.tileTurn c

/-- The next tile of an entry: the tile at the producer pointer, once it is empty (R332). -/
def State.takeTile (s : State) (t : Team) (c : Copy) : Option State :=
  let r := t.ring c.dst
  if !r.en then some (s.ringFail c.launch c.team c.ring c.index 6 0 0)
  else
    let n := r.tileAt r.p
    if (t.tile n).st ≠ .empty then none
    else some ((s.modTile c.launch c.team n (fun x => { x with st := .filling })).modCopy c.id (fun c => { c with filling := some n }))

/-- COPY_LANDING (R325 to R335): subject the entry. Its next unit moves, or for a tile ring it takes its next tile. -/
def execCopyLanding (s : State) : Out :=
  event s (match s.copies.find? (fun c => c.id == s.sub 0) with
    | none => none
    | some c =>
      match s.team? c.launch c.team with
      | none => none
      | some t =>
        let runs := decide (t.ctx = .run) || decide (t.ctx = .halting) || (decide (t.ctx = .draining) && decide (c.dsp ≠ 2))
        if !runs || c.complete || decide (c.opc = 0) || (c.fence && !s.copyFirst c) || decide (c.units ≤ c.pos) then none
        else if c.dsp = 2 then
          if !s.tileTurn c then none
          else match c.filling with
            | none => (s.takeTile t c).map State.settle
            | some _ => if c.buf.length < 8192 then (s.moveUnit t c).map State.settle else none
        else (s.moveUnit t c).map State.settle)

/-- COPY_TILE_DELIVERY (R332): subject the entry. Its tile becomes ready, counts and sets its bits. -/
def execCopyTileDelivery (s : State) : Out :=
  event s (match s.copies.find? (fun c => c.id == s.sub 0) with
    | none => none
    | some c =>
      match c.filling with
      | none => none
      | some n =>
        if c.buf.length < 8192 ∧ c.pos < c.units then none
        else
          let s1 := s.modTeam c.launch c.team (fun t =>
            (t.modTile n (fun x => ({ x with st := .ready, data := [] } : Tile).write 0 c.buf)).modRing c.dst
              (fun r => { r with p := (r.p + 1) % 65536 }))
          let at_ := ((s.team? c.launch c.team).map (fun t => (t.ring c.dst).p)).getD 0
          let s2 := s1.modCopy c.id (fun c => { c with filling := none, buf := [], tiles := c.tiles + 1, given := at_ :: c.given })
          some ((s2.countLanded c 1 8192 false).setBits c ((List.range 16).map (fun j => 16 * c.tiles + j))).settle)

/-- DONE advances over the completed entries at the front of the ring (R324). -/
def advanceDone (L T r : Nat) : Nat → State → State
  | 0, s => s
  | n + 1, s =>
    match s.copies.find? (fun c => c.of L T r && c.complete && decide (c.index = s.done L T r)) with
    | none => s
    | some c => advanceDone L T r n
        ((({ s with copies := s.copies.filter (fun x => x.id != c.id) } : State).modTeam L T (fun t => t.passed r ((c.index + 1) % 2 ^ 32) (ahead (s.notify L T r) ((c.index + 1) % 2 ^ 32)))).setHdr
          L T r 1 32 32 ((c.index + 1) % 2 ^ 32))

/-- COPY_ENTRY_COMPLETE (R319, R320, R324): subject the entry. -/
def execCopyEntryComplete (s : State) : Out :=
  event s (match s.copies.find? (fun c => c.id == s.sub 0) with
    | none => none
    | some c =>
      if c.complete || (c.fence && !s.copyFirst c) || !(decide (c.opc = 0) || (decide (c.units ≤ c.pos) && c.filling.isNone)) then none
      else
        let s1 := advanceDone c.launch c.team c.ring 5 (s.modCopy c.id (fun c => { c with complete := true }))
        let s2 := s1.finishStop c.launch c.team c.ring
        some (s2.pumpRing c.launch c.team c.ring).settle)

/-! ### Entries changed too early -/

/-- What an entry had written when it was found changed too early: its bytes, its count and its bits (R319).
(DESIGN CHOICE, log 31) -/
def State.spoilEntry (s : State) (c : Copy) : State :=
  match s.team? c.launch c.team with
  | none => s
  | some t =>
    let s1 :=
      if c.dsp = 2 then
        let r := t.ring c.dst
        s.modTeam c.launch c.team (fun t => (c.given.filter (fun p =>
          decide ((p + 65536 - r.c) % 65536 < (r.p + 65536 - r.c) % 65536))).foldl (fun t p =>
            t.modTile (r.tileAt p) (fun x => x.write 0 (s.freeBytes (c.id + p) 8192))) t)
      else (List.range c.pos).foldl (fun (s : State) u =>
        match s.copyWrite t c u (s.freeBytes (c.id + u) c.unitBytes) with
        | .ok s1 _ _ => s1
        | _ => s) s
    let s2 := if c.baren ∧ (c.pos ≠ 0 ∧ c.dsp ≠ 2 ∨ c.tiles ≠ 0) then
        s1.modTeam c.launch c.team (fun t => t.write (c.bar + 8) (s.freeBytes (c.id + 1) 4))
      else s1
    if c.dsp = 2 then s2.setBits c (List.range (16 * c.tiles))
    else s2.setBits c (List.range (c.pos * c.unitBytes / 512))

/-- At the end of a step: entries found changed too early, and bitmaps written too early (R319, R334). -/
def State.spoilCopies (s : State) : State :=
  s.copies.foldl (fun s c =>
    let s1 := if c.bad && !c.spoilt && decide (c.opc ≠ 0) then s.spoilEntry c else s
    let s2 := if c.badMap && !c.mapSpoilt then s1.setBits c (List.range c.chunks) else s1
    if (c.bad && !c.spoilt) || (c.badMap && !c.mapSpoilt) then
      s2.modCopy c.id (fun c => { c with spoilt := c.bad, mapSpoilt := c.badMap })
    else s2) s

/-! ### CQRY -/

/-- The word of CQRY (R338). -/
def State.ringWord (s : State) (L T r : Nat) : Word :=
  match s.ringArea L with
  | none => 0xC0000000
  | some _ => BitVec.ofNat 32 (s.ringState L T r * 2 ^ 30 + min (ahead (s.cons L T r) (s.done L T r)) 4 * 2 ^ 27 +
      min (ahead (s.notify L T r) (s.cons L T r)) 2047 * 2 ^ 16 + s.hdr L T r 1 16 8 * 256 + s.hdr L T r 1 0 8)

/-- CQRY (R338). -/
def execCqry (d y i : BitVec 7) (u : Bool) (s : State) : Out :=
  alu (.cqry d y i u) u d (fun e => [e.s.ringWord e.l.launch e.l.team i.toNat]) s

end Sys2Proof.Machine
end

