-- ==== Sys2Proof/Machine/Tiles.lean ====
section
/-!
DEFINITION. Tiles.lean: the tile instructions of the matrix engine: shapes, elements, moving tiles, rings and MMAQ
(R339 to R348, R358 to R365).
-/
namespace Sys2Proof.Machine

/-! ### Checks -/

/-- The team of a thread. -/
def Thr.team (e : Thr) : Team := (e.s.team? e.l.launch e.l.team).getD { launch := 0, idx := 0, core := 0, ngrp := 0, t := 0 }

/-- The tile exists (R339). -/
def chkTile (n : BitVec 7) : Thr → Option Trap := failIf (fun e => decide (e.team.ntile ≤ n.toNat)) Code.tileState (fun _ => 0)

/-- The tile is standalone (R343). -/
def chkAlone (n : BitVec 7) : Thr → Option Trap := failIf (fun e => e.team.member n.toNat) Code.tileState (fun _ => 0)

/-- A TILE_STATE check. -/
def chkTileIf (bad : Thr → Bool) : Thr → Option Trap := failIf bad Code.tileState (fun _ => 0)

/-! ### Shapes and elements -/

/-- MOVTS (R340, R362): ascending threads, so the highest-numbered one's shape stands. -/
def execMovts (d a z : BitVec 7) (u : Bool) (s : State) : Out :=
  runWord (.movts d a z u)
    (fun s l g => firstFail s l g u [chkTile d, chkAlone d, chkTileIf (fun e => !shapeOk (e.v32 a))])
    (fun s l g =>
      ((l.execThreads u).foldl (fun s1 t =>
        s1.modTile l.launch l.team d.toNat (fun x => { x with shape := (thr s l g t).v32 a })) s).breach l.launch l.team
          (fun m => m.readsTile d.toNat)) s

/-- MOVST (R362). -/
def execMovst (d a z : BitVec 7) (u : Bool) (s : State) : Out :=
  runWord (.movst d a z u) (fun s l g => firstFail s l g u [chkTile a])
    (fun s l g => s.putResults l g u d (fun e => [(e.team.tile a.toNat).shape])) s

/-- TZERO (R362). -/
def execTzero (d y z : BitVec 7) (u : Bool) (s : State) : Out :=
  runWord (.tzero d y z u) (fun s l g => firstFail s l g u [chkTile d, chkAlone d])
    (fun s l _ => (s.modTile l.launch l.team d.toNat (fun x => { x with data := [] })).touchTile l.launch l.team d.toNat) s

/-- The index of an element lies outside the tile (R362). -/
def Thr.pastTile (e : Thr) (tile b : BitVec 7) : Bool :=
  let w := (e.team.tile tile.toNat).shape
  decide (shapeRows w * shapeCols w ≤ (e.y.v32 b).toNat)

/-- TWR (R362). -/
def execTwr (d a b : BitVec 7) (u : Bool) (s : State) : Out :=
  runWord (.twr d a b u)
    (fun s l g => firstFail s l g u [chkTile d, chkAlone d, chkTileIf (fun e => e.pastTile d b)])
    (fun s l g =>
      let put := fun (s1 : State) (t : Nat) =>
        let e := thr s l g t
        let x := e.team.tile d.toNat
        let n := shapeElt x.shape
        let v := if n = 8 then e.v64 a else (e.v32 a).setWidth 64
        s1.modTile l.launch l.team d.toNat (fun x => x.write ((e.y.v32 b).toNat * n) (bytesOf v.toNat n))
      ((l.execThreads u).foldl put s).touchTile l.launch l.team d.toNat) s

/-- What TRD reads: an unpredictable value where the tile is not ready, as after a TLD in the same clause (R101). -/
def Thr.tileElem (e : Thr) (tile b : BitVec 7) : List Word :=
  let x := e.team.tile tile.toNat
  let i := (e.y.v32 b).toNat
  let v : DWord := if x.st = .ready then BitVec.ofNat 64 (x.elem i)
    else e.s.free (64 * i + e.t) &&& BitVec.ofNat 64 (2 ^ (8 * shapeElt x.shape) - 1)
  if shapeElt x.shape = 8 then pair v else [v.setWidth 32]

/-- TRD (R362). -/
def execTrd (d a b : BitVec 7) (u : Bool) (s : State) : Out :=
  runWord (.trd d a b u)
    (fun s l g => firstFail s l g u [chkTile a, chkTileIf (fun e => e.pastTile a b)])
    (fun s l g => s.putResults l g u d (fun e => e.tileElem a b)) s

/-! ### Moving tiles -/

/-- A run of bytes as accesses of at most 32 bytes, none of which crosses a sector (R361); `opnd` is the offset in the
run. (DESIGN CHOICE, log 34) -/
def sectorAccs (thread va n : Nat) (data : List Byte) : List Access :=
  (List.range ((n + 31) / 32)).map (fun k =>
    { id := 0, thread := thread, va := va + 32 * k, len := min 32 (n - 32 * k), data := (data.drop (32 * k)).take 32, opnd := 32 * k })

/-- The checks of R361 on n bytes at v[A], after those on the tile or slot. -/
def blockChecks (u : Bool) (a : BitVec 7) (n : Thr → Nat) (k : AccKind) (first : List (Thr → Option Trap)) (s : State) (l : Lane)
    (g : Group) : Option Trap :=
  let adr := fun (e : Thr) => e.adr a
  firstFail s l g u (first ++ [chkSpan adr n, chkMod (fun e => decide (adr e % 32 ≠ 0)) adr] ++ chkPages adr n (fun _ => false) k)

/-- The accesses of each executing thread, in ascending thread order. (DESIGN CHOICE, log 34) -/
def blockAccs (s : State) (l : Lane) (g : Group) (u : Bool) (a : BitVec 7) (n : Nat) (data : List Byte) : List Access :=
  (l.execThreads u).flatMap (fun t => sectorAccs t ((thr s l g t).adr a) n data)

/-- A tile takes a load (R343, R361). -/
def State.fillTile (s : State) (L T n : Nat) : State :=
  (s.modTile L T n (fun x => { x with st := .filling, loads := x.loads + 1 })).touchTile L T n

/-- TLD (R361). -/
def execTld (d a z : BitVec 7) (u : Bool) (s : State) : Out :=
  let size := fun (e : Thr) => shapeSize (e.team.tile d.toNat).shape
  runWord (.tld d a z u) (blockChecks u a size .load [chkTile d, chkAlone d])
    (fun s l g =>
      (s.startMem l { l.start s (.tld d.toNat) u with srcs := srcOf g a 2 } false
        (blockAccs s l g u a (size (thr s l g l.lowest)) [])).fillTile l.launch l.team d.toNat) s

/-- TLD.ob (R361): the slot is read when the operation completes. -/
def execTldOb (d a z : BitVec 7) (u : Bool) (s : State) : Out :=
  runWord (.tldOb d a z u)
    (fun s l g => firstFail s l g u
      [ chkTile d, chkAlone d,
        failIf (fun e => decide (((e.s.launch? e.l.launch).map (fun x => x.bits 3 32 32)).getD 0 ≤ (e.v32 a).toNat)) Code.accessFault
          (fun e => (e.v32 a).toNat) ])
    (fun s l g =>
      ({ s with
        nextId := s.nextId + 1
        ops := s.ops ++ [{ l.start s (.tldOb d.toNat) u with
          srcs := srcOf g a 1
          accs := accessesOf s l g u (fun e =>
            { id := 0, thread := 0, va := (e.v32 a).toNat, len := shapeSize (e.team.tile d.toNat).shape, st := .sent }) }] } : State).fillTile
        l.launch l.team d.toNat) s

/-- TST (R361): the tile's bytes are taken now; where it is not ready they are unpredictable (R101). -/
def execTst (d a z : BitVec 7) (u : Bool) (s : State) : Out :=
  let size := fun (e : Thr) => shapeSize (e.team.tile d.toNat).shape
  runWord (.tst d a z u) (blockChecks u a size .store [chkTile d])
    (fun s l g =>
      let e := thr s l g l.lowest
      let x := e.team.tile d.toNat
      let bytes := if x.st = .ready then x.read 0 (size e) else s.freeBytes d.toNat (size e)
      (s.modTile l.launch l.team d.toNat (fun x => { x with readers := x.readers + 1 })).startMem l
        { l.start s (.tst d.toNat) u with srcs := srcOf g a 2 } false (blockAccs s l g u a (size e) bytes)) s

/-- LDMETA (R358, R361): it breaks R355 for a sparse operation whose metadata area holds the slot. -/
def execLdmeta (d a z : BitVec 7) (u : Bool) (s : State) : Out :=
  runWord (.ldmeta d a z u)
    (blockChecks u a (fun _ => 2048) .load [chkTileIf (fun e => decide (e.team.nmeta ≤ d.toNat))])
    (fun s l g =>
      (s.startMem l { l.start s (.ldmeta d.toNat) u with srcs := srcOf g a 2 } false (blockAccs s l g u a 2048 [])).breach
        l.launch l.team (fun m => m.sparse && decide (m.mslot ≤ d.toNat))) s

/-! ### Rings -/

/-- The descriptor's reserved bits are zero (R345). -/
def ringDescOk (w : Word) : Bool := decide (w.toNat / 2 ^ 10 % 2 ^ 21 = 0)

/-- R347 refuses the descriptor. (DEDUCED, log 23) -/
def Thr.tringBad (e : Thr) (n : Nat) (w : Word) : Bool :=
  let t := e.team
  let now := t.ring n
  let new : Ring := { desc := w }
  let mine := fun (c : Copy) => c.launch == e.l.launch && c.team == e.l.team && decide (c.tileRing = some n) && !c.complete
  if decide (t.nring ≤ n) || !ringDescOk w then true
  else if new.en then
    now.en || new.members.any (fun k => decide (t.ntile ≤ k) || decide ((t.tile k).st = .filling) || t.member k) ||
      e.s.copies.any mine
  else
    now.en && (now.members.any (fun k => decide ((t.tile k).st = .filling) || decide ((t.tile k).st = .draining)) ||
      e.s.mmas.any (fun m => m.launch == e.l.launch && m.team == e.l.team && m.readsRing n))

/-- Enable or disable a ring (R343, R347). -/
def State.setRing (s : State) (L T n : Nat) (w : Word) : State :=
  let new : Ring := { desc := w }
  match s.team? L T with
  | none => s
  | some t =>
    if new.en then
      s.modTeam L T (fun t =>
        (new.members.foldl (fun t k => t.modTile k (fun x => { x with st := .empty, data := [] })) t).modRing n (fun _ => new))
    else if (t.ring n).en then
      let s1 := s.modTeam L T (fun t =>
        ((t.ring n).members.foldl (fun t k => t.modTile k (fun x =>
          if x.st = .empty then { x with st := .ready, data := [] } else x)) t).modRing n (fun _ => new))
      -- entries that wait for a tile of the ring stop (R347)
      (s1.copies.filter (fun c => c.launch == L && c.team == T && decide (c.tileRing = some n) && s1.wantsTile c)).foldl
        (fun s c => if s.copies.any (fun x => x.id == c.id) then s.ringFail L T c.ring c.index 6 0 0 else s) s1
    else s

/-- TRING (R347, R363): once per clause, from the lowest-numbered issuing thread. -/
def execTring (d a z : BitVec 7) (u : Bool) (s : State) : Out :=
  runWord (.tring d a z u)
    (fun s l g => firstFail s l g true [chkTileIf (fun e => e.tringBad d.toNat (e.v32 a))])
    (fun s l g => s.setRing l.launch l.team d.toNat ((thr s l g l.lowest).v32 a)) s

/-- TREL (R348, R355, R363). -/
def execTrel (d y z : BitVec 7) (u : Bool) (s : State) : Out :=
  runWord (.trel d y z u)
    (fun s l g => firstFail s l g true [chkTileIf (fun e =>
      decide (e.team.nring ≤ d.toNat) || !(e.team.ring d.toNat).en || decide ((e.team.ring d.toNat).fill = 0))])
    (fun s l g =>
      let c := ((thr s l g l.lowest).team.ring d.toNat).c
      (s.breach l.launch l.team (fun m => m.owes d.toNat c)).modTeam l.launch l.team (fun t => t.release d.toNat)) s

/-! ### Status -/

/-- The word of MMAQ (R365). INFL counts an operation of an instruction by several threads until the instruction's flag
falls. (DEDUCED, log 80) -/
def Thr.mmaWord (e : Thr) : Word :=
  let k := e.s.core e.l.core
  let n := (e.s.mmas.filter (fun m => m.launch == e.l.launch && m.team == e.l.team && m.gnum == e.l.gnum && m.issued)).length
  BitVec.ofNat 32 (e.team.gstall % 65536 * 65536 + k.kcap.toNat * 256 +
    (if (e.s.die (dieOfCore e.l.core)).sag then 128 else 0) + min n 15)

/-- MMAQ (R365). -/
def execMmaq (d y z : BitVec 7) (u : Bool) (s : State) : Out := alu (.mmaq d y z u) u d (fun e => [e.mmaWord]) s

end Sys2Proof.Machine
end

