-- ==== Sys2Proof/Machine/FabOps.lean ====
section
/-!
DEFINITION. FabOps.lean: the fabric instruction words (R379 to R385, R394, R398).
-/
namespace Sys2Proof.Machine

/-! ### The descriptor -/

/-- Bytes for each destination (R380, R384, R385). -/
def FabOp.size (f : FabOp) : Nat :=
  match f.kind with
  | .put | .putn | .get => 32 * (f.f1 53 11 + 1)
  | .mput => 32 * (f.f1 45 11 + 1)
  | .rred => f.elt * (f.f1 14 12 + 1)
  | .ratom => f.elt

/-- The destination islands, ascending. -/
def FabOp.islands (f : FabOp) : List Nat :=
  match f.kind with
  | .mput => (List.range 30).filter (fun i => f.w1.getLsbD i)
  | .ratom => [f.f0 57 5]
  | _ => [f.f0 53 5]

/-- The island of a lane. -/
def Lane.isl (l : Lane) : Nat := l.core / 256 % 32

/-- The operation that a thread issues, from its descriptor and its barrier register (R379, R380). -/
def Thr.fabOp (e : Thr) (kind : FabKind) (d a : BitVec 7) (order o ty : Nat) : FabOp :=
  let ws := e.z.vN 4 d
  let f : FabOp :=
    { id := 0, op := 0, launch := e.l.launch, team := e.l.team, gnum := e.l.gnum, thread := e.t, kind := kind
      w0 := ws.getD 1 0 ++ ws.getD 0 0, w1 := ws.getD 3 0 ++ ws.getD 2 0
      bar := if kind = .ratom ∨ kind = .rred then 0xFFFFFFFF else (e.v32 a).toNat
      order := order, o := o, ty := ty, len := 0 }
  { f with len := f.size }

/-! ### Checks of R381 -/

/-- Step 1: a must-be-zero field is not zero, IMASK is zero, or a PUTN has no notify counters. -/
def FabOp.fieldsBad (f : FabOp) (counters : Bool) : Bool :=
  match f.kind with
  | .ratom => decide (f.f1 32 32 ≠ 0)
  | _ =>
    (decide (f.kind ≠ .putn) && decide (f.f0 60 4 ≠ 0)) || (f.peer && decide (f.f0 14 38 ≠ 0)) ||
    match f.kind with
    | .mput => decide (f.f0 53 5 ≠ 0) || decide (f.f1 56 8 ≠ 0) || decide (f.f1 30 1 ≠ 0) || decide (f.f1 0 30 = 0)
    | .rred => f.peer || decide (f.f1 50 14 ≠ 0)
    | .putn => (f.local_ && decide (f.f1 14 38 ≠ 0)) || !counters
    | _ => f.local_ && decide (f.f1 14 38 ≠ 0)

/-- The launch has notify counters (R382). -/
def Thr.counters (e : Thr) : Bool := ((e.s.launch? e.l.launch).map (fun x => decide (x.bits 4 0 64 ≠ 2 ^ 64 - 1))).getD false

/-- Step 2: a destination that this island cannot reach. -/
def Thr.unreachable (e : Thr) (f : FabOp) : Bool :=
  f.islands.any (fun i => decide (30 ≤ i) || !e.s.islMask.getLsbD i || decide ((e.s.route e.l.isl i).1 = 0))

/-- Step 3: a peer's local store that the operation may not name. -/
def Thr.peerBad (e : Thr) (f : FabOp) : Bool :=
  let x := e.s.launch? e.l.launch
  let gisl := (x.map (·.gangIslands)).getD 0
  f.peer && (!((x.map (fun x => decide (x.bits 2 52 1 = 1))).getD false) || f.islands.any (fun i => !gisl.getLsbD i) ||
    decide (256 * e.team.nloc < f.raddr + f.len))

/-- Bytes of local store that the operation uses. -/
def FabOp.localLen (f : FabOp) : Nat := if f.kind = .ratom then 32 + f.elt else f.len

/-- Step 4: R194 with DIEB 0 on the local-store side. -/
def Thr.localBad (e : Thr) (f : FabOp) : Bool :=
  f.local_ && (decide (2 ^ 19 ≤ f.laddr) || decide (256 * e.team.nloc < f.laddr + f.localLen))

/-- Step 7: the barrier register names a barrier. -/
def FabOp.names (f : FabOp) : Bool := decide (f.bar ≠ 0xFFFFFFFF)

/-- The checks of R381, in order. -/
def fabChecks (u : Bool) (op : Thr → FabOp) (s : State) (l : Lane) (g : Group) : Option Trap :=
  let mem := fun (e : Thr) => (op e).local_
  let adr := fun (e : Thr) => (op e).laddr
  let len := fun (e : Thr) => (op e).len
  let kind := fun (e : Thr) => (op e).kind
  let rd := fun (e : Thr) => (op e).raddr
  let skipIf := fun (skip : Thr → Bool) (c : Thr → Option Trap) (e : Thr) => if skip e then none else c e
  firstFail s l g u (
    [ failIf (fun e => (op e).fieldsBad e.counters) Code.addrRange rd,
      failIf (fun e => e.unreachable (op e)) Code.islandAbsent rd,
      failIf (fun e => e.peerBad (op e)) Code.localRange rd,
      failIf (fun e => e.localBad (op e)) Code.localRange adr,
      chkMod (fun e => decide (kind e = .ratom) && decide (adr e % 16 ≠ 0)) adr,
      skipIf mem (chkSpan adr len) ] ++
    chkPages adr len (fun e => mem e || decide (kind e = .get)) .load ++
    chkPages adr len (fun e => mem e || decide (kind e ≠ .get)) .store ++
    [ chkMod (fun e => decide (kind e = .ratom) && decide (rd e % (op e).elt ≠ 0)) rd,
      failIf (fun e => (op e).names && (match e.s.team? e.l.launch e.l.team with
        | none => true
        | some t => (e.s.localTarget t (op e).bar 1).isNone || decide ((op e).bar / 2 ^ 19 % 2 = 1))) Code.localRange
        (fun e => (op e).bar),
      chkMod (fun e => (op e).names && decide ((op e).bar % 32 ≠ 0)) (fun e => (op e).bar) ])

/-! ### Issue -/

/-- An operation is cut at the 512-byte boundaries of its remote address (R374): offset and length of each packet. -/
def cuts (va n : Nat) : List (Nat × Nat) :=
  (List.range ((va + n - 1) / 512 + 1 - va / 512)).map (fun k =>
    let lo := max va (512 * (va / 512 + k))
    let hi := min (va + n) (512 * (va / 512 + k + 1))
    (lo - va, hi - lo))

/-- The packets of an operation to one island, taking the stream's numbers where it belongs to one (R374, R386). -/
def State.sendPackets (s : State) (f : FabOp) (d isl : Nat) : State :=
  let ps := cuts f.raddr f.len
  let q := ((s.group? f.launch f.team f.gnum).map (fun g => g.fseq.getD isl 0)).getD 0
  let packets := ps.zipIdx.map (fun x =>
    ({ id := s.nextId + x.2, fab := f.id, src := d / 2, dst := isl, at_ := d / 2
       seq := if f.streamed then some ((q + x.2) % 65536) else none
       off := x.1.1, len := x.1.2, die := d, incar := (s.die d).incar } : Packet))
  let s1 : State := { s with nextId := s.nextId + ps.length, packets := s.packets ++ packets }
  if f.streamed then s1.modGroup f.launch f.team f.gnum (fun g => { g with fseq := setNth g.fseq isl ((q + ps.length) % 65536) })
  else s1

/-- One thread's operation is in flight. -/
def State.addFab (s : State) (l : Lane) (f : FabOp) : State :=
  let n := (cuts f.raddr f.len).length
  let left := if f.kind = .rred then f.len / f.elt else n
  let f1 : FabOp := { f with id := s.nextId, dests := f.islands.map (fun i => { isl := i, left := left }) }
  let s1 : State := { s with nextId := s.nextId + 1, fabs := s.fabs ++ [f1] }
  f1.islands.foldl (fun s i => s.sendPackets f1 (dieOfCore l.core) i) s1

/-- The accesses that read a thread's source (R383). (DESIGN CHOICE, log 34) -/
def FabOp.srcAccs (f : FabOp) : List Access :=
  match f.kind with
  | .get => []
  | .ratom => [{ id := 0, thread := f.thread, va := f.laddr, len := 16 + f.elt, st := .served }]
  | _ =>
    if f.local_ then [{ id := 0, thread := f.thread, va := f.laddr, len := f.len, st := .served }]
    else sectorAccs f.thread f.laddr f.len []

/-- Issue the operations of a fabric instruction, in ascending thread order (R382, R383). -/
def State.startFabric (s : State) (l : Lane) (g : Group) (u : Bool) (op : Thr → FabOp) (o : Op) : State :=
  let fs := (l.execThreads u).map (fun t => op (thr s l g t))
  let accs := fs.flatMap FabOp.srcAccs
  let inLocal := fs.any (fun f => f.local_ && decide (f.kind ≠ .get))
  let s1 :=
    if inLocal then
      -- threads may differ in where their sources are
      let s2 := s.startMem l o false (accs.filter (fun a => decide (a.st ≠ .served)))
      let loc := numbered s2.nextId (accs.filter (fun a => decide (a.st = .served)))
      let es := loc.map (fun a => ({ id := a.id, addr := a.va, kind := .load o.id a.id, after := o.id } : LocalAcc))
      ({ s2 with nextId := s2.nextId + loc.length }.modOp o.id (fun p => { p with accs := p.accs ++ loc })).modGroup l.launch l.team
        l.gnum (fun g => { g with stream := g.stream ++ es })
    else s.startMem l o false accs
  let s3 := s1.modOp o.id (fun p => { p with island := true })
  (fs.foldl (fun s f => s.addFab l { f with op := o.id }) s3).drainLocal l.launch l.team l.gnum false

/-- A fabric instruction (R381 to R385). -/
def fabWord (i : Instr) (kind : FabKind) (d a : BitVec 7) (order o ty : Nat) (u : Bool) (s : State) : Out :=
  let op := fun (e : Thr) => e.fabOp kind d a order o ty
  let bars := fun (g : Group) => if kind = .ratom ∨ kind = .rred then [] else srcOf g a 1
  runWord i (fabChecks u op)
    (fun s l g => s.startFabric l g u op
      { l.start s .fabric u with
        srcs := srcOf g d 4 ++ bars g, rel := decide (order = 2), dst := if kind = .ratom then dstOf g d 2 else none }) s

/-- PUT (R382). -/
def execPut (d a : BitVec 7) (o : BitVec 2) (u : Bool) (s : State) : Out := fabWord (.put d a o u) .put d a o.toNat 0 0 u s

/-- PUTN (R382). -/
def execPutn (d a : BitVec 7) (o : BitVec 2) (u : Bool) (s : State) : Out := fabWord (.putn d a o u) .putn d a o.toNat 0 0 u s

/-- GET (R382). -/
def execGet (d a : BitVec 7) (o : BitVec 2) (u : Bool) (s : State) : Out := fabWord (.get d a o u) .get d a o.toNat 0 0 u s

/-- MPUT (R382). -/
def execMput (d a : BitVec 7) (o : BitVec 2) (u : Bool) (s : State) : Out := fabWord (.mput d a o u) .mput d a o.toNat 0 0 u s

/-- RATOM (R384): always of its stream. -/
def execRatom (d y : BitVec 7) (t : BitVec 3) (o : BitVec 4) (u : Bool) (s : State) : Out :=
  fabWord (.ratom d y t o u) .ratom d y 0 o.toNat t.toNat u s

/-- RRED (R385). -/
def execRred (d y : BitVec 7) (o w u : Bool) (s : State) : Out :=
  fabWord (.rred d y o w u) .rred d y o.toNat 0 w.toNat u s

/-! ### GBARV and FQRY -/

/-- GBARV: once per clause, from the lowest-numbered issuing thread; the lane is not held (R394). -/
def execGbarv (x a z : BitVec 7) (u : Bool) (s : State) : Out :=
  runWord (.gbarv x a z u) (barChecks true false a) (fun s l g =>
    { s with
      nextId := s.nextId + 1
      gangQ := s.gangQ ++ [{ id := s.nextId, launch := l.launch, team := l.team, gnum := l.gnum
                             addr := (thr s l g l.lowest).ladr a, before := s.nextId }] }) s

/-- The link of an island's receiver on a plane (R391). -/
def State.link (s : State) (isl p : Nat) : Link := s.links.getD (32 * isl + p) {}

/-- Planes whose link toward an island is in one of some states. -/
def State.planesIn (s : State) (isl : Nat) (ok : LinkSt → Bool) : Word := maskOf ((List.range 32).filter (fun p => ok (s.link isl p).st))

/-- An item of FQRY (R398). -/
def fqryValue (s : State) (l : Lane) (item : Nat) : Word :=
  if item = 0 then BitVec.ofNat 32 l.isl
  else if item = 1 then s.planesIn l.isl (fun x => decide (x = .pam4))
  else if item = 2 then s.planesIn l.isl (fun x => decide (x = .step) || decide (x = .two) || decide (x = .probe))
  else if item = 3 then s.planesIn l.isl (fun x => decide (x = .req) || decide (x = .retrain) || decide (x = .down))
  else if item = 4 then 1000000
  else if item = 5 then 200
  else if item = 6 then BitVec.ofNat 32 (s.fabricTime % 1000000)
  else if item = 7 then BitVec.ofNat 32 (s.fabricTime / 25)
  else if item < 0x30 then BitVec.ofNat 32 (31250 * (item - 0x10))
  else if item < 0x4E then s.topo.getD (30 * l.isl + (item - 0x30)) 0
  else BitVec.ofNat 32 (min (s.fabs.filter (fun f =>
    f.launch == l.launch && f.team == l.team && f.gnum == l.gnum && !f.over s)).length 0xFFFFFFFF)

/-- FQRY (R398). -/
def execFqry (d y i : BitVec 7) (u : Bool) (s : State) : Out :=
  alu (.fqry d y i u) u d (fun e => [fqryValue e.s e.l i.toNat]) s

end Sys2Proof.Machine
end

