-- ==== Sys2Proof/Machine/FabSteps.lean ====
section
/-!
DEFINITION. FabSteps.lean: the events of the panel: slots, packets, arrivals, gang barriers, links, time marks (R156,
R372 to R378, R386 to R394), and the release step, which a `.rel` fabric operation shares (R200, R382).
-/
namespace Sys2Proof.Machine

/-! ### Releases -/

/-- RELEASE_PERFORM (R200, R208, R382, R438): subject the releasing operation, its store-queue entry's operation, or the entry
of a local-store stream. -/
def execReleasePerform (s : State) : Out :=
  let i := s.sub 0
  event s (
    match s.ops.find? (fun o => o.id == i && o.rel && !o.relDone) with
    | some o =>
      if s.relReady (s.coreOf o.launch o.team) o.launch o.team o.gnum o.id (if o.island then 2 else 1) &&
          (decide (o.kind ≠ .fabric) || s.fabAcked o.launch o.team o.gnum o.id) then
        some ((s.modOp i (fun o => { o with relDone := true })).modGroup o.launch o.team o.gnum (fun g => { g with
          sq := updWhere (fun e => e.op == i) (fun e => { e with relScope := 0 }) g.sq })).settle
      else none
    | none =>
      match s.groups.find? (fun g => g.sq.any (fun e => e.op == i && decide (e.relScope ≠ 0))) with
      | some g =>
        let sc := ((g.sq.filter (fun e => e.op == i)).map (·.relScope)).foldl max 0
        if s.relReady (s.coreOf g.launch g.team) g.launch g.team g.gnum i sc then
          some (s.modGroup g.launch g.team g.gnum (fun g => { g with
            sq := updWhere (fun e => e.op == i) (fun e => { e with relScope := 0 }) g.sq })).settle
        else none
      | none =>
        match s.groups.find? (fun g => g.stream.any (fun e => e.id == i && e.rel)) with
        | none => none
        | some g =>
          let t := s.drainLocal g.launch g.team g.gnum false
          if ((t.group? g.launch g.team g.gnum).map (fun h => h.stream.any (fun e => e.id == i))).getD true then none
          else some t.settle)

/-! ### Slots -/

/-- Slot t meets the blackout of plane p (R391). (DEDUCED, log 38) -/
def slotBlack (t p : Nat) : Bool :=
  let lo := 25 * t + 1000000 - 31250 * p
  -- the slot [25t, 25t+25) meets [1000000j + 31250p, +200) for some j
  decide (lo % 1000000 < 200) || decide (1000000 - 25 < lo % 1000000)

/-- Beats that a slot carries toward a link (R374, R392). -/
def Link.beats (k : Link) (time : Nat) : Nat :=
  let pam := fun (x : LinkSt) => decide (x = .pam4) || decide (x = .step)
  match k.st with
  | .pam4 => if k.was = .probe ∧ time < k.since + 200 then 17 else 35
  | .step => 35
  | .two => 17
  | .probe => 17
  | .req => if pam k.was then 35 else 17
  | .retrain => 0
  | .down => 0

/-- Beats of a packet: a header and its data (R374). -/
def Packet.beats (p : Packet) (f : FabOp) : Nat :=
  let data := if p.resp then p.data.length else if f.kind = .get ∨ f.kind = .ratom then 0 else p.len
  1 + (data + 31) / 32

/-- Where a packet that waits goes next, if a route leads there: at its source by the topology table unless it has been
sent, at a relay to its destination (R376 to R378). -/
def State.hop (s : State) (p : Packet) : Option Nat :=
  if p.src = p.dst then none
  else if p.at_ ≠ p.src then some p.dst
  else if p.tries ≠ 0 then some p.next
  else
    let r := s.route p.src p.dst
    if r.1 = 1 then some p.dst else if r.1 = 2 then some r.2 else none

/-- Packets of the same stream that have left and are not acknowledged (R386). (DEDUCED, log 36) -/
def State.unacked (s : State) (p : Packet) (f : FabOp) : Nat :=
  (s.packets.filter (fun q => !q.resp && q.seq.isSome && decide (q.dst = p.dst) && decide (q.tries ≠ 0) && !q.acked &&
    (s.fab? q.fab).any (fun g => g.launch == f.launch && g.team == f.team && g.gnum == f.gnum))).length

/-- A packet may leave: its die has not been fenced (R429), its bytes have been read, and its stream's numbers are not
ambiguous (R383, R386). -/
def State.mayLeave (s : State) (p : Packet) (f : FabOp) : Bool :=
  decide (p.st = .waiting) && (decide (p.at_ ≠ p.src) || s.diePresent p.die) && (p.resp || decide (p.at_ ≠ p.src) || decide (p.tries ≠ 0) ||
    (f.ready s && (p.seq.isNone || decide (s.unacked p f < 1024))))

/-- A packet leaves on a plane, its route fixed (R376, R378). -/
def State.launchPacket (s : State) (plane i next : Nat) : State :=
  { s with packets := updWhere (fun p => p.id == i) (fun p => { p with
      st := .flying, sentAt := s.now, tries := p.tries + 1, plane := plane
      via := if p.at_ = p.src ∧ p.tries = 0 then (if next = p.dst then none else some next) else p.via }) s.packets }

/-- Packets of one class that wait at a source for a port, with their beats, in order. (DESIGN CHOICE, log 37) -/
def State.queueTo (s : State) (src dst cls : Nat) : List (Nat × Nat) :=
  s.packets.filterMap (fun p => match s.fab? p.fab with
    | none => none
    | some f => if decide (p.at_ = src) && decide (f.cls = cls) && decide (s.hop p = some dst) && s.mayLeave p f then
        some (p.id, p.beats f) else none)

/-- Send what fits of a list into a number of beats: the state and the beats left. (DESIGN CHOICE, log 37) -/
def sendFit (plane dst : Nat) : List (Nat × Nat) → Nat → State → State × Nat
  | [], n, s => (s, n)
  | (i, b) :: rest, n, s =>
    if b ≤ n then sendFit plane dst rest (n - b) (s.launchPacket plane i dst) else sendFit plane dst rest n s

/-- The turns of classes 1 to 3, weighted 4 : 2 : 1 among those that have traffic waiting (R390). -/
def classTurns (waiting : List Nat) : List Nat := ([1, 2, 1, 3, 1, 2, 1] : List Nat).filter (fun k => waiting.contains k)

/-- Send one packet at a turn, from turn n on, passing over classes of which none fits, until none fits at all (R390).
(DESIGN CHOICE, log 37) -/
def sendTurns (plane src dst : Nat) (turns : List Nat) : Nat → Nat → Nat → State → State × Nat
  | 0, _, beats, s => (s, beats)
  | fuel + 1, n, beats, s =>
    let next := (List.range turns.length).findSome? (fun j =>
      ((s.queueTo src dst (turns.getD ((n + j) % turns.length) 0)).find? (fun x => decide (x.2 ≤ beats))).map (fun x => (j, x)))
    match next with
    | none => (s, beats)
    | some (j, x) => sendTurns plane src dst turns fuel (n + j + 1) (beats - x.2) (s.launchPacket plane x.1 dst)

/-- Fill a plane's beats from a source to a port in slot t: class 0 up to 9 beats, then classes 1 to 3 in their turns, of which
each slot begins with the next, then what is left to class 0 (R390). (DESIGN CHOICE, log 37) -/
def State.fillPlane (s : State) (t plane src dst beats : Nat) : State :=
  let x := sendFit plane dst (s.queueTo src dst 0) (min 9 beats) s
  let turns := classTurns (([1, 2, 3] : List Nat).filter (fun k => !(x.1.queueTo src dst k).isEmpty))
  let y := sendTurns plane src dst turns 35 t (beats - (min 9 beats - x.2)) x.1
  (sendFit plane dst (y.1.queueTo src dst 0) y.2 y.1).1

/-- A link of the plane is in RETRAIN: the plane takes no blackout (R391). (DEDUCED, log 38) -/
def State.planeRetrains (s : State) (p : Nat) : Bool := (List.range 30).any (fun i => decide ((s.link i p).st = .retrain))

/-- The control wavelength is silent: plane 0 is in its blackout (R391). (DEDUCED, log 38) -/
def State.dark (s : State) : Bool := decide (s.fabricTime % 1000000 < 200) && !s.planeRetrains 0

/-- FABRIC_SLOT (R372, R374, R390, R391): the slot that fabric time has reached begins. -/
def execFabricSlot (s : State) : Out :=
  event s (
    let t := s.fabricTime / 25
    if t ≤ s.slot then none
    else
      let s1 := { s with slot := t }
      let from_ := ((s1.packets.filter (fun p => decide (p.st = .waiting) && decide (p.src ≠ p.dst))).map (·.at_)).eraseDups
      some ((List.range 32).foldl (fun s p =>
        if slotBlack t p && !s.planeRetrains p then s
        else from_.foldl (fun s src =>
          let dst := (src + 1 + (p + t) % 31) % 32
          if 30 ≤ dst then s else s.fillPlane t p src dst ((s.link dst p).beats s.fabricTime)) s) s1))

/-! ### Packets -/

/-- Change a packet. -/
def State.modPacket (s : State) (i : Nat) (f : Packet → Packet) : State :=
  { s with packets := updWhere (fun p => p.id == i) f s.packets }

/-- The receiver refuses a packet that is otherwise in turn: a saved peer, or a full inbound log (R173, R248).
(DEDUCED, log 38) -/
def State.refuses (s : State) (p : Packet) : Bool :=
  match s.fab? p.fab with
  | none => false
  | some f => f.dests.all (·.checked) && s.streamClear p f && (f.dest? p.dst).all (s.mayPut p f) &&
      (p.resp || f.peer || decide (f.kind ≠ .get ∧ f.kind ≠ .ratom))

/-- Deliver every part of a packet that can be delivered now; the check of its destination is a part of its own. -/
def deliverAll : Nat → Nat → State → State
  | 0, _, s => s
  | n + 1, i, s =>
    match s.packets.find? (fun p => p.id == i) with
    | none => s
    | some p => match s.deliverPacket p with
      | some t => deliverAll n i t
      | none => if s.refuses p then s.modPacket i (fun p => { p with st := .refused }) else s

/-- Packets that arrived earlier are delivered as far as order lets them. -/
def State.deliverHeld (s : State) : State :=
  (s.packets.filter (fun p => decide (p.st = .arrived))).foldl (fun s p => deliverAll 3 p.id s) s

/-- A packet that had to be repeated has got through: the fault was transient, and is logged once (R433, R436). -/
def State.noteRepeat (s : State) (p : Packet) : State :=
  if p.tries < 2 ∨ p.noted then s
  else (s.modPacket p.id (fun q => { q with noted := true })).logEvent p.die 0 3 (unitAt p.die p.plane) 0

/-- PACKET_RECEIVE (R374, R376, R377, R386, R430): subject the packet. It reaches its next port, which forwards it or
delivers it in stream order; a packet that has arrived may be delivered once what held it is over. -/
def execPacketReceive (s : State) : Out :=
  event s (match s.packets.find? (fun p => p.id == s.sub 0) with
    | none => none
    | some p =>
      let arrive := fun (s : State) => (deliverAll 3 p.id (s.modPacket p.id (fun p => { p with st := .arrived, at_ := p.dst }))).deliverHeld.sweepFabs.settle
      match s.fab? p.fab with
      | none => some (s.dropPacket p.id)
      | some f =>
        match p.st with
        | .flying =>
          -- a packet of an earlier incarnation of its source is dropped without acknowledgement
          if p.incar ≠ (s.die p.die).incar then some (s.dropPacket p.id)
          else if p.next = p.dst then some (arrive (s.noteRepeat p))
          else some ((s.noteRepeat p).modPacket p.id (fun p => { p with st := .waiting, at_ := p.next, tries := 0, noted := false }))
        | .waiting => if p.src = p.dst ∧ s.mayLeave p f then some (arrive s) else none
        | .arrived => (s.deliverPacket p).map (fun t => t.deliverHeld.sweepFabs.settle)
        | .refused => none)

/-- PACKET_ACK (R374, R433): subject the packet. The receiving port's acknowledgement reaches the sender; where the packet
had to be repeated, the fault was transient (R436). -/
def execPacketAck (s : State) : Out :=
  event s (match s.packets.find? (fun p => p.id == s.sub 0) with
    | none => none
    | some p => if p.acked ∨ p.src = p.dst ∨ p.st = .waiting ∨ p.st = .flying then none
      else
        some ((s.noteRepeat p).modPacket p.id (fun p => { p with acked := true })))

/-- A relay that a rewritten entry may name (R376, R378). -/
def State.eligible (s : State) (src dst v : Nat) : Bool :=
  s.islMask.getLsbD v && decide (v ≠ src) && decide (v ≠ dst) && decide ((s.route src v).1 = 1) && decide ((s.route v dst).1 = 1)

/-- The new entry for a path found lasting-faulty; `bad`: the relay it went through (R378). -/
def State.newEntry (s : State) (src dst : Nat) (bad : Option Nat) : Word :=
  let ok := (List.range 30).filter (fun v => s.eligible src dst v && decide (bad ≠ some v))
  match (ok.filter (fun v => decide (v / 6 = src / 6))) ++ ok with
  | [] => 0
  | v :: _ => BitVec.ofNat 32 (4 * v + 2)

/-- A fenced die sends no packet (R429): what waits there for its port goes, or, where it answers for its island, leaves from
the other die of the island. (DEDUCED, log 61) -/
def State.silence (s : State) : State :=
  { s with packets := s.packets.filterMap (fun x =>
      let p := 4 * (x.die / 2) + 1 - x.die
      if s.diePresent x.die ∨ x.at_ ≠ x.src ∨ x.st ≠ .waiting then some x
      else if x.resp && s.diePresent p then some { x with die := p, incar := (s.die p).incar }
      else none) }

/-- PACKET_RETRANSMIT (R378, R433): subject the packet. After 500 ns it goes once more on its route; when that has failed
too, the fault is lasting and logged, and the lease holder, once there is one, rewrites the entry: everything
unacknowledged goes under the new one. -/
def execPacketRetransmit (s : State) : Out :=
  event s (match s.packets.find? (fun p => p.id == s.sub 0) with
    | none => none
    | some p =>
      if p.acked ∨ p.st = .waiting ∨ p.src = p.dst ∨ s.now < p.sentAt + 500 then none
      else if p.tries = 1 then
        -- a packet that did arrive is a duplicate there, and is discarded
        some (if p.st = .flying then (s.modPacket p.id (fun p => { p with st := .waiting })).silence
          else (s.modPacket p.id (fun p => { p with tries := 2, sentAt := s.now })).noteRepeat { p with tries := 2 })
      else if s.leader?.isNone then none
      else
        let e := s.newEntry p.src p.dst p.via
        let s1 : State := { s with
          topo := setNth s.topo (30 * p.src + p.dst) e
          packets := updWhere (fun q => decide (q.src = p.src) && decide (q.dst = p.dst) && decide (q.src ≠ q.dst) && !q.acked &&
              decide (q.tries ≠ 0 ∨ q.at_ ≠ q.src))
            (fun q => if q.st = .flying ∨ q.st = .waiting then { q with st := .waiting, at_ := q.src, via := none, tries := 0 }
              else { q with acked := true }) s.packets }
        let s2 := (s1.logEvent p.die 1 3 (unitAt p.die p.plane) 0).silence
        some (if e = 0 then ((s2.noRoute p.src p.dst).deliverHeld.sweepFabs).settle else s2))

/-! ### Arrivals -/

/-- Take an arrival off. -/
def State.dropArrival (s : State) (i : Nat) : State := { s with arrivals := s.arrivals.filter (fun a => !(a.id == i)) }

/-- The event of an arrival at its team's object, if it names one. -/
def State.arrivalEvent (s : State) (a : Arrival) (e : BarEvent) : State :=
  if a.addr = 0xFFFFFFFF then s else s.barEvent a.launch a.team (localOff a.addr) e

/-- BYTES_LANDED (R296, R382): subject the arrival. Bytes of a get are counted. -/
def execBytesLanded (s : State) : Out :=
  event s (match s.arrivals.find? (fun a => a.id == s.sub 0) with
    | none => none
    | some a => match a.kind with
      | .landed n mem =>
        some ((((s.dropArrival a.id).arrivalEvent a (.landed n mem)).modFab a.fab (fun f => { f with landed := f.landed + n })).sweepFabs.settle)
      | _ => none)

/-- PUT_ACKNOWLEDGEMENT (R296, R382, R389): subject the arrival. -/
def execPutAcknowledgement (s : State) : Out :=
  event s (match s.arrivals.find? (fun a => a.id == s.sub 0) with
    | none => none
    | some a => match a.kind with
      | .ack isl n =>
        some ((((s.dropArrival a.id).arrivalEvent a (.ack n)).modFab a.fab (fun f => f.modDest isl (fun d => { d with counted := true }))).sweepFabs.settle)
      | _ => none)

/-- Deliver a gang completion; none where the team is being saved (R173, R174, R394). (DEDUCED, log 65) -/
def State.deliverGang (s : State) (a : Arrival) : Option State :=
  let gang := ((s.launch? a.launch).map (fun x => decide (x.bits 2 52 1 = 1))).getD false
  if s.takesFrom a.launch a.team (if gang then a.team + 1 else a.team) then
    some ((s.dropArrival a.id).arrivalEvent a .gang).settle
  else none

/-- GANG_COMPLETION (R296, R394): subject the arrival. -/
def execGangCompletion (s : State) : Out :=
  event s (match s.arrivals.find? (fun a => a.id == s.sub 0) with
    | none => none
    | some a => match a.kind with
      | .gang =>
        if a.refused then none
        else match s.deliverGang a with
          | some t => some t
          | none => some { s with arrivals := updWhere (fun b => b.id == a.id) (fun b => { b with refused := true }) s.arrivals }
      | _ => none)

/-- A completed generation: one completion to the barrier that each team named (R394). (DEDUCED, log 65) -/
def State.gangDone (s : State) (x : Launch) : State :=
  let as := x.gangArr.zipIdx.map (fun y => ({ id := s.nextId + y.2, launch := x.num, team := y.2, addr := y.1.headD 0, kind := .gang } : Arrival))
  { s.modLaunch x.num (fun x => { x with gangArr := x.gangArr.map (·.tail), gangGen := x.gangGen + 1 }) with
    nextId := s.nextId + as.length, arrivals := s.arrivals ++ as }

/-- GANG_ARRIVAL (R394): subject the waiting GBARV. It leaves its core, once everything before it is released and
acknowledged, on the control wavelength. -/
def execGangArrival (s : State) : Out :=
  event s (match s.gangQ.find? (fun q => q.id == s.sub 0) with
    | none => none
    | some q =>
      let first := s.gangQ.all (fun r => !(r.launch == q.launch && r.team == q.team && r.gnum == q.gnum && decide (r.id < q.id)))
      if !first || s.dark || !s.relReady (s.coreOf q.launch q.team) q.launch q.team q.gnum q.before 2 ||
          !s.fabAcked q.launch q.team q.gnum q.before then none
      else
        let s1 := { s with gangQ := s.gangQ.filter (fun r => !(r.id == q.id)) }
        match s.launch? q.launch with
        | none => none
        | some x =>
          if x.bits 2 52 1 = 1 then
            let arr := setNth x.gangArr q.team (x.gangArr.getD q.team [] ++ [q.addr])
            let y := { x with gangArr := arr }
            let s2 := s1.modLaunch x.num (fun _ => y)
            some (if arr.all (fun l => !l.isEmpty) then s2.gangDone y else s2)
          else some { s1 with
            nextId := s.nextId + 1
            arrivals := s.arrivals ++ [{ id := s.nextId, launch := q.launch, team := q.team, addr := q.addr, kind := .gang }] })

/-- ARRIVAL_RETRY (R173, R248, R276): subject a contribution, packet or gang completion that was refused. -/
def execArrivalRetry (s : State) : Out :=
  event s (match s.contribs.find? (fun c => c.id == s.sub 0 && c.refused) with
    | some c => (s.deliver c).map State.settle
    | none =>
      match s.packets.find? (fun p => p.id == s.sub 0 && decide (p.st = .refused)) with
      | some p => (s.deliverPacket p).map (fun t => t.deliverHeld.sweepFabs.settle)
      | none =>
        match s.arrivals.find? (fun a => a.id == s.sub 0 && a.refused) with
        | some a => s.deliverGang a
        | none => none)

/-! ### Planes and links -/

/-- PLANE_BLACKOUT (R391): subject the plane. -/
def execPlaneBlackout (s : State) : Out :=
  let p := s.sub 0
  event s (
    if 32 ≤ p ∨ s.blackout.getD p false ∨ s.planeRetrains p ∨ 200 ≤ (s.fabricTime + 1000000 - 31250 * p) % 1000000 then none
    else some { s with blackout := setNth s.blackout p true })

/-- BLACKOUT_END (R391): subject the plane. -/
def execBlackoutEnd (s : State) : Out :=
  let p := s.sub 0
  event s (
    if !s.blackout.getD p false || decide ((s.fabricTime + 1000000 - 31250 * p) % 1000000 < 200) then none
    else some { s with blackout := setNth s.blackout p false })

/-- Move the link that the subjects name (island, plane), if it is in a state that the event changes (R392). What has to be
said on the control wavelength (`told`) waits while plane 0 blacks out (R391). -/
def linkEvent (told : Bool) (f : Link → Option Link) (s : State) : Out :=
  event s (
    if 30 ≤ s.sub 0 ∨ 32 ≤ s.sub 1 ∨ (told ∧ s.dark) then none
    else (f (s.link (s.sub 0) (s.sub 1))).map (fun k => { s with links := setNth s.links (32 * s.sub 0 + s.sub 1) k }))

/-- Enter a state now. -/
def Link.enter (k : Link) (time : Nat) (st : LinkSt) : Link := { k with st := st, since := time, was := k.st }

/-- LINK_STEP_DOWN: errors over 1024 slots above the threshold. -/
def execLinkStepDown (s : State) : Out :=
  linkEvent true (fun k => if k.st = .pam4 then some (k.enter s.fabricTime .step) else none) s

/-- LINK_STEP_DONE: eight slots later. -/
def execLinkStepDone (s : State) : Out :=
  linkEvent false (fun k => if k.st = .step ∧ k.since + 200 ≤ s.fabricTime then some (k.enter s.fabricTime .two) else none) s

/-- LINK_PROBE_START: 64 µs without errors. -/
def execLinkProbeStart (s : State) : Out :=
  linkEvent false (fun k =>
    if k.st = .two ∧ k.since + 64000 ≤ s.fabricTime then some { k.enter s.fabricTime .probe with tests := 0 } else none) s

/-- LINK_PROBE_PASS: sixteen clean test frames, one in 32 slots. -/
def execLinkProbePass (s : State) : Out :=
  linkEvent true (fun k =>
    if k.st = .probe ∧ k.since + 16 * 32 * 25 ≤ s.fabricTime then some { k.enter s.fabricTime .pam4 with tests := 16 } else none) s

/-- LINK_PROBE_FAIL: an errored test frame. -/
def execLinkProbeFail (s : State) : Out :=
  linkEvent false (fun k => if k.st = .probe then some (k.enter s.fabricTime .two) else none) s

/-- RETRAIN_REQUEST: by either end, or from errors; again when a deferral has run out. A fourth request forces the
retrain. -/
def execRetrainRequest (s : State) : Out :=
  linkEvent true (fun k =>
    let again := k.st = .req ∧ k.deferred ≠ 0 ∧ k.deferred ≤ s.fabricTime
    if k.st = .pam4 ∨ k.st = .two ∨ k.st = .probe ∨ again then
      if 3 ≤ k.requests then some { k.enter s.fabricTime .retrain with requests := 0, deferred := 0 }
      else if again then some { k with since := s.fabricTime, deferred := 0 }
      else some { k.enter s.fabricTime .req with deferred := 0 }
    else none) s

/-- RETRAIN_ACCEPT. -/
def execRetrainAccept (s : State) : Out :=
  linkEvent true (fun k =>
    if k.st = .req then some { k.enter s.fabricTime .retrain with requests := 0, deferred := 0 } else none) s

/-- RETRAIN_DEFER: an outstanding request is deferred for 1 ms, counted; in PAM4 too, one request at a time. -/
def execRetrainDefer (s : State) : Out :=
  linkEvent true (fun k =>
    if k.st = .req ∧ k.requests < 3 ∧ k.deferred = 0 then
      some { k with requests := k.requests + 1, since := s.fabricTime, deferred := s.fabricTime + 1000000 }
    else if k.st = .pam4 ∧ k.deferred ≤ s.fabricTime then
      some { k with requests := k.requests + 1, deferred := s.fabricTime + 1000000 }
    else none) s

/-- RETRAIN_LOCKED: within 50 µs. -/
def execRetrainLocked (s : State) : Out :=
  linkEvent false (fun k =>
    if k.st = .retrain ∧ s.fabricTime ≤ k.since + 50000 then some (k.enter s.fabricTime .pam4) else none) s

/-- RETRAIN_TIMEOUT (R392, R433): the link is down until the next boot, a lasting fault that is logged. -/
def execRetrainTimeout (s : State) : Out :=
  event s (
    let k := s.link (s.sub 0) (s.sub 1)
    if 30 ≤ s.sub 0 ∨ 32 ≤ s.sub 1 ∨ k.st ≠ .retrain ∨ s.fabricTime < k.since + 50000 then none
    else some (({ s with links := setNth s.links (32 * s.sub 0 + s.sub 1) (k.enter s.fabricTime .down) } : State).logEvent
      (s.recvDie (s.sub 0)) 1 3 (unitAt (s.recvDie (s.sub 0)) (s.sub 1)) 0))

/-! ### Time -/

/-- SLOT_MARK (R156, R373): subject a joined die, which hears the lease holder's mark. Its counter is trimmed toward the
holder's as time passes, and never stepped back. (DEDUCED, log 39) -/
def execSlotMark (s : State) : Out :=
  event s (match s.leader? with
    | none => none
    | some m =>
      let d := s.sub 0
      if s.dark ∨ !(s.die d).counterOn then none
      else some (s.modDie d (fun x => { x with trim := (s.timeOf m : Int) - s.timeOf d })))

/-- The lease holder measures a die's offsets to the others, each to within 2 ticks (R156). -/
def State.measure (s : State) (d : Nat) : State :=
  s.modDie d (fun x => { x with
    measured := s.now
    toff := (List.range 60).map (fun m =>
      if m = d then 0
      else if !s.diePresent m then toffAbsent
      else BitVec.ofInt 64 ((s.timeOf m : Int) - s.timeOf d + ((s.free (60 * d + m)).toNat % 5 : Nat) - 2)) })

/-- The offsets of every joined die, as at each join (R156). -/
def State.measureAll (s : State) : State := ((List.range 60).filter (fun d => s.diePresent d)).foldl (fun s d => s.measure d) s

/-- TOFF_MEASUREMENT (R156): subject the die whose offsets are measured. -/
def execToffMeasurement (s : State) : Out :=
  event s (if s.leader?.isNone || !s.diePresent (s.sub 0) then none else some (s.measure (s.sub 0)))

end Sys2Proof.Machine
end

