-- ==== Sys2Proof/Machine/Issue.lean ====
section
/-!
DEFINITION. Issue.lean: choosing and fetching a clause (R30 to R33, R103, R107, R113 to R115), its end (R105 to R112,
R161), register-block requests (R120, R121) and the tile dispenser (R152, R413, R414).
-/
namespace Sys2Proof.Machine

/-! ### The next clause -/

/-- The RUN threads of a group with their PCs. -/
def Group.running (g : Group) : List (Nat × Nat × Nat) :=
  (g.thr.zipIdx.filter (fun x => decide (x.1.st = .run))).map (fun x => (x.2, x.1.pc.toNat, x.1.starve))

/-- The issue address: the minimum PC, or that of the lowest-numbered starved thread (R103, R107). -/
def Group.issueAddr (g : Group) : Option Nat :=
  match g.running.find? (fun x => decide (4096 ≤ x.2.2)) with
  | some x => some x.2.1
  | none => (g.running.map (·.2.1)).foldl (fun a p => match a with
    | none => some p
    | some q => some (min p q)) none

/-- Issuing(): the RUN threads at the issue address (R7, R103). -/
def Group.issuing (g : Group) (pc : Nat) : Word := maskOf ((g.running.filter (fun x => decide (x.2.1 = pc))).map (·.1))

/-- A fetched word, or the code for which it cannot be fetched (R31). The value is the latest at its home (log 8). -/
def State.fetch (s : State) (c launch va : Nat) : Except Nat Word :=
  match s.look c launch none va with
  | .present t =>
    if (s.core c).logged launch va && !t.scratch then .error Code.notMapped
    else if !mayExecute t.leaf then .error Code.accessFault
    else if !isIsland t.leaf && decide (t.home ≠ dieOfCore c) then .error Code.pageMode
    else match s.absentCode t.home with
      | some code => .error code
      | none => .ok (BitVec.ofNat 32 (s.homeNum (t.phys va) 4))
  | _ => .error Code.notMapped

/-- Address k words after a clause start, modulo 2^57. -/
def wordAddr (pc k : Nat) : Nat := (pc + 4 * k) % 2 ^ 57

/-- Fetch n words from word k of a clause: the words, or the address and code of the first that fails (R31).
(DESIGN CHOICE, log 8) -/
def State.fetchFrom (s : State) (c launch pc : Nat) : Nat → Nat → Except (Nat × Nat) (List Word)
  | 0, _ => .ok []
  | n + 1, k =>
    match s.fetch c launch (wordAddr pc k) with
    | .error code => .error (wordAddr pc k, code)
    | .ok w =>
      match s.fetchFrom c launch pc n (k + 1) with
      | .error e => .error e
      | .ok ws => .ok (w :: ws)

/-- A clause as fetched: its header, instructions and literals. -/
structure Clause where
  hdr : Header
  words : List Word
  lits : List Word

/-- What fetching the clause at pc gives (R30 to R33). -/
inductive Fetched where
  | ok (c : Clause)
  | badFetch (addr code : Nat) (hdr : Option Header)
  | badHeader (w : Word)

/-- Fetch and check the clause at pc: a bad header faults before a later word that cannot be fetched (R31 and R33 give
no order between them). (DESIGN CHOICE, log 8) -/
def State.fetchClause (s : State) (c launch pc : Nat) : Fetched :=
  match s.fetchFrom c launch pc 1 0 with
  | .error e => .badFetch e.1 e.2 none
  | .ok ws =>
    let w := ws.headD 0
    let h := Header.ofWord w
    if !h.ok then .badHeader w
    else match s.fetchFrom c launch pc (h.count + h.lits) 1 with
      | .error e => .badFetch e.1 e.2 (some h)
      | .ok xs => .ok { hdr := h, words := xs.take h.count, lits := xs.drop h.count }

/-- Long-latency instructions among words. -/
def llCount (ws : List Word) : Nat := (ws.filter (fun w => (decodeWord w).isLL)).length

/-- The instruction words of a clause that can be fetched, where some of its words cannot. -/
def State.wordsSeen (s : State) (c launch pc n : Nat) : List Word :=
  (List.range n).filterMap (fun k => match s.fetch c launch (wordAddr pc (k + 1)) with
    | .ok w => some w
    | .error _ => none)

/-- Every tile that an instruction names is ready, or does not exist (R22, R339, R344). -/
def Instr.tilesReady (i : Instr) (t : Team) : Bool :=
  i.operands.all (fun o => match o with
    | .tile c => decide (t.ntile ≤ c.toNat) || decide ((t.tiles.getD c.toNat {}).st = .ready)
    | _ => true)

/-- An access of the operation holds its group: it is held on its page, or waits for room in the side log once nothing
before it keeps it from there (R113 reason 5, R240, R243, R246). -/
def State.holds (s : State) (o : Op) (a : Access) : Bool :=
  a.stuck && (decide (a.st = .held) || s.readsDone o.launch o.team o.gnum o.id)

/-- The group is held: by an access of its own, by a full side log, or by ACCOPEN or ACCSCALE (R113 reason 5, R279,
R287). -/
def State.groupHeld (s : State) (g : Group) : Bool :=
  s.ops.any (fun o => o.ofGroup g.launch g.team g.gnum && (o.accs.any (s.holds o) || (match o.kind with
    | .accOpen => o.accs.any (fun a => decide (a.st = .waiting) || decide (a.st = .served))
    | .accScale _ => o.accs.any (fun a => decide (a.st ≠ .done) && decide (a.st ≠ .declined))
    | _ => false)))

/-- Conditions 2, 3 and 6 of R113 for a header and the instruction words behind it. -/
def Group.clauseReady (g : Group) (t : Team) (h : Header) (ws : List Word) : Bool :=
  g.waitOk h.wait && g.countsOk h (llCount ws) && ws.all (fun w => Instr.tilesReady (decodeWord w) t)

/-- The next clause of a group is ready (R113). One that cannot be fetched, or whose header is bad, faults at issue; what can be
fetched of it is judged all the same. (DESIGN CHOICE, log 8) -/
def State.ready (s : State) (g : Group) : Bool :=
  match s.team? g.launch g.team, g.issueAddr with
  | some t, some pc =>
    decide (g.halt = .none) && decide (t.ctx = .run) && !g.exited && decide (g.rbreq = 0) && decide (g.wait = .none) &&
      !s.groupHeld g && !(s.lanes.any (fun l => l.launch == g.launch && l.team == g.team && l.gnum == g.gnum)) &&
      (match s.fetchClause t.core g.launch pc with
        | .ok c => g.clauseReady t c.hdr c.words
        | .badHeader w => g.clauseReady t (Header.ofWord w) (s.wordsSeen t.core g.launch pc (Header.ofWord w).wordCount)
        | .badFetch _ _ none => true
        | .badFetch _ _ (some h) => g.clauseReady t h (s.wordsSeen t.core g.launch pc h.count))
  | _, _ => false

/-- The clock count of a group's die, in tenths of a cycle. -/
def State.clkOf (s : State) (g : Group) : Nat := (s.die (dieOfCore (((s.team? g.launch g.team).map (·.core)).getD 0))).clk

/-- Keep each group's ready time (R114). -/
def State.refreshReady (s : State) : State :=
  { s with groups := s.groups.map (fun g =>
      if s.ready g then (if g.readySince.isNone then { g with readySince := some s.now, readyClk := s.clkOf g } else g)
      else if g.readySince.isSome then { g with readySince := none } else g) }

/-- 1024 clk, in tenths (R5, R114). -/
def spinWait : Nat := 10240

/-- The keys of a ready group (R114): larger is better, in order. -/
def State.rank (s : State) (g : Group) : List Nat :=
  let t := s.team? g.launch g.team
  let pc := g.issueAddr.getD 0
  let spin := match s.fetchClause ((t.map (·.core)).getD 0) g.launch pc with
    | .ok c => c.hdr.spin
    | .badHeader w => (Header.ofWord w).spin
    | .badFetch _ _ h => (h.map (·.spin)).getD false
  let since := g.readySince.getD s.now
  [ ((s.launch? g.launch).map (·.prio)).getD 0,
    if !spin || (g.readySince.isSome && decide (g.readyClk + spinWait ≤ s.clkOf g)) then 1 else 0,
    s.now - since,
    3 - ((t.map (·.slot)).getD 0),
    63 - g.gnum ]

/-- The first list is better, key by key. -/
def rankAbove : List Nat → List Nat → Bool
  | a :: as, b :: bs => decide (b < a) || (decide (a = b) && rankAbove as bs)
  | _, _ => false

/-- The best-ranked ready group of a core (R114). -/
def State.bestGroup (s : State) (c : Nat) : Option Group :=
  (s.groups.filter (fun g => decide (((s.team? g.launch g.team).map (·.core)) = some c) && s.ready g)).foldl (fun a g =>
    match a with
    | none => some g
    | some h => if rankAbove (s.rank g) (s.rank h) then some g else some h) none

/-- A fault at issue (R31, R33): class ISSUE, the group halts with every PC unchanged. -/
def State.raiseIssue (s : State) (g : Group) (pc code addr : Nat) (detail : Word) : State :=
  s.raiseGroup g code Cls.issue addr detail pc (g.issuing pc) 0 []

/-- CLAUSE_ISSUE (R114): subject the core. -/
def execClauseIssue (s : State) : Out :=
  event s (
    let c := s.sub 0
    if 128 ≤ (s.lanes.filter (fun l => decide (l.core = c))).length then none
    else match s.bestGroup c with
      | none => none
      | some g =>
        match s.team? g.launch g.team, g.issueAddr with
        | some t, some pc =>
          let s0 := s.noteLook c g.launch none (s.look c g.launch none pc)
          match s.fetchClause c g.launch pc with
          | .badFetch a code _ => some (s0.raiseIssue g pc Code.fetchFault a (BitVec.ofNat 32 (code * 65536)))
          | .badHeader w => some (s0.raiseIssue g pc Code.illhdr 0 w)
          | .ok x =>
            let l : Lane :=
              { core := c, launch := g.launch, team := g.team, gnum := g.gnum, claddr := pc, wait := x.hdr.wait.toNat
                seta := x.hdr.seta, setb := x.hdr.setb, words := x.words, lits := x.lits, issuing := g.issuing pc
                wide := t.wideTiles }
            some { (s0.modGroup g.launch g.team g.gnum (fun h =>
                { h.raiseCounts x.hdr (llCount x.words) with readySince := none })) with lanes := s0.lanes ++ [l] }
        | _, _ => none)

/-! ### The end of a clause -/

/-- Steps 1 to 5 of R105 on the thread records. -/
def Group.endSteps (g : Group) (l : Lane) : List Thread :=
  let inIssue := fun (i : Nat) => l.issuing.getLsbD i
  let next : BitVec 57 := BitVec.ofNat 57 l.nextClause
  let s2 : List Thread := g.thr.zipIdx.map (fun x =>
    let t := x.1
    let i := x.2
    let t1 := if t.st = .park then { t with st := .run } else t
    if inIssue i then
      let pc := match l.newPc.find? (fun p => p.1 == i) with
        | some p => BitVec.ofNat 57 p.2
        | none => next
      match l.fin with
      | none => { t1 with pc := pc }
      | some .yield => { t1 with pc := pc, st := .park, starve := 0 }
      | some .wsync => { t1 with pc := pc, st := .wait, starve := 0, wmask := ((l.masks.find? (fun m => m.1 == i)).map (·.2)).getD 0 }
      | some .exit => { t1 with pc := pc, st := .done, starve := 0 }
    else t1)
  let s3 : List Thread := s2.zipIdx.map (fun x =>
    if x.1.st ≠ .run then { x.1 with starve := 0 }
    else if inIssue x.2 then { x.1 with starve := 0 }
    else { x.1 with starve := min (x.1.starve + 1) 4096 })
  let here := fun (p : BitVec 57) (j : Nat) => match s3[j]? with
    | none => true
    | some t => decide (t.st = .done) || (decide (t.st = .wait) && t.pc == p)
  let s4 : List Thread := s3.zipIdx.map (fun x =>
    if decide (x.1.st = .wait) && (threadsOf x.1.wmask).all (fun j => decide (j = x.2) || here x.1.pc j) then { x.1 with st := .run }
    else x.1)
  if s4.any (fun t => decide (t.st = .run)) then s4
  else s4.map (fun t => if t.st = .park then { t with st := .run } else t)

/-- Step 7 of R105: the group exits, its blocks return, and its team exits with its last group (R112). -/
def State.exitGroup (s : State) (L T G : Nat) : State :=
  match s.group? L T G with
  | none => s
  | some g =>
    if !(g.thr.all (fun t => decide (t.st = .done))) then s
    else
      let s1 := (s.modGroup L T G (fun g => { g with exited := true, exitDue := false })).settleBlocks L T G
      if s1.groups.all (fun h => !(h.launch == L && h.team == T) || h.exited) then s1.modTeam L T (fun t => { t with exited := true })
      else s1

/-- Waiting threads of a group with their PCs and masks (R111, R166). -/
def waitingThreads (t : Team) (g : Group) : List (Nat × Nat × Nat × Nat × Word) :=
  (g.thr.zipIdx.filter (fun x => decide (x.1.st = .wait))).map (fun x => (x.2, 2, x.1.pc.toNat, 64 * t.slot + g.gnum, x.1.wmask))

/-- A fault at the clause end (class END): the group halts after the steps taken (R131). -/
def State.raiseEnd (s : State) (l : Lane) (r : Record) (h : Halt) : State :=
  (s.modGroup l.launch l.team l.gnum (fun g => { g with halt := h, readySince := none })).handRecord (dieOfCore l.core) r

/-- The end of the clause of a lane (R105, R120, R161, R308). -/
def State.endClause (s : State) (l : Lane) (g : Group) (t : Team) : State :=
  let thr := g.endSteps l
  let s1 := s.modGroup l.launch l.team l.gnum (fun g => { g with
    thr := thr
    rbreq := if l.rbacq ≠ 0 then l.rbacq else g.rbreq
    rbAge := if l.rbacq ≠ 0 then s.nextId else g.rbAge
    wait := if l.bwait.isSome then .joining else g.wait
    wclause := if l.bwait.isSome then l.claddr else g.wclause
    wmask := if l.bwait.isSome then l.issuing else g.wmask
    stream := match l.bwait with
      | none => g.stream
      | some (a, k) => g.stream ++ [{ id := s.nextId, addr := a, kind := k, after := s.nextId }] })
  let s2 := { s1 with nextId := s.nextId + 1 }
  let live := fun (x : Thread) => decide (x.st = .run) || decide (x.st = .park)
  let s3 :=
    if !(thr.any live) && thr.any (fun x => decide (x.st = .wait)) then
      let g' := { g with thr := thr }
      s2.raiseEnd l { s2.laneRecord l Code.wsyncCycle Cls.end_ 31 0 0 0 with ext := waitingThreads t g' } .faulted
    else match l.trap with
      | some (code, n) =>
        (s2.raiseEnd l { s2.laneRecord l code Cls.end_ 31 0 0 0 with arg := n, ptrap := 0, parg := 0 } .trapped).modGroup
          l.launch l.team l.gnum (fun g => { g with exitDue := true })
      | none => s2.exitGroup l.launch l.team l.gnum
  (s3.drainLocal l.launch l.team l.gnum false).quiesce l.launch l.team

/-- CLAUSE_END (R105): the clause in front has run to its end. -/
def execClauseEnd (s : State) : Out :=
  event s (match s.lanes with
    | [] => none
    | l :: ls =>
      if l.idx < l.words.length then none
      else match s.laneGroup? l, s.team? l.launch l.team with
        | some g, some t => some (({ s with lanes := ls } : State).endClause l g t)
        | _, _ => none)

/-! ### Register-block requests -/

/-- The oldest of some pending requests. -/
def oldestRequest (gs : List Group) : Option Group :=
  gs.foldl (fun a g => match a with
    | none => some g
    | some h => some (if g.rbAge < h.rbAge then g else h)) none

/-- Pending requests of a team. -/
def State.requests (s : State) (L T : Nat) : List Group :=
  s.groups.filter (fun g => g.launch == L && g.team == T && decide (g.rbreq ≠ 0))

/-- Grant a request (R120); `em`: with the core's emergency block (R121). -/
def State.grantBlocks (s : State) (g : Group) (em : Bool) : State :=
  let n := g.rbreq
  let s1 := (s.modGroup g.launch g.team g.gnum (fun g => { g with
      regs := g.regs.keep (fun k => decide (k < 512 * g.nblk)), nblk := g.nblk + n, rbreq := 0, emrg := g.emrg || em })).modTeam g.launch g.team (fun t => { t with
        held := setNth t.held g.role (t.held.getD g.role 0 + n), emlent := t.emlent || em })
  if em then s1.modCore (((s.team? g.launch g.team).map (·.core)).getD 0) (fun k => { k with emLent := true }) else s1

/-- RBACQ_GRANT (R120, R121): subject the core. The oldest request of one block on the core is lent the emergency block only
where no older request of its own team is pending, and holds up younger ones meanwhile. (DEDUCED, log 70) -/
def execRbacqGrant (s : State) : Out :=
  event s (
    let c := s.sub 0
    let teams := s.teams.filter (fun t => decide (t.core = c) && decide (t.ctx = .run))
    let budgetOk := fun (t : Team) (g : Group) => decide (t.held.getD g.role 0 + g.rbreq ≤ t.budget.getD g.role 0)
    let plain := teams.findSome? (fun t => match oldestRequest (s.requests t.launch t.idx) with
      | none => none
      | some g => if budgetOk t g && decide (g.rbreq ≤ t.free) then some g else none)
    match plain with
    | some g => some (s.grantBlocks g false)
    | none =>
      match oldestRequest (teams.flatMap (fun t => (s.requests t.launch t.idx).filter (fun g => decide (g.rbreq = 1)))) with
      | none => none
      | some g =>
        match s.team? g.launch g.team with
        | none => none
        | some t =>
          let first := (oldestRequest (s.requests t.launch t.idx)).map (·.gnum) == some g.gnum
          if first && budgetOk t g && decide (t.free = 0) && !(s.core c).emLent then some (s.grantBlocks g true) else none)

/-! ### The dispenser -/

/-- FETCHT (R152). -/
def execFetcht (d y z : BitVec 7) (u : Bool) (s : State) : Out :=
  runWord (.fetcht d y z u) noOwn (fun s l g =>
    { s with
      nextId := s.nextId + 1
      ops := s.ops ++ [{ l.start s .fetcht u with dst := dstOf g d 3, wants := l.execThreads u }] }) s

/-- ORDER and SWZ of a launch (R407). -/
def Launch.order (x : Launch) : Nat := x.bits 2 53 2
def Launch.swz (x : Launch) : Nat := x.bits 5 32 16

/-- Coordinates of linear index k (R413). -/
def coordinate (order swz X Y k : Nat) : Nat × Nat × Nat :=
  let p := k % (X * Y)
  let z := k / (X * Y)
  if order = 1 then
    let w := k / X
    (if w % 2 = 0 then k % X else X - 1 - k % X, w % Y, w / Y)
  else if order = 2 then
    let b := p / (swz * X)
    let h := min swz (Y - b * swz)
    let q := p - b * swz * X
    (q / h, b * swz + q % h, z)
  else (k % X, k / X % Y, z)

/-- Points of the index space. -/
def Launch.total (x : Launch) : Nat := x.ext.1 * x.ext.2.1 * x.ext.2.2

/-- Answer one thread of a FETCHT. -/
def State.answer (s : State) (o : Op) (t : Nat) (c : Nat × Nat × Nat) : State :=
  s.modOp o.id (fun o => { o with wants := o.wants.drop 1, answers := o.answers ++ [(t, c.1, c.2.1, c.2.2)] })

/-- All ones, the answer of an exhausted space. -/
def noTile : Nat × Nat × Nat := (0xFFFFFFFF, 0xFFFFFFFF, 0xFFFFFFFF)

/-- DISPENSER_REQUEST (R152, R413): subject the FETCHT. Its next thread takes a coordinate. -/
def execDispenserRequest (s : State) : Out :=
  event s (match s.op? (s.sub 0) with
    | none => none
    | some o =>
      match s.launch? o.launch, o.wants with
      | some x, t :: _ =>
        if decide (x.order ≠ 3) then
          if !x.exhausted && decide (x.pos < x.total) then
            some ((s.answer o t (coordinate x.order x.swz x.ext.1 x.ext.2.1 x.pos)).modLaunch x.num (fun x => { x with pos := x.pos + 1 }))
          else some ((s.answer o t noTile).modLaunch x.num (fun x => { x with exhausted := true }))
        else if x.exhausted then some (s.answer o t noTile)
        else
          let j := x.counts.getD o.team 0
          let k := o.team + j * x.cores.length
          if k < x.total then
            some ((s.answer o t (coordinate 0 1 x.ext.1 x.ext.2.1 k)).modLaunch x.num (fun x => { x with counts := setNth x.counts o.team (j + 1) }))
          else none
      | _, _ => none)

/-- Team i's share still holds an index (R414). -/
def Launch.shareLeft (x : Launch) (i : Nat) : Bool := decide (i + x.counts.getD i 0 * x.cores.length < x.total)

/-- Linear indices left in team i's share. -/
def Launch.shareCount (x : Launch) (i : Nat) : Nat :=
  let n := x.cores.length
  if n = 0 then 0 else (x.total + n - 1 - i) / n - x.counts.getD i 0

/-- STATIC_EXHAUST_RELEASE (R414): subject the FETCHT whose next request lies beyond its team's share. -/
def execStaticExhaustRelease (s : State) : Out :=
  event s (match s.op? (s.sub 0) with
    | none => none
    | some o =>
      match s.launch? o.launch, o.wants with
      | some x, t :: _ =>
        if x.order ≠ 3 ∨ x.shareLeft o.team then none
        else if (List.range x.cores.length).all (fun i =>
            !x.shareLeft i || ((s.team? x.num i).map (·.exited)).getD false) then
          some ((s.answer o t noTile).modLaunch x.num (fun x => { x with exhausted := true }))
        else none
      | _, _ => none)

end Sys2Proof.Machine
end

