-- ==== Sys2Proof/Machine/Mma.lean ====
section
/-!
DEFINITION. Mma.lean: matrix operations: MMAI and its checks, k-steps, chunks and the issue-budget governor (R95, R96, R349
to R357, R359, R360, R364, R369).
-/
namespace Sys2Proof.Machine

/-! ### The parameter block -/

/-- The parameter block at a local offset as the group sees it at `before` in its program order: its earlier stores to
those bytes included (R369). -/
def paramBlock (t : Team) (g : Group) (before off : Nat) : List DWord :=
  let bytes := g.stream.foldl (fun b e => match e.kind with
    | .store _ _ bs => if e.addr / 2 ^ 19 % 2 = 0 ∧ e.after ≤ before then overlay off b (localOff e.addr) bs else b
    | _ => b) (t.read off 64)
  (List.range 8).map (fun k => BitVec.ofNat 64 (numOf ((bytes.drop (8 * k)).take 8)))

/-- The operation a block describes for a team, with the shapes as they stand. -/
def mmaOf (t : Team) (ws : List DWord) : Mma :=
  let m : Mma :=
    { id := 0, op := 0, launch := t.launch, team := t.idx, gnum := 0, thread := 0, pb := 0, words := ws, block := ws,
      range := 0 }
  let tile := fun (p : Panel) => t.tile (if p.ring then (t.ring p.num).first else p.num)
  { m with
    kt := shapeRows (tile m.srcB).shape
    ra := shapeRows (tile m.srcA).shape
    cb := shapeCols (tile m.srcB).shape }

/-- The tiles of a source: of the whole ring for a ring source. -/
def Panel.tiles (p : Panel) (t : Team) : List Nat := if p.ring then (t.ring p.num).members else (List.range p.cnt).map (fun i => p.num + i)

/-- Step 3 of R364 fails for one source; `steps`: NK. -/
def Panel.bad (p : Panel) (t : Team) (steps : Nat) : Bool :=
  if p.ring then
    decide (8 ≤ p.num) || decide (t.nring ≤ p.num) || !(t.ring p.num).en ||
      (if p.keep then decide ((t.ring p.num).count < steps * p.cnt) else decide ((t.ring p.num).count < p.cnt))
  else p.keep || (p.tiles t).any (fun n => decide (t.ntile ≤ n) || t.member n)

/-- Step 3 of R364: reserved fields, ranges of M, N and K, sources. -/
def Mma.step3Bad (m : Mma) (t : Team) : Bool :=
  decide (m.field 1 11 5 ≠ 0) || decide (m.field 1 0 4 ≠ 0) || decide (m.field 4 0 32 ≠ 0) || decide (m.field 5 0 64 ≠ 0) ||
    decide (m.field 6 0 64 ≠ 0) || decide (m.field 7 0 64 ≠ 0) || decide (m.field 3 9 23 ≠ 0) || decide (m.field 3 41 23 ≠ 0) ||
    decide (m.ty = 3) || decide (m.rows = 0) || decide (1024 < m.rows) || decide (m.cols = 0) || decide (1024 < m.cols) ||
    decide (m.depth = 0) || m.srcA.bad t m.steps || m.srcB.bad t m.steps ||
    (m.srcA.ring && m.srcB.ring && decide (m.srcA.num = m.srcB.num))

/-- Every tile of a source is floating point of the type's width, and all have one shape (R364 step 4). -/
def Panel.shapesBad (p : Panel) (t : Team) (ty : Nat) : Bool :=
  let w := (t.tile ((p.tiles t).headD 0)).shape
  (p.tiles t).any (fun n =>
    let x := (t.tile n).shape
    decide (x.toNat / 2 ^ 16 % 4 ≠ 1) || decide (x.toNat / 2 ^ 18 % 4 ≠ ty) || decide (x ≠ w))

/-- MSTEP (R357). -/
def Mma.metaStep (m : Mma) : Nat := m.srcA.cnt * m.ra * m.kt / 8

/-- Step 4 of R364. (DEDUCED, log 23) -/
def Mma.step4Bad (m : Mma) (t : Team) : Bool :=
  let ca := shapeCols (t.tile ((m.srcA.tiles t).headD 0)).shape
  m.srcA.shapesBad t m.ty || m.srcB.shapesBad t m.ty || decide (m.srcA.cnt * m.ra < m.rows) || decide (m.srcB.cnt * m.cb < m.cols) ||
    decide (m.kt % chunkSize m.ty ≠ 0) ||
    (if m.sparse then decide (m.ty ≠ 0) || decide (2 * ca ≠ m.kt) || decide (t.nmeta ≤ m.mslot) ||
        decide ((t.nmeta - m.mslot) * 2048 < m.steps * m.metaStep)
     else decide (ca ≠ m.kt))

/-- Base, row stride, column stride and element size of the window (R356). -/
def Mma.accBase (m : Mma) : Nat := m.field 0 0 64
def Mma.accRow (m : Mma) : Nat := m.field 1 32 32
def Mma.accCol (m : Mma) : Nat := m.field 4 32 32
def Mma.eltBytes (m : Mma) : Nat := if m.ty = 2 then 8 else 4

/-- Address of accumulator element (i, j). -/
def Mma.eltAddr (m : Mma) (i j : Nat) : Nat := m.accBase + i * m.accRow + j * m.accCol

/-- Step 6 of R364: alignments and strides of R356. -/
def Mma.step6Bad (m : Mma) : Bool :=
  let e := m.eltBytes
  decide (m.accBase % e ≠ 0) || decide (m.accRow % e ≠ 0) || decide (m.accCol % e ≠ 0) || decide (m.accCol < e) ||
    !(decide (m.cols * m.accCol ≤ m.accRow) || decide (m.rows * m.accRow ≤ m.accCol))

/-- The range that holds the window (R356). -/
def Mma.rangeIn (m : Mma) (s : State) (isl : Nat) : Option Range :=
  s.ranges.find? (fun r => decide (r.isl = isl) && decide (r.launch = m.launch) && r.live && decide (r.base ≤ m.accBase) &&
    decide (m.eltAddr (m.rows - 1) (m.cols - 1) + m.eltBytes ≤ r.base + r.len))

/-- Step 7 of R364. -/
def Mma.step7Bad (m : Mma) (s : State) (isl : Nat) : Bool :=
  match m.rangeIn s isl with
  | none => true
  | some r => (r.fmt64 != decide (m.ty = 2)) || (r.ord != decide (m.field 1 6 1 = 1))

/-! ### MMAI -/

/-- The operation a thread's MMAI asks for. -/
def Thr.mma (e : Thr) (a : BitVec 7) : Mma := mmaOf e.team (paramBlock e.team e.g e.s.nextId (e.ladr a % 2 ^ 19))

/-- The checks of R364, in its order. -/
def mmaChecks (u : Bool) (a : BitVec 7) (s : State) (l : Lane) (g : Group) : Option Trap :=
  let adr := fun (e : Thr) => e.ladr a
  firstFail s l g u
    [ fun e => if decide (adr e / 2 ^ 19 % 2 = 1) then some { code := Code.localRange, addr := adr e } else chkLocal adr 1 e,
      chkAlign adr 64,
      chkTileIf (fun e => (e.mma a).step3Bad e.team),
      chkTileIf (fun e => (e.mma a).step4Bad e.team),
      failIf (fun e => decide (2 ^ 57 ≤ (e.mma a).accBase)) Code.addrRange (fun e => (e.mma a).accBase),
      failIf (fun e => (e.mma a).step6Bad) Code.alignFault (fun e => (e.mma a).accBase),
      failIf (fun e => (e.mma a).step7Bad e.s (e.l.core / 256)) Code.accFormat (fun e => (e.mma a).accBase) ]

/-- Operations of a group that are in its operation queue (R354). -/
def State.mmaQueued (s : State) (L T G : Nat) : Nat :=
  (s.mmas.filter (fun m => m.launch == L && m.team == T && m.gnum == G && m.issued && decide (m.fired < m.steps))).length

/-- Append an operation: it enters its group's queue, or waits for room (R354). -/
def State.pushMma (s : State) (m : Mma) : State :=
  let room := decide (s.mmaQueued m.launch m.team m.gnum < 8) &&
    s.mmas.all (fun x => !(x.launch == m.launch && x.team == m.team && x.gnum == m.gnum) || x.issued)
  { s with nextId := s.nextId + 1, mmas := s.mmas ++ [{ m with id := s.nextId, issued := room }] }

/-- The read of a parameter block, a local-store load in its group's program order (R208, R369), has still to wait: an
earlier LDL, TLD.ob or atomic of the group has not performed, or an acquire is not complete (R201, R361). Once the team
halts, it no longer waits for accesses held on their pages, which nothing bounds (R171). (DEDUCED, log 76) -/
def State.blockWaits (s : State) (g : Group) : Bool :=
  let runs := ((s.team? g.launch g.team).map (fun t => decide (t.ctx = .run))).getD false
  g.stream.any (fun e => match e.kind with
    | .load _ _ => true
    | _ => false) ||
  !s.slotsRead g.launch g.team g.gnum s.nextId ||
  s.ops.any (fun o => o.ofGroup g.launch g.team g.gnum && ((o.acq && !o.acqDone) || (o.kind.isAtom && !o.accs.all Access.performed)) &&
    (runs || !o.accs.any Access.stuck))

/-- What an MMAI that passes its checks does (R354, R364). -/
def State.startMmai (s : State) (l : Lane) (g : Group) (a : BitVec 7) (u : Bool) : State :=
    let s1 : State := { s with nextId := s.nextId + 1, ops := s.ops ++ [{ l.start s .mmai u with srcs := srcOf g a 1 }] }
    (l.execThreads u).foldl (fun s1 t =>
      let e := thr s l g t
      let m := e.mma a
      let r := m.rangeIn s (l.core / 256)
      s1.pushMma { m with
        op := s.nextId
        gnum := l.gnum
        thread := t
        pb := e.ladr a
        range := (r.map (·.id)).getD 0
        trs := (r.map (·.trs)).getD [] }) s1

/-- MMAI (R364, R369): it waits in the lane until its parameter block may be read. -/
def execMmai (x a z : BitVec 7) (u : Bool) (s : State) : Out :=
  match s.lanes with
  | [] => .fault .noLane
  | l :: _ =>
    match s.laneGroup? l with
    | none => .fault .noLane
    | some g =>
      if (checkWord (.mmai x a z u) s l g).isNone && s.blockWaits g then .next (s.modLane (fun k => { k with stalled := true }))
      else runWord (.mmai x a z u) (mmaChecks u a) (fun s l g => s.startMmai l g a u) s

/-- Operations whose parameter block no longer holds what they read of it are broken (R354). -/
def State.checkBlocks (s : State) : State :=
  { s with mmas := s.mmas.map (fun m =>
      match s.team? m.launch m.team, s.group? m.launch m.team m.gnum with
      | some t, some g => if m.broken || decide (paramBlock t g m.op (localOff m.pb) = m.block) then m else { m with broken := true }
      | _, _ => m) }

/-- MMAI_QUEUE_ENTRY (R354): subject the operation. The oldest that waits enters its group's queue. -/
def execMmaiQueueEntry (s : State) : Out :=
  event s (match s.mmas.find? (fun m => m.id == s.sub 0) with
    | none => none
    | some m =>
      let first := (s.mmas.find? (fun x => x.launch == m.launch && x.team == m.team && x.gnum == m.gnum && !x.issued)).map (·.id)
      if first = some m.id ∧ s.mmaQueued m.launch m.team m.gnum < 8 then
        some { s with mmas := updWhere (fun x => x.id == m.id) (fun x => { x with issued := true }) s.mmas }
      else none)

/-! ### k-steps -/

/-- Ring position of the first tile of step k's panel (R353). (DEDUCED, log 29) -/
def Panel.pos (p : Panel) (c0 k : Nat) : Nat := (c0 + k * p.cnt) % 65536

/-- c0 of a source: fixed once its first k-step has fired (R353). (DEDUCED, log 29) -/
def startOf (t : Team) (p : Panel) (c0 : Option Nat) : Nat := c0.getD (t.ring p.num).c

/-- The tiles of the panel of step k. -/
def Panel.stepTiles (p : Panel) (t : Team) (c0 k : Nat) : List Nat :=
  if p.ring then (List.range p.cnt).map (fun i => (t.ring p.num).tileAt ((p.pos c0 k + i) % 65536)) else p.tiles t

/-- Conditions 1 and 2 of R353 for one source: the panel of step k is ready. With KEEP 0 the panel starts at C, so that the
distance is taken from there: the rule's own form, from c0, has no room for more than 2^16 tiles. (DEDUCED, log 29) -/
def Panel.ready (p : Panel) (t : Team) (c0 k : Nat) : Bool :=
  if p.ring then
    let r := t.ring p.num
    if p.keep then decide ((k + 1) * p.cnt ≤ (r.p + 65536 - c0 % 65536) % 65536)
    else decide (p.cnt ≤ (r.p + 65536 - p.pos c0 k) % 65536)
  else (p.tiles t).all (fun n => decide ((t.tile n).st = .ready))

/-- Operations on core c in their order of issue. -/
def State.mmasOn (s : State) (c : Nat) : List Mma := s.mmas.filter (fun m => s.coreOf m.launch m.team == c)

/-- Conditions 1, 2, 3 and 5 of R353: the next k-step could fire but for the governor. -/
def State.stepReady (s : State) (m : Mma) : Bool :=
  match s.team? m.launch m.team with
  | none => false
  | some t =>
    let k := m.fired
    let done := fun (j : Nat) => (List.range (m.chunkOf (j + 1) - m.chunkOf j)).all (fun i => m.accepted.contains (m.chunkOf j + i))
    m.issued && decide (k < m.steps) && decide (t.ctx = .run) &&
      m.srcA.ready t (startOf t m.srcA m.c0a) k && m.srcB.ready t (startOf t m.srcB m.c0b) k &&
      (decide (k < 2) || done (k - 2)) &&
      -- the operations of a team that share a ring go in their order of issue
      s.mmas.all (fun x => !(x.launch == m.launch && x.team == m.team && decide (x.id < m.id) && decide (x.fired < x.steps) &&
        [m.srcA, m.srcB].any (fun p => p.ring && x.readsRing p.num)))

/-- Format of the inputs (R349). -/
def Mma.inFmt (m : Mma) : Fmt := if m.ty = 0 then .bf16 else if m.ty = 1 then .f32 else .f64

/-- Panel element (i, k) of A: row i of the stacked tiles (R351). -/
def Mma.aElem (m : Mma) (t : Team) (tiles : List Nat) (i col : Nat) : Nat :=
  let x := t.tile (tiles.getD (i / m.ra) 0)
  x.elem (i % m.ra * shapeCols x.shape + col)

/-- Panel element (k, j) of B: column j of the tiles side by side (R351). -/
def Mma.bElem (m : Mma) (t : Team) (tiles : List Nat) (k j : Nat) : Nat :=
  let x := t.tile (tiles.getD (j / m.cb) 0)
  x.elem (k * shapeCols x.shape + j % m.cb)

/-- The metadata nibble of row i and group q of step s (R357). -/
def Mma.nibble (m : Mma) (t : Team) (s i q : Nat) : Nat :=
  let n := i * (m.kt / 4) + q
  let b := (Cells.get 0 t.metas (2048 * m.mslot + s * m.metaStep + n / 2)).toNat
  if n % 2 = 0 then b % 16 else b / 16

/-- The A terms of row i in a chunk of step s, as (k within the step, bits): all k, or for 2:4 sparsity those the
metadata selects (R351, R357). -/
def Mma.aTerms (m : Mma) (t : Team) (tiles : List Nat) (s i lo hi : Nat) : List (Nat × Nat) :=
  if !m.sparse then (List.range (hi - lo)).map (fun x => (lo + x, m.aElem t tiles i (lo + x)))
  else
    (List.range ((hi - lo + 3) / 4)).flatMap (fun x =>
      let q := lo / 4 + x
      let n := m.nibble t s i q
      ([(4 * q + n % 4, m.aElem t tiles i (2 * q)), (4 * q + n / 4, m.aElem t tiles i (2 * q + 1))] : List (Nat × Nat)).filter
        (fun y => decide (y.1 < hi)))

/-- Some nibble of the row in this step has i0 ≥ i1 (R357). -/
def Mma.rowBad (m : Mma) (t : Team) (s i : Nat) : Bool :=
  m.sparse && (List.range (m.kt / 4)).any (fun q => let n := m.nibble t s i q
    decide (4 * (s * (m.kt / 4) + q) < m.depth) && decide (n / 4 ≤ n % 4))

/-- An exact sum of products, rounded once (R95). -/
def exactDot (out : Fmt) (ps : List FVal) : Nat :=
  match ps with
  | [] => 0
  | p :: rest => out.round .rne (rest.foldl (fun a b => a.add .rne b) p)

/-- The contribution of chunk j of step s (R95, R352, R356); `tainted`: a source register of the MMAI was written too early
(R101). -/
def chunkContrib (m : Mma) (t : Team) (tainted : Bool) (ta tb : List Nat) (k j id : Nat) : Contrib :=
  let size := chunkSize m.ty
  let lo := j * size - k * m.kt
  let hi := min (lo + size) (m.depth - k * m.kt)
  let out := if m.ty = 2 then Fmt.f64 else Fmt.f32
  let elems := (List.range m.rows).flatMap (fun i =>
    let terms := m.aTerms t ta k i lo hi
    let bad := m.broken || tainted || m.rowBad t k i
    (List.range m.cols).map (fun c =>
      (m.eltAddr i c,
       exactDot out (terms.map (fun x => (m.inFmt.decode x.2).mul (m.inFmt.decode (m.bElem t tb x.1 c)))), bad)))
  { id := id, launch := m.launch, team := m.team, gnum := m.gnum, isl := t.core / 256, range := m.range
    seq := (m.field 1 16 16 + j) % 65536, ord := decide (m.field 1 6 1 = 1), elems := elems, bad := m.broken, trs := m.trs, op := m.op
    mma := m.id, chunk := j, wide := decide (m.ty = 2) }

/-- Fire the next k-step: its reads of the tiles begin, and what its chunks hold is fixed (R348, R353, R370). -/
def State.fireStep (s : State) (m : Mma) (t : Team) : State :=
  let k := m.fired
  let ca := startOf t m.srcA m.c0a
  let cb := startOf t m.srcB m.c0b
  let ta := m.srcA.stepTiles t ca k
  let tb := m.srcB.stepTiles t cb k
  let js := (List.range (m.chunkOf (k + 1) - m.chunkOf k)).map (fun i => m.chunkOf k + i)
  let cs := js.zipIdx.map (fun x => chunkContrib m t ((s.op? m.op).any (·.tainted)) ta tb k x.1 (s.nextId + x.2))
  let s1 := (ta ++ tb).foldl (fun s n => s.modTile m.launch m.team n (fun x => { x with readers := x.readers + 1 })) s
  { s1.modCore t.core (fun c => { c with window := c.window + 1 }) with
    nextId := s.nextId + js.length
    contribs := s1.contribs ++ cs
    mmas := updWhere (fun x => x.id == m.id)
      (fun x => { x with fired := k + 1, c0a := some ca, c0b := some cb, reading := x.reading ++ [k], stalled := false }) s1.mmas }

/-- The 64-clk window of the clock count in which a core is now (R360). -/
def State.windowNow (s : State) (c : Nat) : Nat := (s.die (dieOfCore c)).clk / 640

/-- KSTEP_FIRE (R353, R360): subject the operation. A step that finds the window's budget spent waits, and is counted
once; a window that has begun is first opened by GOVERNOR_WINDOW. -/
def execKstepFire (s : State) : Out :=
  event s (match s.mmas.find? (fun m => m.id == s.sub 0) with
    | none => none
    | some m =>
      match s.team? m.launch m.team with
      | none => none
      | some t =>
        let c := s.core t.core
        if !s.stepReady m || decide (c.windowAt ≠ s.windowNow t.core) then none
        else if c.capNow = 0 then some (s.fireStep m t)
        else if c.capNow ≤ c.window then
          if m.stalled then none
          else some { s.modTeam m.launch m.team (fun t => { t with gstall := (t.gstall + 1) % 65536 }) with
            mmas := updWhere (fun x => x.id == m.id) (fun x => { x with stalled := true }) s.mmas }
        else if (s.mmasOn t.core).any (fun x => decide (x.id < m.id) && s.stepReady x) then none
        else some (s.fireStep m t))

/-- KSTEP_READS_COMPLETE (R352, R353): subject the operation. Its oldest step in progress has read its tiles: they are
released unless KEEP, and its chunks leave. -/
def execKstepReadsComplete (s : State) : Out :=
  event s (match s.mmas.find? (fun m => m.id == s.sub 0) with
    | none => none
    | some m =>
      match m.reading, s.team? m.launch m.team with
      | k :: rest, some t =>
        let tiles := m.srcA.stepTiles t (startOf t m.srcA m.c0a) k ++ m.srcB.stepTiles t (startOf t m.srcB m.c0b) k
        let free := fun (p : Panel) (t : Team) =>
          if p.ring && !p.keep then (List.range p.cnt).foldl (fun t _ => t.release p.num) t else t
        let s1 := s.modTeam m.launch m.team (fun t =>
          free m.srcB (free m.srcA (tiles.foldl (fun t n => t.modTile n Tile.readerDone) t)))
        some { s1 with
          contribs := updWhere (fun c => c.mma == m.id && decide (m.chunkOf k ≤ c.chunk) && decide (c.chunk < m.chunkOf (k + 1)))
            (fun c => { c with sent := true }) s1.contribs
          mmas := updWhere (fun x => x.id == m.id) (fun x => { x with reading := rest, readDone := k + 1 }) s1.mmas }
      | _, _ => none)

/-- Everything R354 asks before the flag of MMAI falls, for one operation. -/
def Mma.over (m : Mma) : Bool := decide (m.steps ≤ m.fired) && m.reading.isEmpty && decide (m.chunks ≤ m.accepted.length)

/-- The cap of the window that core c is in: KCAP as it stood when the window began (R360). -/
def State.capFor (s : State) (c : Nat) : Nat :=
  (if (s.core c).kcapAt = s.windowNow c then (s.core c).kcapWas else (s.core c).kcap).toNat

/-- GOVERNOR_WINDOW (R359, R360): subject the core. The window of 64 clk that the core's clock count is in is opened, under
its cap. -/
def execGovernorWindow (s : State) : Out :=
  event s (if (s.core (s.sub 0)).windowAt = s.windowNow (s.sub 0) then none
    else some (s.modCore (s.sub 0) (fun c => { c with window := 0, capNow := s.capFor (s.sub 0), windowAt := s.windowNow (s.sub 0) })))

end Sys2Proof.Machine
end

