-- ==== Sys2Proof/Machine/Walk.lean ====
section
/-!
DEFINITION. Walk.lean: the wait-for table and its walk (R23, R28, R282, R312 to R314).
-/
namespace Sys2Proof.Machine

/-! ### Entries -/

/-- The wait of a group on pending closes: the ranges whose close its next clause waits for (R282). -/
def State.closeWaits (s : State) (g : Group) (t : Team) : List WaitOn :=
  if s.lanes.any (fun l => l.launch == g.launch && l.team == g.team && l.gnum == g.gnum) then []
  else match g.issueAddr with
    | none => []
    | some pc => match s.fetchClause t.core g.launch pc with
      | .ok c => (s.opsOf g.launch g.team g.gnum).flatMap (fun o => match o.kind with
        | .accClose _ => if decide (o.flag < 12) && c.hdr.wait.getLsbD o.flag then
            (s.ranges.filter (fun r => decide (r.closer = o.id))).map (fun r => WaitOn.range r.id) else []
        | _ => [])
      | _ => []

/-- What a group waits for that the table holds (R23, R282, R312). A group whose team is not in RUN, or that a fault
holds, has no entry (R313). -/
def State.groupWaits (s : State) (g : Group) : List WaitOn :=
  match s.team? g.launch g.team with
  | none => []
  | some t =>
    if t.ctx ≠ .run ∨ g.halt ≠ .none ∨ g.exited then []
    else match g.wait with
      | .bwait a r p => [.bar (localOff a) r p]
      | .bsync a p _ _ => [.bar (localOff a) false p]
      | .joining => []
      | .none =>
        let held := (s.opsOf g.launch g.team g.gnum).flatMap (fun o => match o.kind with
          | .accOpen => if o.accs.any (fun a => decide (a.st = .waiting)) then [WaitOn.open_ o.id] else []
          | .accScale r => if o.accs.any (fun a => decide (a.st ≠ .done) && decide (a.st ≠ .declined)) then [WaitOn.range r] else []
          | _ => [])
        held ++ s.closeWaits g t

/-- The die of team 0, which holds a launch's dispenser. -/
def Launch.homeDie (x : Launch) : Nat := dieOfCore (x.cores.headD 0)

/-- Every team of the launch has exited. -/
def State.allExited (s : State) (x : Launch) : Bool :=
  (List.range x.cores.length).all (fun i => ((s.team? x.num i).map (·.exited)).getD true)

/-- Ring r of a team holds an unfinished entry, and is not stopped (R313, R336). -/
def State.ringLive (s : State) (L T r : Nat) : Bool :=
  (s.ringArea L).isSome && decide (s.ringState L T r ≠ 2) && decide (s.notify L T r ≠ s.done L T r)

/-- Every ring of the launch is idle, or stopped with nothing in flight (R336). -/
def State.ringsIdle (s : State) (L : Nat) : Bool :=
  !s.copies.any (fun c => c.launch == L) &&
    (s.teams.filter (fun t => t.launch == L)).all (fun t => t.ringWrites.isEmpty && (List.range 4).all (fun r => !s.ringLive L t.idx r))

/-- Everything the launch owes is done (R27 step 8, R336), its stores have been acknowledged (R417).
(DEDUCED, log 47) -/
def State.owesNothing (s : State) (L : Nat) : Bool :=
  s.ringsIdle L && !s.ranges.any (fun r => r.launch == L) && !s.cores.any (fun k =>
      k.sideLog.any (fun e => e.launch == L) || k.path.any (fun e => e.launch == L)) &&
    !s.fabs.any (fun f => f.launch == L && !f.over s) && !s.ops.any (fun o => o.launch == L && decide (o.kind ≠ .pref)) &&
    !s.contribs.any (fun c => c.launch == L) && !s.gangQ.any (fun q => q.launch == L) &&
    !s.arrivals.any (fun a => a.launch == L && a.fab != 0) &&
    s.groups.all (fun g => decide (g.launch ≠ L) || (g.sq.isEmpty && g.stream.isEmpty))

/-- The table: every waiting group, and every launch that waits to retire (R28, R312). -/
def State.waitTable (s : State) : List WaitEntry :=
  s.groups.flatMap (fun g => (s.groupWaits g).map (fun w =>
    ({ launch := g.launch, team := g.team, gnum := g.gnum, on := w } : WaitEntry))) ++
  s.launches.filterMap (fun x =>
    if decide (x.phase = .placed ∨ x.phase = .retiring) && s.allExited x && !x.stopping && !x.cores.isEmpty &&
        !s.owesNothing x.num then
      some { launch := x.num, team := 0, gnum := 0, on := .retire } else none)

/-- The die whose command core keeps an entry. -/
def State.tableDie (s : State) (e : WaitEntry) : Nat :=
  match e.on with
  | .retire => ((s.launch? e.launch).map (·.homeDie)).getD 0
  | _ => dieOfCore (s.coreOf e.launch e.team)

/-! ### Signallers -/

/-- The signallers of an object: whether one is live whatever the table holds, and the groups among them (R312, R313). -/
structure Signallers where
  live : Bool := false
  groups : List (Nat × Nat × Nat) := []

def Signallers.join (a b : Signallers) : Signallers := { live := a.live || b.live, groups := a.groups ++ b.groups }

/-- The unexited groups that satisfy `p`. -/
def State.groupsWhere (s : State) (p : Group → Bool) : List (Nat × Nat × Nat) :=
  (s.groups.filter (fun g => !g.exited && p g)).map (fun g => (g.launch, g.team, g.gnum))

/-- A fabric operation is live: until its flag has fallen and every count it owes has been delivered (R396). -/
def FabOp.live (f : FabOp) (s : State) : Bool := !f.over s || (s.op? f.op).isSome

/-- Fabric operations of a team are in flight (R313, R396). -/
def State.fabLive (s : State) (L T : Nat) : Bool := s.fabs.any (fun f => f.launch == L && f.team == T && f.live s)

/-- The launch is a gang. -/
def Launch.gang (x : Launch) : Bool := decide (x.bits 2 52 1 = 1)

/-- Signallers of a range (R282). -/
def State.rangeSignallers (s : State) (r : Range) : Signallers :=
  let gang := ((s.launch? r.launch).map (·.gang)).getD false
  { live := s.mmas.any (fun m => decide (m.range = r.id) && !m.over)
    groups := s.groupsWhere (fun g => g.launch == r.launch && (gang || decide (s.coreOf g.launch g.team / 256 = r.isl))) }

/-- The ranges that hold units in the banks that a held ACCOPEN needs (R282). -/
def State.rivals (s : State) (o : Op) : List Range :=
  let banks := (o.accs.filter (fun a => decide (a.st = .waiting))).flatMap (fun a => ((s.wantedRange o a).map (fun r => r.banks s)).getD [])
  s.ranges.filter (fun r => r.live && (r.banks s).any (fun b => banks.contains b))

/-- Matrix operations and reductions in flight that can still contribute to a range (R28). -/
def State.canContribute (s : State) (r : Range) : Bool :=
  s.mmas.any (fun m => decide (m.range = r.id) && !m.over) || s.contribs.any (fun c => decide (c.range = r.id)) ||
    s.groups.any (fun g => g.launch == r.launch && g.sq.any (fun e => decide (e.kind = .contrib r.id) || decide (e.kind = .scale r.id))) ||
    s.ops.any (fun o => o.launch == r.launch && decide (o.kind = .red) &&
      o.accs.any (fun a => a.pending && decide (r.base ≤ a.va) && decide (a.va < r.base + r.len)))

/-- Other work of an exited launch that moves by itself: its stores, local stores, arrivals (R28, R417). (DEDUCED, log 54) -/
def State.moves (s : State) (L : Nat) : Bool :=
  s.cores.any (fun k => k.path.any (fun e => e.launch == L)) || s.gangQ.any (fun q => q.launch == L) ||
    s.arrivals.any (fun a => a.launch == L && a.fab != 0) ||
    s.groups.any (fun g => g.launch == L && (!g.stream.isEmpty || g.sq.any (fun e => match e.kind with
      | .contrib _ => false
      | .scale _ => false
      | _ => true))) ||
    s.ops.any (fun o => o.launch == L && (match o.kind with
      | .red => false
      | .accScale _ => false
      | .accClose _ => false
      | .accOpen => false
      | .mmai => false
      | .pref => false
      | _ => true))

/-- Signallers of what an entry waits for (R28, R282, R312, R396). -/
def State.signallers (s : State) (e : WaitEntry) : Signallers :=
  let L := e.launch
  match e.on with
  | .bar off remote _ =>
    match s.team? L e.team with
    | none => {}
    | some t =>
      if remote then { groups := s.groupsWhere (fun g => g.launch == L && decide (some g.team = t.partner)) }
      else
        let gset := t.readNum (off + 24) 8
        { live := (List.range 4).any (fun r => decide (t.bar off 2 r 1 = 1) && s.ringLive L e.team r) ||
            (decide (t.bar off 2 4 1 = 1) && s.fabLive L e.team)
          groups := s.groupsWhere (fun g => g.launch == L && g.team == e.team && decide (gset / 2 ^ g.gnum % 2 = 1)) ++
            (if t.bar off 2 5 1 = 1 ∧ ((s.launch? L).map (·.gang)).getD false then
              s.groupsWhere (fun g => g.launch == L && g.team != e.team) else []) }
  | .range i => match s.ranges.find? (fun r => decide (r.id = i)) with
    | none => {}
    | some r => s.rangeSignallers r
  | .open_ i =>
    match s.op? i with
    | none => {}
    | some o =>
      (s.rivals o).foldl (fun a r => a.join (s.rangeSignallers r)) {}
  | .retire =>
    let asked := fun (isl page : Nat) => s.mapReqs.any (fun q => decide (q.launch = L) && decide (q.isl = isl) && decide (q.page = page))
    { live :=
        (s.teams.filter (fun t => decide (t.launch = L))).any (fun t => (List.range 4).any (fun r => s.ringLive L t.idx r)) ||
        s.fabs.any (fun f => decide (f.launch = L) && f.live s) || s.moves L ||
        s.cores.any (fun k => k.sideLog.any (fun x => decide (x.launch = L) && (x.replay.isSome || asked (k.id / 256) x.page))) ||
        s.dies.any (fun x => (x.inbound ++ x.inbound2).any (fun x => decide (x.launch = L) && asked x.isl x.page)) ||
        s.ranges.any (fun r => decide (r.launch = L) && decide (r.closer ≠ 0) && s.canContribute r) }

/-- A signaller of the entry can still act, given the entries still taken for stuck (R313). -/
def State.canStill (s : State) (table stuck : List WaitEntry) (e : WaitEntry) : Bool :=
  let g := s.signallers e
  let on := fun (l : List WaitEntry) (k : Nat × Nat × Nat) =>
    l.any (fun x => decide (x.on ≠ .retire) && x.launch == k.1 && x.team == k.2.1 && x.gnum == k.2.2)
  g.live || g.groups.any (fun k => !on table k || !on stuck k)

/-- Remove entries that something can still release, until nothing changes (R313). -/
def stuckLoop (s : State) (table : List WaitEntry) : Nat → List WaitEntry → List WaitEntry
  | 0, l => l
  | n + 1, l =>
    let l1 := l.filter (fun e => !s.canStill table l e)
    if l1.length = l.length then l else stuckLoop s table n l1

/-- The entries stuck now. -/
def State.stuckNow (s : State) : List WaitEntry :=
  let t := s.waitTable
  stuckLoop s t t.length t

/-! ### The walk -/

/-- What changes when an operation is applied to a range an entry waits for, or to one of them. -/
def State.objectMark (s : State) (e : WaitEntry) : Nat :=
  let mark := fun (r : Range) => r.remain + 2 ^ 32 * r.pool.length + 2 ^ 48 * r.seqNext
  match e.on with
  | .range i => ((s.ranges.find? (fun r => decide (r.id = i))).map mark).getD 0
  | .open_ i => ((s.op? i).map (fun o => (s.rivals o).foldl (fun n r => n * 2 ^ 64 + r.id + mark r) 1)).getD 0
  | _ => 0

/-- When the wait of an entry began: for one of R282, when its operation issued, for a retirement entry, before any walk.
(DEDUCED, log 54) -/
def State.waitBegan (s : State) (e : WaitEntry) : Nat :=
  match e.on with
  | .bar _ _ _ => ((s.group? e.launch e.team e.gnum).map (·.wsince)).getD 0
  | .open_ i => ((s.op? i).map (·.born)).getD 0
  | .range i => ((s.opsOf e.launch e.team e.gnum).filter (fun o => match o.kind with
      | .accScale r => decide (r = i)
      | .accClose _ => (s.ranges.find? (fun r => decide (r.id = i))).any (fun r => decide (r.closer = o.id))
      | _ => false)).foldl (fun n o => max n o.born) 0
  | .retire => 0

/-- Same waiter and same wait. -/
def WaitEntry.same (a b : WaitEntry) : Bool := a.launch == b.launch && a.team == b.team && a.gnum == b.gnum && decide (a.on = b.on)

/-- Groups that group k of the stuck entries waits on, among those stuck. -/
def State.waitsOn (s : State) (stuck : List WaitEntry) (k : Nat × Nat × Nat) : List (Nat × Nat × Nat) :=
  let own := stuck.filter (fun e => decide (e.on ≠ .retire) && e.launch == k.1 && e.team == k.2.1 && e.gnum == k.2.2)
  let isStuck := fun (h : Nat × Nat × Nat) => stuck.any (fun e => decide (e.on ≠ .retire) && e.launch == h.1 && e.team == h.2.1 && e.gnum == h.2.2)
  (own.flatMap (fun e => (s.signallers e).groups)).filter isStuck

/-- Groups reached in n rounds. -/
def reachLoop (next : Nat × Nat × Nat → List (Nat × Nat × Nat)) : Nat → List (Nat × Nat × Nat) → List (Nat × Nat × Nat)
  | 0, l => l
  | n + 1, l =>
    let l1 := (l ++ l.flatMap next).eraseDups
    if l1.length = l.length then l else reachLoop next n l1

/-- The groups reached from a group by one step or more. -/
def State.reached (s : State) (stuck : List WaitEntry) (k : Nat × Nat × Nat) : List (Nat × Nat × Nat) :=
  reachLoop (s.waitsOn stuck) (stuck.length + 1) ((s.waitsOn stuck k).eraseDups)

/-- The groups of the cycle of a group: those it reaches that reach it. -/
def State.cycleOf (s : State) (stuck : List WaitEntry) (k : Nat × Nat × Nat) : List (Nat × Nat × Nat) :=
  (s.reached stuck k).filter (fun h => (s.reached stuck h).contains k)

/-- Extension entries of WAIT_CYCLE: one for each group of the cycle, with THREAD 0 (R166, R314). -/
def State.cycleExt (s : State) (ks : List (Nat × Nat × Nat)) : List (Nat × Nat × Nat × Nat × Word) :=
  ks.filterMap (fun k => match s.group? k.1 k.2.1 k.2.2, s.team? k.1 k.2.1 with
    | some g, some t => (g.thr.head?).map (fun h => (0, match h.st with
        | .run => 0
        | .park => 1
        | .wait => 2
        | .done => 3, h.pc.toNat, 64 * t.slot + g.gnum, (0 : Word)))
    | _, _ => none)

/-- ADDR of an orphan: the barrier's local address, or the base of the range (R314). -/
def State.orphanAddr (s : State) (e : WaitEntry) : Nat :=
  match e.on with
  | .bar off _ _ => off
  | .range i => ((s.ranges.find? (fun r => decide (r.id = i))).map (·.base)).getD 0
  | .open_ i => ((s.op? i).bind (fun o => (o.accs.find? (fun a => decide (a.st = .waiting))).map (·.va))).getD 0
  | .retire => ((s.ranges.find? (fun r => decide (r.launch = e.launch) && (r.live || decide (r.st = .saved)))).map (·.base)).getD 0

/-- Report an entry found stuck in two walks (R28, R314). -/
def State.reportWait (s : State) (stuck : List WaitEntry) (e : WaitEntry) : State :=
  match e.on with
  | .retire => s.raiseLaunch e.launch 0 Code.waitOrphan Cls.launch (s.orphanAddr e) 0
  | on =>
    let k := (e.launch, e.team, e.gnum)
    match s.group? e.launch e.team e.gnum with
    | none => s
    | some g =>
      if g.halt ≠ .none then s
      else
        let cycle := s.cycleOf stuck k
        let held := match on with
          | .bar _ _ _ => g
          | _ => { g with wclause := g.issueAddr.getD 0, wmask := g.issuing (g.issueAddr.getD 0) }
        if cycle.contains k then s.raiseWait held Code.waitCycle 0 0 (s.cycleExt cycle)
        else s.raiseWait held Code.waitOrphan (s.orphanAddr e) 0 []

/-- Entries by ascending team slot, then group number, the order in which one walk hands in the records of several groups
(R170); those of launches last. -/
def State.entriesBySlot (s : State) (es : List WaitEntry) : List WaitEntry :=
  let slot := fun (e : WaitEntry) => if e.on = .retire then none else (s.team? e.launch e.team).map (·.slot)
  (List.range 4).flatMap (fun k => (List.range 64).flatMap (fun n =>
    es.filter (fun e => decide (slot e = some k) && decide (e.gnum = n)))) ++ es.filter (fun e => (slot e).isNone)

/-- WAIT_FOR_WALK (R314): subject the die. It runs every 100 µs, and when an entry has waited 50 µs since. Its entries that
are stuck now, and were stuck in a walk 100 µs ago or more with nothing applied to their objects since, are reported by team
slot and group (R170); the other stuck ones are remembered. -/
def execWaitForWalk (s : State) : Out :=
  event s (
    let d := s.sub 0
    let x := s.die d
    let old := decide (x.lastWalk + 50000 ≤ s.now) &&
      s.waitTable.any (fun e => decide (s.tableDie e = d) && decide (s.waitBegan e + 50000 ≤ s.now))
    if s.now < x.lastWalk + 100000 ∧ !old then none
    else
      let stuck := s.stuckNow
      let mine := stuck.filter (fun e => decide (s.tableDie e = d))
      let timed := mine.map (fun e =>
        match x.waits.find? (fun w => w.same e && decide (w.mark = s.objectMark e)) with
        | some w => { e with stuckAt := w.stuckAt, mark := w.mark }
        | none => { e with stuckAt := some s.now, mark := s.objectMark e })
      let due := timed.filter (fun e => decide (e.stuckAt.getD s.now + 100000 ≤ s.now))
      let s1 := s.modDie d (fun x => { x with lastWalk := s.now, waits := timed.filter (fun e => !due.contains e) })
      some ((s1.entriesBySlot due).foldl (fun s e => s.reportWait stuck e) s1))

end Sys2Proof.Machine
end

