-- ==== Sys2Proof/Machine/Life.lean ====
section
/-!
DEFINITION. Life.lean: the life of a launch at the command engine: queue descriptors (R400 to R404), records and logs
(R165, R410, R411), what a core and a die have left (R13, R259, R261), stopping, completing and freeing (R27, R28, R168).
-/
namespace Sys2Proof.Machine

/-! ### Queue descriptors -/

/-- A field of word k of queue q's descriptor (R400, R401). -/
def State.qfield (s : State) (q k lo n : Nat) : Nat := fieldOf (s.homeNum (s.mailbox + 64 * q + 8 * k) 8) lo n

/-- STATE (R401). -/
def State.qstate (s : State) (q : Nat) : Nat := s.qfield q 5 0 2

/-- Write bytes of the descriptor. -/
def State.setQ (s : State) (q off : Nat) (bs : List Byte) : State := s.cmdWrite (s.mailbox + 64 * q + off) bs

/-- RPTR (R401). -/
def State.rptr (s : State) (q : Nat) : Nat := s.qfield q 2 32 32
def State.setRptr (s : State) (q v : Nat) : State := s.setQ q 20 (bytesOf v 4)

/-- Change the command engine's place in a queue. -/
def State.modQueue (s : State) (q : Nat) (f : Queue → Queue) : State := { s with queues := updWhere (fun x => x.q == q) f s.queues }

/-- The die whose command core receives queue q (R399, R426). -/
def State.recvCore (s : State) (q : Nat) : Nat :=
  if s.mailboxMoved then 59 else if s.qfield q 0 41 1 = 1 then 59 else 0

/-- What a packet of the queue waits for is given up: an armed watch entry, an accepted bank-role command. Its page changes
go on, tied to no packet any more. -/
def State.dropWait (s : State) (q : Nat) : State :=
  { s with
    changes := updWhere (fun c => c.queue == q) (fun c => { c with queue := 256 }) s.changes
    dies := s.dies.map (fun x => { x with
      watch := x.watch.filter (fun w => w.queue != q)
      bankCmd := x.bankCmd.filter (fun b => b.1 != q) }) }

/-- Halt a queue: STATE 2, ERR and ERRIX (R402, R404). The queues that a moved window has lost have no descriptor
(R426). -/
def State.haltQueue (s : State) (q err ix : Nat) : State :=
  if 256 ≤ q then s
  else
    let keep := s.qfield q 5 2 6
    ((s.dropWait q).setQ q 40 (BitVec.ofNat 8 (4 * keep + 2) :: BitVec.ofNat 8 err :: bytesOf ix 4)).modQueue q (fun x =>
      { x with stalled := false, busy := none })

/-! ### Records -/

/-- The eight words of a fault record (R165). -/
def Record.words (r : Record) : List Nat :=
  [ r.issuing.toNat * 2 ^ 32 + r.index % 32 * 2 ^ 27 + r.cls % 8 * 2 ^ 24 + r.arg % 128 * 2 ^ 16 + r.code % 2 ^ 16,
    r.claddr % 2 ^ 57, r.addr % 2 ^ 64,
    r.thread % 32 * 2 ^ 40 + r.slot % 4 * 2 ^ 38 + r.gnum % 64 * 2 ^ 32 + r.gtag.toNat,
    r.team % 2 ^ 13 * 2 ^ 32 + r.launch % 2 ^ 32,
    r.detail.toNat * 2 ^ 32 + r.core % 2 ^ 13, r.time % 2 ^ 64,
    r.ptrap % 4 * 2 ^ 30 + r.parg % 128 * 2 ^ 23 + r.ext.length % 2 ^ 16 ]

/-- Append a record to the launch's trap log: the record, then the header (R411). -/
def State.trapLog (s : State) (r : Record) : State :=
  match s.launch? r.launch with
  | none => s
  | some x =>
    let base := x.bits 9 0 53
    let ovf := if 256 ≤ x.traps then x.tovf + 1 else x.tovf
    let s1 := s.cmdWrite (base + 64 + 64 * (x.traps % 256)) (wordBytes r.words)
    (s1.cmdWrite base (bytesOf (x.traps + 1) 4 ++ bytesOf ovf 4)).modLaunch x.num (fun x => { x with traps := x.traps + 1, tovf := ovf })

/-- UNDISP: in static order, the indices left in the shares of teams that have exited (R410, R414). -/
def State.undisp (s : State) (x : Launch) : Nat :=
  if x.order ≠ 3 then 0
  else (List.range x.cores.length).foldl (fun n i =>
    if ((s.team? x.num i).map (·.exited)).getD false then n + x.shareCount i else n) 0

/-- Write the completion record (R410). (DEDUCED, log 48; DEDUCED, log 57) -/
def State.complete (s : State) (x : Launch) (status reason : Nat) : State :=
  let time := s.timeOf (if x.queue < 256 then s.recvCore x.queue else 59)
  let first := if status = 4 then ((x.first.map Record.words).getD (List.replicate 8 0)) else List.replicate 8 0
  s.cmdWrite (x.bits 8 0 53) (wordBytes (
    [ (if x.late then 2 ^ 48 else 0) + reason % 256 * 2 ^ 40 + status * 2 ^ 32 + x.num % 2 ^ 32,
      x.tstart, time, x.tovf % 2 ^ 32 * 2 ^ 32 + x.traps % 2 ^ 32, x.npre % 2 ^ 32, s.undisp x % 2 ^ 48, 0, 0 ] ++ first))

/-! ### What is reserved -/

/-- The team has work of its engines in flight. -/
def State.engaged (s : State) (t : Team) : Bool :=
  s.ops.any (fun o => o.launch == t.launch && o.team == t.idx && decide (o.kind ≠ .pref)) ||
    s.copies.any (fun c => c.launch == t.launch && c.team == t.idx) ||
    s.mmas.any (fun m => m.launch == t.launch && m.team == t.idx) ||
    s.fabs.any (fun f => f.launch == t.launch && f.team == t.idx && !f.over s)

/-- The team holds its core's resources (R13, R175, R185). (DEDUCED, log 47) -/
def State.resident (s : State) (t : Team) : Bool :=
  match t.ctx with
  | .saved => false
  | .waiting => false
  | .failed => !t.image
  | _ => !t.exited || s.engaged t

/-- The teams that hold resources of a core. (DEDUCED, log 47) -/
def State.residents (s : State) (c : Nat) : List Team := s.teams.filter (fun t => decide (t.core = c) && s.resident t)

/-- A sum over a list. -/
def sumOf {α : Type} (l : List α) (f : α → Nat) : Nat := l.foldl (fun n x => n + f x) 0

/-- A core's needs of one team: register blocks, tiles, rings, metadata slots, units of local store. -/
structure Needs where
  t : Nat
  ntile : Nat
  nring : Nat
  nmeta : Nat
  nloc : Nat
  deriving DecidableEq, Repr

def Team.needs (t : Team) : Needs := { t := t.t, ntile := t.ntile, nring := t.nring, nmeta := t.nmeta, nloc := t.nloc }

/-- The needs fit beside some teams on a core, as far as its fenced parts leave it (R13, R121, R433). -/
def Core.fits (k : Core) (ts : List Team) (n : Needs) : Bool :=
  decide (sumOf ts (·.t) + n.t + k.fencedBlocks ≤ 511) && decide (sumOf ts (·.ntile) + n.ntile + k.fencedTiles ≤ 32) &&
    decide (sumOf ts (·.nring) + n.nring ≤ 8) && decide (sumOf ts (·.nmeta) + n.nmeta ≤ 8) &&
    decide (256 * (sumOf ts (·.nloc) + n.nloc) + k.fencedLocal ≤ 524288) && decide (ts.length < 4)

/-- The core can take the needs now. -/
def State.coreFits (s : State) (c : Nat) (n : Needs) : Bool := (s.core c).fits (s.residents c) n

/-- The lowest free team slot of a core. -/
def State.freeSlot (s : State) (c : Nat) : Nat :=
  ((List.range 4).find? (fun i => !(s.residents c).any (fun t => decide (t.slot = i)))).getD 0

/-- Dies that hold a team of the launch. -/
def Launch.dies (x : Launch) : List Nat := (x.cores.map dieOfCore).eraseDups

/-- The launch is placed, or saved, and keeps its reservations on its dies (R259, R261). -/
def Launch.onDies (x : Launch) : Bool := decide (x.phase = .placed) || decide (x.phase = .retiring)

/-- Operand-buffer slots and scratch bytes of a launch on each of its dies. -/
def Launch.nob (x : Launch) : Nat := x.bits 3 32 32
def Launch.scratch (x : Launch) : Nat := 65536 * x.bits 5 0 32

/-- Banks of a die in a role. -/
def Die.banksIn (x : Die) (role : Nat) : Nat := (x.brole.filter (fun b => decide (b.role = role))).length

/-- Die d can supply a launch's operand-buffer slots and scratch beside those of others (R257, R259, R261). -/
def State.dieFits (s : State) (x : Launch) (others : List Launch) (d : Nat) : Bool :=
  let on := others.filter (fun y => y.num != x.num && y.onDies && y.dies.contains d)
  decide (sumOf on Launch.nob + x.nob ≤ 3072 * (s.die d).banksIn 2) &&
    decide (sumOf on Launch.scratch + x.scratch ≤ 25165824 * (s.die d).banksIn 1)

/-! ### Stopping, freeing, completing -/

/-- Stop a launch for a record (R168); `kept`: with debug bit 1. FIRST is the first record that stopped it (R410). (DEDUCED, log 55) -/
def State.stopLaunch (s : State) (r : Record) (kept : Bool) : State :=
  s.modLaunch r.launch (fun x => { x with
    stopping := true, kept := kept, held := x.held && kept, first := x.first.orElse (fun _ => some r) })

/-- The object belongs to launch L. (DEDUCED, log 47) -/
def State.freeLaunch (s : State) (L : Nat) : State :=
  let s1 := (s.ranges.filter (fun r => decide (r.launch = L))).foldl (fun s r => s.dropRange r false) s
  let fabs := (s1.fabs.filter (fun f => decide (f.launch = L))).map (·.id)
  let lent := (s1.teams.filter (fun t => decide (t.launch = L) && t.emlent && s1.resident t)).map (·.core)
  { s1 with
    teams := s1.teams.filter (fun t => decide (t.launch ≠ L))
    groups := s1.groups.filter (fun g => decide (g.launch ≠ L))
    lanes := s1.lanes.filter (fun l => decide (l.launch ≠ L))
    ops := s1.ops.filter (fun o => decide (o.launch ≠ L))
    mmas := s1.mmas.filter (fun m => decide (m.launch ≠ L))
    copies := s1.copies.filter (fun c => decide (c.launch ≠ L))
    contribs := s1.contribs.filter (fun c => decide (c.launch ≠ L))
    fabs := s1.fabs.filter (fun f => decide (f.launch ≠ L))
    packets := s1.packets.filter (fun p => !fabs.contains p.fab)
    arrivals := s1.arrivals.filter (fun a => decide (a.launch ≠ L))
    gangQ := s1.gangQ.filter (fun q => decide (q.launch ≠ L))
    mapReqs := s1.mapReqs.filter (fun r => decide (r.launch ≠ L))
    notices := s1.notices.filter (fun n => decide (n.launch ≠ L))
    cores := s1.cores.map (fun k => { k with
      emLent := k.emLent && !lent.contains k.id
      lastPage := k.lastPage.filter (fun e => decide (e.2.2.launch ≠ L))
      sideLog := k.sideLog.filter (fun e => decide (e.launch ≠ L)) })
    dies := s1.dies.map (fun x => { x with
      obuf := x.obuf.filter (fun e => decide (e.1 ≠ L))
      inbound := x.inbound.filter (fun e => decide (e.launch ≠ L))
      inbound2 := x.inbound2.filter (fun e => decide (e.launch ≠ L))
      waits := x.waits.filter (fun e => decide (e.launch ≠ L)) })
    mem := s1.mem.keep (fun a => decide (a / 2 ^ 60 ≠ L + 1)) }

/-- The launch is over: its completion record is written and its resources are freed (R27 step 8, R168, R410).
(DEDUCED, log 55) -/
def State.endLaunch (s : State) (x : Launch) (status reason : Nat) : State :=
  ((s.complete x status reason).freeLaunch x.num).modLaunch x.num (fun x => { x with
    phase := .over, stopping := false, held := false, kept := false })

/-- The teams of a launch that have not exited. -/
def State.alive (s : State) (L : Nat) : List Team := s.teams.filter (fun t => t.launch == L && !t.exited)

/-- Change the teams of a launch that have not exited. -/
def State.modAlive (s : State) (L : Nat) (f : Team → Team) : State :=
  { s with teams := updWhere (fun t => t.launch == L && !t.exited) f s.teams }

/-- LAUNCH_RETIRE (R27 step 8, R28, R168): subject the launch. It retires once it owes nothing; one that a record has
stopped is completed and freed once its groups have halted. -/
def execLaunchRetire (s : State) : Out :=
  event s (match s.launch? (s.sub 0) with
    | none => none
    | some x =>
      if x.phase = .over then none
      else if x.stopping then
        if x.kept || (s.alive x.num).any (fun t => decide (t.ctx = .run)) || s.lanes.any (fun l => l.launch == x.num) then none
        else some ((s.endLaunch x 4 0).haltQueue x.queue 4 x.pkt)
      else if x.phase = .placed && (s.alive x.num).isEmpty && s.owesNothing x.num then
        some (s.endLaunch x (if x.async then 2 else 1) 0)
      else none)

end Sys2Proof.Machine
end

