-- ==== Sys2Proof/Machine/Traps.lean ====
section
/-!
DEFINITION. Traps.lean: the fault queue of a die and what its command core does with a record (R167 to R170).
-/
namespace Sys2Proof.Machine

/-- FAULT_RECORD_ENQUEUE (R167): subject the die. The oldest record that waits enters the queue once it has room. -/
def execFaultRecordEnqueue (s : State) : Out :=
  event s (match (s.die (s.sub 0)).faultWait with
    | [] => none
    | r :: rest =>
      if 1024 ≤ (s.die (s.sub 0)).faultQ.length then none
      else some (s.modDie (s.sub 0) (fun x => { x with faultQ := x.faultQ ++ [r], faultWait := rest })))

/-- The record is of a group, which it has halted (R162). -/
def Record.ofGroup (r : Record) : Bool := decide (r.cls < Cls.async)

/-- A group goes on after its fault (R161, R169): after a trap at the clause end, step 7 of R105 is still to run. -/
def State.resumeAfter (s : State) (r : Record) : State :=
  let s1 := s.resumeGroup r
  let due := ((s.group? r.launch r.team r.gnum).map (·.exitDue)).getD false
  let s2 := s1.modGroup r.launch r.team r.gnum (fun g => { g with exitDue := false })
  (if due then s2.exitGroup r.launch r.team r.gnum else s2).settle

/-- A record stays with its team, which is being saved or has been (R170, section FAULTS of R177); `acted`: it has been acted
on (R168). -/
def State.keepFault (s : State) (r : Record) (acted : Bool) : State :=
  s.modTeam r.launch r.team (fun t => { t with
    faults := t.faults ++ [r], acted := if acted then t.acted ++ [r.gnum] else t.acted })

/-- A LAUNCH-class record stops its launch; MACHINE_CHECK also fails its teams (R168, R175). -/
def State.stopFor (s : State) (r : Record) : State :=
  let s1 := s.stopLaunch r false
  if r.code = Code.machineCheck then s1.modAlive r.launch (fun t => { t with ctx := .failed }) else s1

/-- The action of R168 on a record of launch x. -/
def State.actOn (s : State) (x : Launch) (r : Record) : State :=
  if x.stopping then
    -- a launch that stops takes further records in its trap log only (R170); a LAUNCH-class one ends its keeping
    let s1 := (s.trapLog r).modLaunch x.num (fun x => { x with async := x.async || decide (r.cls = Cls.async) })
    if r.cls = Cls.launch then s1.stopFor r else if x.kept && r.ofGroup then s1.keepFault r true else s1
  else if r.cls = Cls.launch then s.stopFor r
  else if r.cls = Cls.async then (s.trapLog r).modLaunch x.num (fun x => { x with async := true })
  else if r.code = Code.barInval then s.resumeAfter r
  else if (r.code = Code.userTrap ∨ r.code = Code.brk) ∧ !x.debug then (s.trapLog r).resumeAfter r
  else if x.debug then (s.stopLaunch r true).keepFault r true
  else s.stopLaunch r false

/-- The team of the record is in RUN. -/
def State.runs (s : State) (r : Record) : Bool := ((s.team? r.launch r.team).map (fun t => decide (t.ctx = .run))).getD true

/-- FAULT_RECORD_HANDLING (R167 to R170): subject the die. The first record of the queue is acted on; one of a launch
that is over is dropped, and one of a group that a pre-emption holds waits for its restore. -/
def execFaultRecordHandling (s : State) : Out :=
  event s (match (s.die (s.sub 0)).faultQ with
    | [] => none
    | r :: rest =>
      let s1 := s.modDie (s.sub 0) (fun x => { x with faultQ := rest })
      match s.launch? r.launch with
      | none => some s1
      | some x =>
        if x.phase = .over then some s1
        else if r.ofGroup && !s.runs r && !x.stopping then some (s1.keepFault r false)
        else some (s1.actOn x r))

end Sys2Proof.Machine
end

