-- ==== Sys2Proof/Machine/Image.lean ====
section
/-!
DEFINITION. Image.lean: the context image: its place, its sections as they are written, and the checks of a restore
(R125, R126, R176 to R182, R184, R245, R412).
-/
namespace Sys2Proof.Machine

/-! ### The save area -/

/-- SAVESZ, and the virtual base of a team's image (R407, R412). -/
def Launch.saveSize (x : Launch) : Nat := x.bits 11 0 32
def Launch.saveBase (x : Launch) (team : Nat) : Nat := x.bits 10 0 57 + team * x.saveSize

/-- Every page of the save area is present, of mode C, writable, and homed on a present die (R412).
(DEDUCED, log 44) -/
def State.saveAreaOk (s : State) (x : Launch) (t : Team) : Bool :=
  (pageSteps (x.saveBase t.idx) x.saveSize).all (fun a => match s.engineLook (dieOfCore t.core) x.num a with
    | .present tr => !tr.scratch && decide (modeOf tr.leaf = 0) && mayWrite tr.leaf && (s.absentCode tr.home).isNone
    | _ => false)

/-- Write bytes of the image. -/
def State.writeImage (s : State) (x : Launch) (t : Team) (bs : List Byte) : State :=
  (cutAt 4096 (x.saveBase t.idx) bs).foldl (fun s p => match s.engineLook (dieOfCore t.core) x.num p.1 with
    | .present tr => s.homeWriteAll (tr.phys p.1) (grainOf tr.leaf) p.2
    | _ => s) s

/-- The image as cells, by offset; where a page of it is gone, unpredictable. (DESIGN CHOICE, log 40) -/
def State.imageCells (s : State) (x : Launch) (t : Team) : Cells Byte :=
  let base := x.saveBase t.idx
  (pageSteps base x.saveSize).flatMap (fun a =>
    let n := min (a / 65536 * 65536 + 65536) (base + x.saveSize) - a
    match s.engineLook (dieOfCore t.core) x.num a with
    | .present tr => (s.homeCells (tr.phys a) n).map (fun e => (a - base + e.1, e.2))
    | _ => (s.freeBytes a n).zipIdx.map (fun e => (a - base + e.2, e.1)))

/-- Word w of the image as it stands in memory; where its page is gone, unpredictable. (DESIGN CHOICE, log 40) -/
def State.imageWord (s : State) (x : Launch) (t : Team) (w : Nat) : Nat :=
  let va := x.saveBase t.idx + 8 * w
  match s.engineLook (dieOfCore t.core) x.num va with
  | .present tr => s.homeNum (tr.phys va) 8
  | _ => (s.free va).toNat

/-- Bits [bit+n-1:bit] of the image as it stands, counted from its base. -/
def State.imageBits (s : State) (x : Launch) (t : Team) (bit n : Nat) : Nat :=
  let w := bit / 64
  let k := if n = 0 then 0 else (bit + n - 1) / 64 + 1 - w
  ((List.range k).foldl (fun v i => v + s.imageWord x t (w + i) * 2 ^ (64 * i)) 0) / 2 ^ (bit % 64) % 2 ^ n

/-- The same bits of an image kept as cells. -/
def cellBits (m : Cells Byte) (bit n : Nat) : Nat :=
  numOf ((List.range ((bit % 8 + n + 7) / 8)).map (fun j => Cells.get 0 m (bit / 8 + j))) / 2 ^ (bit % 8) % 2 ^ n

/-- The part in [bit, bit+n) of a word that was modified outside SAVED reads as that modification left it (R175). -/
def stillWild (w : Nat × Nat × Nat) (bit n v : Nat) : Bool :=
  let lo := max bit (64 * w.1)
  let hi := min (bit + n) (64 * w.1 + 64)
  decide (lo < hi) && decide (fieldOf w.2.1 (lo - 64 * w.1) (hi - lo) ≠ fieldOf w.2.2 (lo - 64 * w.1) (hi - lo)) &&
    decide (fieldOf v (lo - bit) (hi - lo) = fieldOf w.2.2 (lo - 64 * w.1) (hi - lo))

/-- A field of the image, n bits from `bit` on: modified while the team was not SAVED, it is unpredictable (R175).
(DESIGN CHOICE, log 40) -/
def State.image (s : State) (x : Launch) (t : Team) (bit n : Nat) : Nat :=
  let v := s.imageBits x t bit n
  if (match t.frozen with
      | none => false
      | some m => decide (v ≠ cellBits m bit n)) || t.wild.any (fun w => stillWild w bit n v)
  then (s.free (x.saveBase t.idx + bit)).toNat % 2 ^ n else v

/-- The words of the image that have been modified since the team left SAVED, as it returns there (R175). -/
def State.wildWords (s : State) (x : Launch) (t : Team) : List (Nat × Nat × Nat) :=
  match t.frozen with
  | none => []
  | some m => (List.range (x.saveSize / 8)).filterMap (fun w =>
      let v := s.imageWord x t w
      if v = cellBits m (64 * w) 64 then none else some (w, cellBits m (64 * w) 64, v))

/-! ### Writing the sections -/

/-- The groups of a team, by group number. -/
def State.groupsOf (s : State) (L T : Nat) : List Group :=
  (List.range 64).filterMap (fun n => s.group? L T n)

/-- The pending close of a range by a group of its own team (R182). -/
def State.closeOf (s : State) (r : Range) : Option Op := s.ops.find? (fun o => decide (o.id = r.closer) && o.team == r.team)

/-- Ranges of a team, in order of opening. -/
def State.teamRanges (s : State) (L T : Nat) : List Range := s.ranges.filter (fun r => r.launch == L && r.team == T)

/-- Of the records that stand for one instruction the last names its flag, and the others none: FCNT, which counts the records
that name a flag, is the pending count as it is (R116, R184). `rest`: the operations of the records after this one. (DEDUCED, log 41) -/
def flagFor (o : Option Op) (rest : List Nat) : Nat :=
  match o with
  | none => 15
  | some o => if rest.contains o.id then 15 else o.flag

/-- Pending closes of a team: the range, its group and the flag its record names (R182). -/
def State.closes (s : State) (L T : Nat) : List (Range × Nat × Nat) :=
  let rs := s.teamRanges L T
  rs.zipIdx.filterMap (fun r => (s.closeOf r.1).map (fun o =>
    (r.1, o.gnum, flagFor (some o) ((rs.drop (r.2 + 1)).filterMap (fun q => (s.closeOf q).map (·.id))))))

/-- Matrix operations that a team stops, in issue order, with the flags their records name. -/
def State.stopped (s : State) (L T : Nat) : List (Mma × Nat) :=
  let ms := s.mmas.filter (fun m => m.launch == L && m.team == T && !m.over)
  ms.zipIdx.map (fun m => (m.1, flagFor (s.op? m.1.op) ((ms.drop (m.2 + 1)).map (·.op))))

/-- What the image does not hold of a group's stopped matrix operations: the instruction each belongs to, and whether its next
contributions are unpredictable (R101, R354, R355). -/
def State.savedOps (s : State) (L T G : Nat) : List (Nat × Bool) :=
  ((s.stopped L T).filter (fun m => m.1.gnum == G)).map (fun m => (m.1.op, m.1.broken || (s.op? m.1.op).any (·.tainted)))

/-- Records that name a group and a flag (R184). (DEDUCED, log 41) -/
def countNames (l : List (Nat × Nat)) (gnum flag : Nat) : Nat := (l.filter (fun x => decide (x = (gnum, flag)))).length

/-- Group and flag of every saved record (R184). -/
def State.named (s : State) (L T : Nat) : List (Nat × Nat) :=
  (s.groupsOf L T).filterMap (fun g => g.withdrawn.map (fun w => (g.gnum, w.2.2.2))) ++
    (s.stopped L T).map (fun m => (m.1.gnum, m.2)) ++ (s.closes L T).map (fun c => (c.2.1, c.2.2))

/-- Fields packed at their positions. -/
def packAt (l : List (Nat × Nat)) : Nat := l.foldl (fun n x => n + x.2 * 2 ^ x.1) 0

/-- Team record (R178). -/
def Team.record (t : Team) : List Byte :=
  wordBytes [
    packAt [(32, t.launch), (20, t.ngrp - 1), (18, t.nrole - 1), (16, t.slot), (0, t.idx)],
    packAt ((0, t.t) :: (List.range 4).map (fun r => (9 * r + 9, t.budget.getD r 0))),
    packAt ((40, if t.emlent then 1 else 0) :: (List.range 4).map (fun r => (10 * r, t.held.getD r 0))),
    packAt [(56, t.nmeta), (52, t.nring), (40, t.nloc), (32, t.ntile), (0, t.bken.toNat)], 0, 0, 0, 0]

/-- Group record (R126): FCNT counts the records that name each flag (R184). (DEDUCED, log 41) -/
def Group.record (g : Group) (names : List (Nat × Nat)) : List Byte :=
  bytesOf (packAt ([(75, if g.emrg then 1 else 0), (69, g.rbreq), (63, g.nblk), (58, g.wb), (56, g.role), (50, g.gnum)] ++
    (List.range 12).map (fun f => (4 * f, countNames names g.gnum f)))) 16

/-- Code of a thread state (R102, R125). -/
def ThreadState.code : ThreadState → Nat
  | .run => 0
  | .park => 1
  | .wait => 2
  | .done => 3

/-- Thread record (R125). -/
def Thread.record (t : Thread) : List Byte :=
  bytesOf (packAt [(96, t.wmask.toNat), (64, t.starve), (57, t.st.code), (0, t.pc.toNat)]) 16

/-- Group extra record (R179). (DEDUCED, log 41) -/
def Group.extra (g : Group) : List Byte :=
  let w : Nat × Nat × Nat × Nat × Nat × Nat :=
    match g.halt, g.withdrawn, g.wait with
    | .none, some h, _ => (0, 0, 3, h.1, h.2.2.1.toNat, packAt [(5, h.2.2.2), (0, h.2.1)])
    | .none, none, .bwait a _ p => (a, p, 1, 0, 0, 0)
    | .none, none, .bsync a _ left _ => (a, 0, 2, if left = 0 then 0 else max 1 (left - 2), 0, 0)
    | .none, none, _ => (0, 0, 0, 0, 0, 0)
    | _, _, _ => (0, 0, 4, 0, 0, 0)
  wordBytes [
    packAt [(32, g.lastf.toNat), (0, g.gtag.toNat)],
    packAt [(32, w.1), (16, w.2.1), (0, w.2.2.1)], w.2.2.2.1,
    packAt [(32, w.2.2.2.2.1), (0, w.2.2.2.2.2)]]

/-- Register blocks of a group in list order (R177). -/
def Group.blockBytes (g : Group) : List Byte :=
  (List.range (16 * g.nblk)).flatMap (fun j => (List.range 32).flatMap (fun i => bytesOf (Cells.get 0 g.regs (32 * j + i)).toNat 4))

/-- Code of a tile state (R180). -/
def TileState.code : TileState → Nat
  | .empty => 0
  | .filling => 1
  | .ready => 2
  | .draining => 3

/-- Tiles of a team: shapes and states, and contents (R180). -/
def Team.shapes (t : Team) : List Byte :=
  (List.range t.ntile).flatMap (fun n => bytesOf (packAt [(32, (t.tile n).st.code), (0, (t.tile n).shape.toNat)]) 8)
def Team.tileBytes (t : Team) : List Byte :=
  (List.range t.ntile).flatMap (fun n => if (t.tile n).st = .empty then List.replicate 8192 0 else (t.tile n).read 0 8192)

/-- Ring records (R180). -/
def Team.ringBytes (t : Team) : List Byte :=
  (List.range t.nring).flatMap (fun n =>
    let r := t.ring n
    wordBytes [packAt [(48, r.c), (32, r.p), (0, r.desc.toNat)], 0])

/-- Metadata slots. -/
def Team.metaBytes (t : Team) : List Byte := (List.range (2048 * t.nmeta)).map (fun i => Cells.get 0 t.metas i)

/-- MMA record (R181, R366). -/
def mmaRecord (m : Mma × Nat) : List Byte :=
  wordBytes [packAt [(38, m.2), (32, m.1.gnum), (0, m.1.pb)],
    packAt [(32, (m.1.field 1 16 16 + m.1.chunkOf m.1.fired) % 65536), (0, m.1.fired)]]

/-- Copy entries of a team that stop, by ring and ring order (R177, R337). (DEDUCED, log 43) -/
def State.stoppedCopies (s : State) (L T : Nat) : List Copy :=
  (List.range 4).flatMap (fun r => (List.range 4).filterMap (fun k =>
    s.copies.find? (fun c => c.of L T r && !c.complete && decide (ahead c.index (s.done L T r) = k))))

/-- COPY record (R181). -/
def Copy.record (c : Copy) : List Byte :=
  wordBytes (c.entry.map BitVec.toNat ++ [packAt [(32, c.tiles), (0, c.ring)], 0])

/-- SIZE of a side-log entry (R245). -/
def sizeCode (n : Nat) : Nat := if n = 1 then 0 else if n = 2 then 1 else if n = 4 then 2 else 3

/-- Side-log entry (R245). -/
def LogEntry.record (e : LogEntry) (slot : Nat) : List Byte :=
  wordBytes [e.va, numOf e.bytes,
    packAt [(48, e.seq), (38, e.kind), (35, if e.kind = 0 then 0 else e.opk), (33, sizeCode e.bytes.length)],
    packAt [(38, slot), (32, e.gnum), (24, e.thread)]]

/-- ACC item (R182): unpredictable elements hold free values. -/
def State.accItem (s : State) (r : Range) : List Byte :=
  let close := s.closeOf r
  let flag := (((s.closes r.launch r.team).find? (fun c => c.1.id == r.id)).map (·.2.2)).getD 15
  let pool := r.pool.flatMap (fun c => c.elems.map (fun e => (c.seq, e)))
  let val := fun (i : Nat) => if r.unpred.contains i then s.freeBytes (r.base + i) r.size else bytesOf (r.elem i) r.size
  wordBytes [r.base,
    packAt [(39, (close.map (·.gnum)).getD 0), (35, flag), (34, if close.isSome then 1 else 0),
      (33, if r.ord then 1 else 0), (32, if r.fmt64 then 1 else 0), (0, r.len)],
    packAt [(16, r.remain), (0, r.seqNext)], pool.length, 0, 0, 0, 0] ++
  ((List.range (r.len / r.size)).flatMap val ++ List.replicate ((16 - r.len % 16) % 16) 0) ++
  pool.flatMap (fun p => wordBytes [packAt [(16, p.2.1 - r.base), (0, p.1)],
    if p.2.2.2 then numOf (s.freeBytes p.2.1 r.size) else p.2.2.1])

/-- Fault record with its extension (R165, R166). -/
def Record.bytes (r : Record) : List Byte :=
  wordBytes r.words ++ r.ext.flatMap (fun e =>
    wordBytes [packAt [(59, e.1), (57, e.2.1), (0, e.2.2.1)], packAt [(32, e.2.2.2.1), (0, e.2.2.2.2.toNat)]])

/-- FSEQ item of a group (R177). -/
def Group.fseqBytes (g : Group) : List Byte := (List.range 32).flatMap (fun k => bytesOf (if k < 30 then g.fseq.getD k 0 else 0) 2)

/-- Zero bytes to the next multiple of 16 (R176). -/
def padTo16 (bs : List Byte) : List Byte := bs ++ List.replicate ((16 - bs.length % 16) % 16) 0

/-- The sections of a team's image with their types; empty ones are omitted (R177). -/
def State.sections (s : State) (t : Team) : List (Nat × List Byte) :=
  let L := t.launch
  let T := t.idx
  let gs := s.groupsOf L T
  let names := s.named L T
  ([ (1, t.record), (2, gs.flatMap (fun g => g.record names)), (3, gs.flatMap (fun g => g.thr.flatMap Thread.record)),
     (4, gs.flatMap Group.extra), (5, gs.flatMap Group.blockBytes), (6, t.shapes), (7, t.tileBytes), (8, t.ringBytes),
     (9, t.metaBytes), (10, t.read 0 (256 * t.nloc)), (11, (s.stopped L T).flatMap mmaRecord),
     (12, (s.stoppedCopies L T).flatMap Copy.record),
     (13, ((s.core t.core).sideLog.filter (fun e => e.launch == L && e.team == T)).flatMap (fun e => e.record t.slot)),
     (14, (s.teamRanges L T).flatMap s.accItem), (15, t.faults.flatMap Record.bytes),
     (16, gs.flatMap Group.fseqBytes) ].map (fun x => (x.1, padTo16 x.2))).filter (fun x => !x.2.isEmpty)

/-- Round up to a multiple of 64. -/
def up64 (n : Nat) : Nat := (n + 63) / 64 * 64

/-- Directory entries and the bodies of sections from an offset on (R176). (DEDUCED, log 44) -/
def layOut : List (Nat × List Byte) → Nat → List Byte × List Byte
  | [], _ => ([], [])
  | (k, bs) :: rest, off =>
    let n := up64 bs.length
    let r := layOut rest (off + n)
    (wordBytes [packAt [(32, bs.length), (0, k)], off] ++ r.1, bs ++ List.replicate (n - bs.length) 0 ++ r.2)

/-- The image of a team (R176). -/
def State.imageBytes (s : State) (t : Team) : List Byte :=
  let ss := s.sections t
  let head := wordBytes [packAt [(48, ss.length), (32, 1), (0, 0x4F5A4358)], packAt [(32, t.launch), (0, t.idx)], 0, 0, 0, 0, 0, 0]
  let first := up64 (64 + 16 * ss.length)
  let l := layOut ss first
  head ++ l.1 ++ List.replicate (first - 64 - l.1.length) 0 ++ l.2

/-! ### Reading the sections -/

/-- A reader of an image: first bit and length of a field. -/
abbrev Reader := Nat → Nat → Nat

/-- Bits [lo+n-1:lo] of the 64-bit word at an offset. -/
def at64 (rd : Reader) (off lo n : Nat) : Nat := rd (8 * off + lo) n

/-- A field of n whole bytes at an offset. -/
def bytesAt (rd : Reader) (off n : Nat) : Nat := rd (8 * off) (8 * n)

/-- Directory entries: type, length, offset (R176). -/
def directory (rd : Reader) : List (Nat × Nat × Nat) :=
  (List.range (at64 rd 0 48 16)).map (fun k => (at64 rd (64 + 16 * k) 0 16, at64 rd (64 + 16 * k) 32 32, bytesAt rd (72 + 16 * k) 8))

/-- Offset and length of a section; length 0 where it is absent. -/
def part? (rd : Reader) (k : Nat) : Nat × Nat := (((directory rd).find? (fun d => decide (d.1 = k))).map (fun d => (d.2.2, d.2.1))).getD (0, 0)

/-- Offsets of items of n bytes in a section. -/
def itemsAt (rd : Reader) (k n : Nat) : List Nat :=
  let s := part? rd k
  (List.range (s.2 / n)).map (fun i => s.1 + n * i)

/-- Offsets of items whose length `size` gives, and where the last ends. -/
def walkItems (size : Nat → Nat) : Nat → Nat → Nat → List Nat × Nat
  | 0, off, _ => ([], off)
  | n + 1, off, last => if last ≤ off then ([], off) else
      let r := walkItems size n (off + size off) last
      (off :: r.1, r.2)

/-- ACC items, and whether they fill the section (R182). -/
def accItems (rd : Reader) : List Nat × Bool :=
  let s := part? rd 14
  let r := walkItems (fun o => 64 + (at64 rd (o + 8) 0 32 + 15) / 16 * 16 + 16 * at64 rd (o + 24) 0 32) 1025 s.1 (s.1 + s.2)
  (r.1, decide (r.2 = s.1 + s.2))

/-- Records of section FAULTS, and whether they fill it. -/
def faultItems (rd : Reader) : List Nat × Bool :=
  let s := part? rd 15
  let r := walkItems (fun o => 64 + 16 * at64 rd (o + 56) 0 16) 65 s.1 (s.1 + s.2)
  (r.1, decide (r.2 = s.1 + s.2))

/-- Every listed field (offset, low bit, bits) is zero. -/
def zeros (rd : Reader) (l : List (Nat × Nat × Nat)) : Bool := l.all (fun x => decide (at64 rd x.1 x.2.1 x.2.2 = 0))

/-! ### The checks of R184 -/

/-- The directory is as R176 and R177 have it. (DEDUCED, log 44) -/
def directoryOk (rd : Reader) (size : Nat) : Bool :=
  let n := at64 rd 0 48 16
  let ds := directory rd
  decide (1 ≤ n) && decide (n ≤ 16) &&
    ds.all (fun d => decide (1 ≤ d.1) && decide (d.1 ≤ 16) && decide (0 < d.2.1) && decide (d.2.1 % 16 = 0) && decide (d.2.2 % 64 = 0) &&
      decide (64 + 16 * n ≤ d.2.2) && decide (d.2.2 + d.2.1 ≤ size)) &&
    (List.range n).all (fun k => zeros rd [(64 + 16 * k, 16, 16)]) &&
    (ds.zip (ds.drop 1)).all (fun p => decide (p.1.1 < p.2.1)) &&
    (ds.zipIdx).all (fun a => (ds.zipIdx).all (fun b => decide (a.2 = b.2) ||
      decide (a.1.2.2 + a.1.2.1 ≤ b.1.2.2) || decide (b.1.2.2 + b.1.2.1 ≤ a.1.2.2)))

/-- Counts of the team record. -/
structure Counts where
  ngrp : Nat
  ntile : Nat
  nring : Nat
  nmeta : Nat
  nloc : Nat

/-- The team record of an image. -/
def countsOf (rd : Reader) : Counts :=
  let o := (part? rd 1).1
  { ngrp := at64 rd o 20 6 + 1, ntile := at64 rd (o + 24) 32 6, nring := at64 rd (o + 24) 52 4
    nmeta := at64 rd (o + 24) 56 4, nloc := at64 rd (o + 24) 40 12 }

/-- NBLK of a group record. (DEDUCED, log 41) -/
def blocksAt (rd : Reader) (o : Nat) : Nat := at64 rd o 63 6

/-- Every thread of group k is DONE. -/
def allDone (rd : Reader) (k : Nat) : Bool :=
  (List.range 32).all (fun i => decide (at64 rd ((part? rd 3).1 + 16 * (32 * k + i)) 57 2 = 3))

/-- Each section's length is that of its count, with zero padding (R176, R177). -/
def lengthsOk (rd : Reader) (c : Counts) : Bool :=
  let len := fun (k : Nat) => (part? rd k).2
  let blocks := sumOf (itemsAt rd 2 16) (blocksAt rd)
  decide (len 1 = 64) && decide (len 2 = 16 * c.ngrp) && decide (len 3 = 512 * c.ngrp) && decide (len 4 = 32 * c.ngrp) &&
    decide (len 5 = 2048 * blocks) && decide (len 6 = (8 * c.ntile + 15) / 16 * 16) && decide (len 7 = 8192 * c.ntile) &&
    decide (len 8 = 16 * c.nring) && decide (len 9 = 2048 * c.nmeta) && decide (len 10 = 256 * c.nloc) &&
    decide (len 12 % 48 = 0) && decide (len 13 % 32 = 0) && decide (len 16 = 64 * c.ngrp) &&
    (decide (c.ntile % 2 = 0) || decide (bytesAt rd ((part? rd 6).1 + 8 * c.ntile) 8 = 0)) &&
    (accItems rd).2 && (faultItems rd).2

/-- Reserved fields of every record are zero (R184). -/
def reservedOk (rd : Reader) (c : Counts) : Bool :=
  let t := (part? rd 1).1
  let each := fun (k n : Nat) (l : List (Nat × Nat × Nat)) => (itemsAt rd k n).all (fun o => zeros rd (l.map (fun x => (o + x.1, x.2))))
  let whole := fun (os : List Nat) => os.map (fun o => (o, 0, 64))
  zeros rd ([(8, 13, 19)] ++ whole [16, 24, 32, 40, 48, 56]) &&
    zeros rd ([(t, 26, 6), (t, 13, 3), (t + 8, 45, 19), (t + 16, 41, 23), (t + 24, 60, 4), (t + 24, 38, 2)] ++
      whole [t + 32, t + 40, t + 48, t + 56]) &&
    each 2 16 [(0, 48, 2), (8, 12, 52)] && each 3 16 [(0, 59, 5), (8, 13, 19), (0, 0, 2)] && each 4 32 [(8, 3, 13), (24, 9, 23)] &&
    ((itemsAt rd 6 8).take c.ntile).all (fun o => zeros rd [(o, 34, 30)]) && each 8 16 [(8, 0, 64)] &&
    each 11 16 [(0, 42, 22), (8, 48, 16)] && each 12 48 [(32, 2, 30), (40, 0, 64)] &&
    each 13 32 [(0, 57, 7), (16, 40, 8), (16, 0, 33), (24, 40, 24), (24, 29, 3), (24, 0, 24)] &&
    ((accItems rd).1).all (fun o => zeros rd [(o + 8, 45, 19), (o + 16, 48, 16), (o + 24, 32, 32), (o + 32, 0, 64), (o + 40, 0, 64),
      (o + 48, 0, 64), (o + 56, 0, 64)]) &&
    ((faultItems rd).1).all (fun o => zeros rd [(o, 23, 1), (o + 8, 57, 7), (o + 24, 45, 19), (o + 32, 45, 19), (o + 40, 13, 19),
      (o + 56, 32, 32), (o + 56, 16, 7)]) &&
    ((faultItems rd).1).all (fun o => (List.range (at64 rd (o + 56) 0 16)).all (fun i => zeros rd [(o + 72 + 16 * i, 40, 24)])) &&
    each 16 64 [(60, 0, 32)]

/-- Flags that a record may name. -/
def flagOk (f : Nat) : Bool := decide (f < 12) || decide (f = 15)

/-- Fields are in range (R126, R179, R180, R184). A group all of whose threads are DONE holds no block (R112). -/
def rangesOk (rd : Reader) (c : Counts) : Bool :=
  let t := (part? rd 1).1
  let gs := (itemsAt rd 2 16).zipIdx
  gs.all (fun g =>
    let n := blocksAt rd g.1
    decide (n ≤ 32) && (decide (1 ≤ n) || allDone rd g.2) && (decide (n = 0) || decide (at64 rd g.1 58 5 < n)) &&
      decide (at64 rd g.1 69 6 ≤ 32) && decide (at64 rd g.1 56 2 ≤ at64 rd t 18 2)) &&
    (gs.zip (gs.drop 1)).all (fun p => decide (at64 rd p.1.1 50 6 < at64 rd p.2.1 50 6)) &&
    (itemsAt rd 3 16).all (fun o => decide (at64 rd (o + 8) 0 13 ≤ 4096)) &&
    (itemsAt rd 4 32).all (fun o =>
      let k := at64 rd (o + 8) 0 3
      decide (k ≤ 4) && (decide (k ≠ 3) || (decide (at64 rd (o + 16) 57 7 = 0) && flagOk (at64 rd (o + 24) 5 4) &&
        decide (at64 rd (o + 24) 0 5 ≤ 23)))) &&
    ((itemsAt rd 6 8).take c.ntile).all (fun o => decide (at64 rd o 32 2 = 0) || decide (at64 rd o 32 2 = 2)) &&
    (itemsAt rd 11 16).all (fun o => flagOk (at64 rd o 38 4)) &&
    (itemsAt rd 13 32).all (fun o => decide (at64 rd (o + 16) 38 2 ≠ 3)) &&
    decide (c.ntile ≤ 32) && decide (c.nring ≤ 8) && decide (c.nmeta ≤ 8) && decide (c.nloc ≤ 2048)

/-- Group and flag of every record of an image (R184). -/
def namesIn (rd : Reader) : List (Nat × Nat) :=
  (((itemsAt rd 2 16).zip (itemsAt rd 4 32)).filter (fun p => decide (at64 rd (p.2 + 8) 0 3 = 3))).map (fun p =>
      (at64 rd p.1 50 6, at64 rd (p.2 + 24) 5 4)) ++
    (itemsAt rd 11 16).map (fun o => (at64 rd o 32 6, at64 rd o 38 4)) ++
    (((accItems rd).1).filter (fun o => decide (at64 rd (o + 8) 34 1 = 1))).map (fun o => (at64 rd (o + 8) 39 6, at64 rd (o + 8) 35 4))

/-- Section FAULTS holds one record for each group halted by a fault, by group number (R177). -/
def faultsOk (rd : Reader) : Bool :=
  decide (((faultItems rd).1).map (fun o => at64 rd (o + 24) 32 6) =
    (((itemsAt rd 2 16).zip (itemsAt rd 4 32)).filter (fun p => decide (at64 rd (p.2 + 8) 0 3 = 4))).map (fun p => at64 rd p.1 50 6))

/-- The counts of blocks and of pending flags agree (R184). -/
def sumsOk (rd : Reader) : Bool :=
  let t := (part? rd 1).1
  decide (sumOf (List.range 4) (fun r => at64 rd (t + 16) (10 * r) 10) = sumOf (itemsAt rd 2 16) (blocksAt rd)) &&
    (itemsAt rd 2 16).all (fun o => (List.range 12).all (fun f =>
      decide (at64 rd o (4 * f) 4 = countNames (namesIn rd) (at64 rd o 50 6) f)))

/-- Step 1 of R184. (DESIGN CHOICE, log 40; DEDUCED, log 44) -/
def formatOk (rd : Reader) (x : Launch) (t : Team) : Bool :=
  decide (at64 rd 0 0 32 = 0x4F5A4358) && decide (at64 rd 0 32 16 = 1) && decide (at64 rd 8 32 32 = x.num) &&
    decide (at64 rd 8 0 13 = t.idx) && directoryOk rd x.saveSize && lengthsOk rd (countsOf rd) && reservedOk rd (countsOf rd) &&
    rangesOk rd (countsOf rd) && faultsOk rd && sumsOk rd

/-- Step 3 of R184: what the core has after fencing could hold the image. -/
def Core.couldHold (k : Core) (rd : Reader) : Bool :=
  let t := (part? rd 1).1
  let c := countsOf rd
  decide (at64 rd (t + 8) 0 9 + at64 rd (t + 16) 40 1 + k.fencedBlocks ≤ 512) && decide (c.ntile + k.fencedTiles ≤ 32) &&
    decide (c.nring ≤ 8) && decide (c.nmeta ≤ 8) && decide (256 * c.nloc + k.fencedLocal ≤ 524288)

/-- Steps 2 and 3 of R184, which a team in WAITING can still fail (R175). -/
def State.restoreLate (s : State) (x : Launch) (t : Team) : Option Nat :=
  if !s.diePresent (dieOfCore t.core) then some Code.dieAbsent
  else if !(s.core t.core).couldHold (s.imageBits x t) then some Code.restoreCapacity
  else none

/-- The checks of a restore (R184): the code of the first that fails. -/
def State.restoreFault (s : State) (x : Launch) (t : Team) : Option Nat :=
  if !formatOk (s.imageBits x t) x t then some Code.restoreFormat else s.restoreLate x t

end Sys2Proof.Machine
end

