-- ==== Sys2Proof/Machine/LLComplete.lean ====
section
/-!
DEFINITION. LLComplete.lean: the completion of a long-latency operation (R19, R21): when it may complete, what it writes,
and its flag.
-/
namespace Sys2Proof.Machine

/-- Every access has its result, and the operation's acquire is complete. -/
def Op.settled (o : Op) : Bool :=
  o.accs.all (fun a => decide (a.st = .done) || decide (a.st = .declined)) && (!o.acq || o.acqDone)

/-- The operation may complete now. -/
def State.llReady (s : State) (o : Op) : Bool :=
  match o.kind with
  | .pref | .prefRind | .cspan _ _ => false
  | .store _ | .red | .tst _ => o.accs.all (fun a => !a.pending)
  | .localStore _ => true
  | .pqry => true
  | .fetcht => o.wants.isEmpty
  | .accZero => o.accs.all (fun a => !a.pending) &&
      ((s.group? o.launch o.team o.gnum).map (fun g => g.sq.all (fun e => decide (e.op ≠ o.id)))).getD true &&
      (s.core (s.coreOf o.launch o.team)).path.all (fun x => decide (x.op ≠ o.id) || x.applied)
  | .flush inv => o.accs.all (fun a => (s.flushRange o inv a).isSome)
  | .tldOb _ => s.acquiresDone o.launch o.team o.gnum o.id && s.atomsDone o.launch o.team o.gnum o.id &&
      s.slotsRead o.launch o.team o.gnum o.id &&
      ((s.group? o.launch o.team o.gnum).map (fun g => g.stream.all (fun e => match e.kind with
        | .load _ _ => decide (o.id ≤ e.id)
        | _ => true))).getD true
  | .mmai => (s.mmas.filter (fun m => decide (m.op = o.id))).all Mma.over
  | .fabric => (s.fabs.filter (fun f => decide (f.op = o.id))).all (fun f => match f.kind with
      | .put | .putn | .mput => f.ready s
      | _ => f.over s)
  | _ => o.settled

/-- The access that gives thread t its result. -/
def Op.accOf (o : Op) (t : Nat) : Option Access :=
  let who := if o.uni then (threadsOf o.mask).headD 0 else t
  o.accs.find? (fun a => decide (a.thread = who))

/-- The words an operation returns to thread t (R152, R212 to R214, R218, R220, R384). -/
def State.llWords (s : State) (o : Op) (t : Nat) : List Word :=
  let free := fun (n : Nat) => (List.range n).map (fun k => (s.free (4096 * (k + 1) + t)).setWidth 32)
  let who := if o.uni then (threadsOf o.mask).headD 0 else t
  let loaded := fun (ty : Nat) => match o.accOf t with
    | none => []
    | some a => if a.st = .declined then free (tySize (BitVec.ofNat 4 ty)) else loadWords (BitVec.ofNat 4 ty) a.data
  match o.kind with
  | .load ty | .span ty _ | .localLoad ty => loaded ty
  | .atom _ ty => match o.accOf t with
    | none => []
    | some a =>
      let n := atomRegs (BitVec.ofNat 3 ty)
      if a.st = .declined then free n
      else (List.range n).map (fun k => BitVec.ofNat 32 (numOf ((a.data.drop (4 * k)).take 4)))
  | .pqry => match o.accOf t with
    | none => []
    | some a =>
      let slot := (s.team? o.launch o.team).map (fun x => (groupSlot x o.gnum, who))
      pair (s.pageQuery (s.coreOf o.launch o.team) o.launch slot a.va)
  | .fetcht => match o.answers.find? (fun x => decide (x.1 = who)) with
    | none => []
    | some x => [BitVec.ofNat 32 x.2.1, BitVec.ofNat 32 x.2.2.1, BitVec.ofNat 32 x.2.2.2]
  | .fabric => match s.fabs.find? (fun f => decide (f.op = o.id) && decide (f.thread = who) && decide (f.kind = .ratom)) with
    | none => []
    | some f => pair (BitVec.ofNat 64 (numOf (f.result.take 8)))
  | _ => []

/-- The register writes of a completion: blocks that have left the group take none (R122). -/
def State.llWrites (s : State) (o : Op) : List RegWrite :=
  match o.dst with
  | none => []
  | some (b, n) => (threadsOf o.mask).flatMap (fun t =>
      (((s.llWords o t).take n).zipIdx.filter (fun w => decide (b + w.2 < o.limit))).map (fun w => (t, b + w.2, w.1)))

/-- Bytes of an access, unpredictable where its page was declined (R242). -/
def State.accBytes (s : State) (a : Access) : List Byte := if a.st = .declined then s.freeBytes a.id a.len else a.data

/-- What a completion does besides registers and its flag. -/
def State.llEffect (s : State) (o : Op) : State :=
  match o.kind with
  | .tst n => s.modTile o.launch o.team n Tile.readerDone
  | .flush inv => o.accs.foldl (fun s a => (s.flushRange o inv a).getD s) s
  | .tld n => s.modTile o.launch o.team n (fun x =>
      (o.accs.foldl (fun (x : Tile) a => x.write a.opnd (s.accBytes a)) { x with data := [] }).loadDone)
  | .tldOb n =>
    let d := s.die (dieOfCore (s.coreOf o.launch o.team))
    let m := d.slots o.launch
    s.modTile o.launch o.team n (fun x =>
      (o.accs.foldl (fun (x : Tile) a => x.write 0 (if a.unpred then s.freeBytes a.id a.len
        else (List.range a.len).map (fun i => Cells.get 0 m (8192 * a.va + i)))) { x with data := [] }).loadDone)
  | .ldmeta n => s.modTeam o.launch o.team (fun t => { t with
      metas := o.accs.foldl (fun m a => ((s.accBytes a).zipIdx).foldl (fun m b => Cells.set 0 m (2048 * n + a.opnd + b.2) b.1) m) t.metas })
  | .mmai => { s with mmas := s.mmas.filter (fun m => decide (m.op ≠ o.id)) }
  | .fabric => { s with fabs := s.fabs.map (fun f => if f.op = o.id then { f with src := f.bytes s } else f) }
  | _ => s

/-- An operation completes for every thread that issued it (R19): its results are written, its flag's pending count
falls, and what waited for its registers goes on (R122). -/
def State.llComplete (s : State) (o : Op) : State :=
  let ws := s.llWrites o
  let s1 := s.llEffect o
  let s2 : State := { s1 with ops := s1.ops.filter (fun p => p.id != o.id) }
  let s3 := s2.putRegs o.launch o.team o.gnum ws
  let s4 := if o.flag < 12 then s3.modGroup o.launch o.team o.gnum (fun g => g.bumpFlag o.flag 1 true) else s3
  (s4.settleBlocks o.launch o.team o.gnum).sweepFabs.settle

/-- LL_COMPLETE (R19): subject the operation. -/
def execLlComplete (s : State) : Out :=
  event s (match s.op? (s.sub 0) with
    | none => none
    | some o => if s.llReady o then some (s.llComplete o) else none)

end Sys2Proof.Machine
end

