-- ==== Sys2Proof/Machine/Context.lean ====
section
/-!
DEFINITION. Context.lean: pre-emption, drain, save and restore of teams (R170 to R175, R183 to R186, R281, R337, R366,
R421).
-/
namespace Sys2Proof.Machine

/-! ### Pre-emption -/

/-- PREEMPTION_REQUEST (R171, R174, R175): subject the launch, which a PREEMPT holds, a record stops or policy chose. -/
def execPreemptionRequest (s : State) : Out :=
  event s (match s.launch? (s.sub 0) with
    | none => none
    | some x =>
      let hit := fun (t : Team) => decide (t.ctx = .run) || decide (t.ctx = .waiting) || decide (t.ctx = .loading)
      if !(x.held || x.stopping || x.victim) || !(s.alive x.num).any hit then none
      else
        let lent := ((s.alive x.num).filter (fun t => decide (t.ctx = .loading) && t.emlent)).map (·.core)
        let s1 := s.modAlive x.num (fun t => match t.ctx with
          | .run => { t with ctx := .halting }
          -- what has been modified meanwhile stays unpredictable (R175)
          | .waiting => { t with ctx := .saved, frozen := none, wild := t.wild ++ s.wildWords x t }
          | .loading => { t with ctx := .saved, frozen := none, wild := t.wild ++ s.wildWords x t }
          | _ => t)
        let s2 := { s1 with cores := updWhere (fun k => lent.contains k.id) (fun k => { k with emLent := false }) s1.cores }
        let s3 := s2.modLaunch x.num (fun x => { x with npre := if x.stopping then x.npre else x.npre + 1 })
        some ((s3.alive x.num).foldl (fun s t => s.quiesce t.launch t.idx) s3))

/-! ### The drain -/

/-- The unit of a team: itself, its pair, or its gang (R174). -/
def State.unitOf (s : State) (t : Team) : List Team :=
  let gang := ((s.launch? t.launch).map (·.gang)).getD false
  (s.alive t.launch).filter (fun u => gang || u.idx == t.idx || decide (t.partner = some u.idx))

/-- The operation waits for a page, or for what R281 lets it be withdrawn from. -/
def Op.held (o : Op) : Bool :=
  match o.kind with
  | .accOpen => o.accs.any (fun a => decide (a.st ≠ .done) && decide (a.st ≠ .declined))
  | .accScale _ => o.accs.any (fun a => decide (a.st ≠ .done) && decide (a.st ≠ .declined))
  | .accClose _ => false
  | .mmai => false
  | .flush _ => false
  | _ => o.accs.any Access.stuck && o.accs.all (fun a => a.stuck || decide (a.st = .done) || decide (a.st = .declined))

/-- A stopped matrix operation is at a k-step boundary with its contributions accepted (R366). -/
def Mma.atRest (m : Mma) : Bool := m.reading.isEmpty && (List.range (m.chunkOf m.fired)).all (fun j => m.accepted.contains j)

/-- The operation needs nothing more before the save (R172). (DEDUCED, log 42) -/
def State.opAtRest (s : State) (o : Op) : Bool :=
  match o.kind with
  | .pref => true
  | .prefRind => true
  | .cspan _ _ => false
  | .accClose _ => s.ranges.all (fun r => decide (r.closer ≠ o.id) || r.team == o.team) && s.ranges.any (fun r => decide (r.closer = o.id))
  | .mmai =>
    let ms := s.mmas.filter (fun m => decide (m.op = o.id))
    ms.all Mma.atRest && ms.any (fun m => !m.over)
  | _ => o.held

/-- The operations of a group that are withdrawn (R172, R281). -/
def State.heldOps (s : State) (g : Group) : List Op := (s.opsOf g.launch g.team g.gnum).filter Op.held

/-- The operation with this id is withdrawn. (DEDUCED, log 42) -/
def State.isHeld (s : State) (i : Nat) : Bool := (s.op? i).any Op.held

/-- The drain of a team is complete (R172, R337, R366). A FENCE entry behind one that feeds a tile ring has to complete and may
not start, so that such a drain does not end. (DEDUCED, log 33; DEDUCED, log 41; DEDUCED, log 42; DEDUCED, log 72) -/
def State.drained (s : State) (t : Team) : Bool :=
  let mine := fun (L T : Nat) => L == t.launch && T == t.idx
  s.lanes.all (fun l => !mine l.launch l.team) &&
    s.ops.all (fun o => !mine o.launch o.team || s.opAtRest o) &&
    (s.groupsOf t.launch t.idx).all (fun g =>
      g.stream.isEmpty && g.sq.all (fun e => s.isHeld e.op) && decide ((s.heldOps g).length ≤ 1) &&
        (decide ((s.heldOps g).length = 0) || (decide (g.wait = .none) && decide (g.halt = .none)))) &&
    (s.core t.core).path.all (fun x => !mine x.launch x.team) &&
    s.contribs.all (fun c => !mine c.launch c.team || s.isHeld c.op) &&
    s.copies.all (fun c => !mine c.launch c.team || c.complete || (decide (c.opc ≠ 0) && decide (c.dsp = 2))) &&
    s.fabs.all (fun f => !mine f.launch f.team || f.over s || s.isHeld f.op) &&
    s.arrivals.all (fun a => !mine a.launch a.team || decide (a.fab = 0)) &&
    s.gangQ.all (fun q => !mine q.launch q.team) && t.ringWrites.isEmpty &&
    (t.tiles.zipIdx).all (fun x =>
      let loads := (s.ops.filter (fun o => mine o.launch o.team && o.held && decide (o.kind = .tld x.2))).length
      let stores := (s.ops.filter (fun o => mine o.launch o.team && o.held && decide (o.kind = .tst x.2))).length
      decide (x.1.st ≠ .draining) && decide (x.1.readers = stores) && decide (x.1.loads = loads))

/-- Threads for which a withdrawn operation executes again (R172, R179). -/
def Op.again (o : Op) : Word :=
  let whole := o.uni || (match o.kind with
    | .tld _ => true
    | .ldmeta _ => true
    | .accScale _ => true
    | _ => false)
  if whole then o.mask
  else maskOf ((threadsOf o.mask).filter (fun t => o.accs.any (fun a => decide (a.thread = t) && decide (a.st ≠ .done) && decide (a.st ≠ .declined))))

/-- Stream numbers that a withdrawn fabric operation had taken are given back (R177, R386). -/
def State.giveBack (s : State) (f : FabOp) : State :=
  s.modGroup f.launch f.team f.gnum (fun g => { g with fseq := g.fseq.zipIdx.map (fun x =>
    let n := (s.packets.filter (fun p => p.fab == f.id && decide (p.dst = x.2) && p.seq.isSome)).length
    (x.1 + 65536 - n % 65536) % 65536) })

/-- Withdraw a held operation: the threads that have performed keep their results, the others execute it again after
the restore (R172, R281, R366). -/
def State.withdraw (s : State) (o : Op) : State :=
  let todo := o.again
  let ws := (s.llWrites o).filter (fun w => !todo.getLsbD w.1)
  let dead := s.fabs.filter (fun f => decide (f.op = o.id) && !f.ready s)
  let s1 := dead.foldl (fun s f => s.giveBack f) s
  let s2 : State := { s1 with
    ops := s1.ops.filter (fun p => p.id != o.id)
    fabs := s1.fabs.filter (fun f => !dead.any (fun d => d.id == f.id))
    packets := s1.packets.filter (fun p => !dead.any (fun d => d.id == p.fab))
    contribs := s1.contribs.filter (fun c => decide (c.op ≠ o.id)) }
  let s3 := (s2.putRegs o.launch o.team o.gnum ws).modGroup o.launch o.team o.gnum (fun g => { g with
    sq := g.sq.filter (fun e => decide (e.op ≠ o.id))
    withdrawn := some (o.claddr, o.cidx, todo, o.flag)
    heldAt := some { wb := o.wb, nblk := o.nblk, limit := o.limit, tainted := o.tainted
                     -- of registers released more than once, those of the first release after its issue
                     regs := ((g.released.filter (fun r => decide (o.id < r.before))).reverse).foldl (fun m r =>
                       r.regs.foldl (fun m e => Cells.set 0 m e.1 e.2) m) [] } })
  let s4 := match o.kind with
    | .tld n => s3.modTile o.launch o.team n (fun x => { x with st := .ready, loads := 0 })
    | .tst n => s3.modTile o.launch o.team n (fun x => { x with readers := x.readers - 1 })
    | _ => s3
  s4.sweepFabs

/-- A copy that feeds a tile ring stops, also where it waits for a page: its tile in progress returns to empty (R337).
(DEDUCED, log 33) -/
def State.stopCopy (s : State) (c : Copy) : State :=
  let s1 := match c.filling with
    | none => s
    | some n => s.modTile c.launch c.team n (fun x => { x with st := .empty, data := [] })
  s1.modCopy c.id (fun c => { c with filling := none, buf := [], waits := none, pos := c.tiles * (8192 / c.unitBytes) })

/-- A range goes to SAVED: its blocks are freed (R280, R281). -/
def State.saveRange (s : State) (r : Range) : State :=
  (if r.live then s.useUnits r false else s).modRange r.id (fun r => { r with st := .saved })

/-- Blocks that RBREL gave up and that have not returned yet do so as the team is saved: what their return waited for has
finished with its registers, or executes again after the restore (R122, R130, R184). (DEDUCED, log 41) -/
def State.returnAll (s : State) (t : Team) : State :=
  (s.groupsOf t.launch t.idx).foldl (fun s g =>
    if g.released.isEmpty then s
    else (s.modGroup t.launch t.idx g.gnum (fun g => { g with released := [] })).returnBlocks t.launch t.idx g.role
      (sumOf g.released (·.n))) s

/-- DRAIN_COMPLETE (R172, R174, R175, R280): subjects launch and team. -/
def execDrainComplete (s : State) : Out :=
  event s (match s.team? (s.sub 0) (s.sub 1) with
    | none => none
    | some t =>
      let ready := (s.unitOf t).all (fun u => match u.ctx with
        | .draining => s.drained u
        | .saving => true
        | .saved => true
        | .waiting => true
        | _ => false)
      if t.ctx ≠ .draining ∨ t.exited ∨ !ready then none
      else
        let s1 := ((s.groupsOf t.launch t.idx).flatMap (fun g => s.heldOps g)).foldl (fun s o => s.withdraw o) s
        let s2 := (s1.copies.filter (fun c => c.launch == t.launch && c.team == t.idx && !c.complete)).foldl (fun s c => s.stopCopy c) s1
        let s3 := (s2.ranges.filter (fun r => r.launch == t.launch && r.team == t.idx)).foldl (fun s r => s.saveRange r) (s2.returnAll t)
        some (s3.modTeam t.launch t.idx (fun t => { t with ctx := .saving })))

/-! ### The save -/

/-- The records of the team's groups that its die still holds go with it (R170), by group number; of a launch that stops they
enter its trap log, which is all that becomes of them (R168, R170). (DEDUCED, log 45) -/
def State.collectFaults (s : State) (t : Team) : State :=
  let mine := fun (r : Record) => r.launch == t.launch && r.team == t.idx && r.ofGroup
  let d := dieOfCore t.core
  let byGroup := fun (l : List Record) => (List.range 64).flatMap (fun n => l.filter (fun r => r.gnum == n))
  let new := byGroup ((s.die d).faultQ.filter mine ++ (s.die d).faultWait.filter mine)
  let stops := ((s.launch? t.launch).map (·.stopping)).getD false
  let s1 := if stops then new.foldl (fun s r => s.trapLog r) s else s
  (s1.modDie d (fun x => { x with faultQ := x.faultQ.filter (fun r => !mine r), faultWait := x.faultWait.filter (fun r => !mine r) })).modTeam
    t.launch t.idx (fun t => { t with
      faults := byGroup (t.faults ++ new), acted := t.acted ++ (if stops then new.map (·.gnum) else []) })

/-- The team leaves its core (R13, R246, R281): what the image holds is gone from it. -/
def State.leaveCore (s : State) (t : Team) : State :=
  let mine := fun (L T : Nat) => L == t.launch && T == t.idx
  let gone := (s.core t.core).sideLog.filter (fun e => mine e.launch e.team)
  let s1 := s.modCore t.core (fun k => { k with
    emLent := k.emLent && !t.emlent
    sideLog := k.sideLog.filter (fun e => !mine e.launch e.team)
    lastPage := k.lastPage.filter (fun e => decide (e.1 / 64 ≠ t.slot)) })
  let s2 : State := { s1 with
    ops := s1.ops.filter (fun o => !mine o.launch o.team)
    mmas := s1.mmas.filter (fun m => !mine m.launch m.team)
    copies := s1.copies.filter (fun c => !mine c.launch c.team || c.complete)
    groups := updWhere (fun g => mine g.launch g.team) (fun g => { g with
      regs := [], readySince := none, savedOps := s.savedOps g.launch g.team g.gnum }) s1.groups
    -- the close of a range whose ACCCLOSE lost a source register too early writes unpredictable values (R101)
    ranges := updWhere (fun r => mine r.launch r.team && (s.closeOf r).any (·.tainted)) (fun r => { r with
      lost := List.range (r.len / r.size) }) s1.ranges }
  let s3 := s2.modTeam t.launch t.idx (fun t => { t with
    ctx := .saved, image := true, loc := [], tiles := [], rings := [], metas := [], faults := [], wild := [] })
  gone.foldl (fun s e => if (s.core t.core).logged e.launch e.va then s else s.retryHeld t.core e.launch e.page e.size) s3

/-- A launch stopped with debug bit 1 is held once it is wholly saved (R168, R175). -/
def State.holdKept (s : State) (L : Nat) : State :=
  s.modLaunch L (fun x =>
    if x.stopping && x.kept && (s.alive L).all (fun t => decide (t.ctx = .saved)) then { x with held := true, stopping := false } else x)

/-- IMAGE_WRITTEN (R175 to R182, R412): subjects launch and team. -/
def execImageWritten (s : State) : Out :=
  event s (match s.launch? (s.sub 0), s.team? (s.sub 0) (s.sub 1) with
    | some x, some t =>
      if t.ctx ≠ .saving then none
      else
        let s1 := s.collectFaults t
        match s1.team? t.launch t.idx with
        | none => none
        | some u =>
          let bs := s1.imageBytes u
          if !s1.saveAreaOk x u || decide (x.saveSize < bs.length) then
            some ((s1.modTeam u.launch u.idx (fun t => { t with ctx := .failed })).raiseLaunch u.launch u.idx Code.restoreCapacity Cls.launch 0
              (BitVec.ofNat 32 u.idx))
          else some (((s1.writeImage x u bs).leaveCore u).holdKept x.num)
    | _, _ => none)

/-! ### Resuming -/

/-- A restore fails: the team, and with its launch its unit, with a record that names it (R174, R175, R184). -/
def State.failRestore (s : State) (t : Team) (code : Nat) : State :=
  (s.modTeam t.launch t.idx (fun t => { t with ctx := .failed, resume := false })).raiseLaunch t.launch t.idx code Cls.launch 0 0

/-- RESUME_REQUEST (R174, R175, R184): subjects launch and team. Remembered while the team, or another member of its unit, is
on its way to SAVED. -/
def execResumeRequest (s : State) : Out :=
  event s (match s.launch? (s.sub 0), s.team? (s.sub 0) (s.sub 1) with
    | some x, some t =>
      if x.held || x.stopping || t.exited then none
      else match t.ctx with
        | .halting | .draining | .saving =>
          if x.victim || t.resume then none else some (s.modTeam t.launch t.idx (fun t => { t with resume := true }))
        | .saved =>
          if !(s.unitOf t).all (fun u => decide (u.ctx = .saved) || decide (u.ctx = .waiting)) then
            if t.resume then none else some (s.modTeam t.launch t.idx (fun t => { t with resume := true }))
          else
          let s1 := s.modLaunch x.num (fun x => { x with victim := false })
          match s.restoreFault x t with
          | none => some (s1.modTeam t.launch t.idx (fun t => { t with
              ctx := .waiting, resume := false, frozen := some (s.imageCells x t) }))
          | some code => some (s1.failRestore t code)
        | _ => none
    | _, _ => none)

/-! ### The order of candidates (R421) -/

/-- What wants resources: a launch to be placed, or one to be restored. -/
structure Candidate where
  launch : Launch
  restore : Bool
  age : Nat
  deriving DecidableEq, Repr

/-- The launches that want resources, oldest first: those accepted and not placed, and those pre-empted by policy alone,
from the time their teams are saved (R421). -/
def State.candidates (s : State) : List Candidate :=
  s.launches.zipIdx.filterMap (fun x =>
    if x.1.held || x.1.stopping then none
    else if x.1.phase = .waiting then some { launch := x.1, restore := false, age := x.2 }
    else if x.1.phase = .placed && (s.alive x.1.num).any (fun t => decide (t.ctx = .waiting) || decide (t.ctx = .saved)) then some { launch := x.1, restore := true, age := x.2 }
    else none)

/-- Candidate a is served before b. -/
def Candidate.before (a b : Candidate) : Bool :=
  if a.launch.prio ≠ b.launch.prio then decide (b.launch.prio < a.launch.prio)
  else if a.restore != b.restore then a.restore
  else decide (a.age < b.age)

/-- Serving b cannot delay a. -/
def Candidate.clear (a b : Candidate) : Bool :=
  a.launch.cores.all (fun c => !b.launch.cores.contains c) &&
    (a.restore || b.restore || (decide (a.launch.nob = 0) && decide (a.launch.scratch = 0)) ||
      (decide (b.launch.nob = 0) && decide (b.launch.scratch = 0)) || a.launch.dies.all (fun d => !b.launch.dies.contains d))

/-- The launch may take resources now, as far as the others that want them go. -/
def State.mayTake (s : State) (L : Nat) : Bool :=
  match s.candidates.find? (fun c => c.launch.num == L) with
  | none => false
  | some b => s.candidates.all (fun a => a.launch.num == L || !a.before b || a.clear b)

/-! ### Reserving -/

/-- The needs an image states. -/
def needsIn (rd : Reader) : Needs :=
  let c := countsOf rd
  { t := at64 rd ((part? rd 1).1 + 8) 0 9, ntile := c.ntile, nring := c.nring, nmeta := c.nmeta, nloc := c.nloc }

/-- EMLENT of an image. -/
def lentIn (rd : Reader) : Bool := decide (at64 rd ((part? rd 1).1 + 16) 40 1 = 1)

/-- The team's core can supply its image at once (R185). -/
def State.canReserve (s : State) (x : Launch) (t : Team) : Bool :=
  let rd := s.image x t
  s.coreFits t.core (needsIn rd) && (!lentIn rd || !(s.core t.core).emLent)

/-- Take the resources of one team, whatever its place on the core (R185). -/
def State.reserve (s : State) (x : Launch) (t : Team) : State :=
  let rd := s.image x t
  let n := needsIn rd
  let slot := s.freeSlot t.core
  let s1 := s.modTeam t.launch t.idx (fun t => { t with
    ctx := .loading, slot := slot, t := n.t, ntile := n.ntile, nring := n.nring, nmeta := n.nmeta, nloc := n.nloc, emlent := lentIn rd })
  let s2 := if lentIn rd then s1.modCore t.core (fun k => { k with emLent := true }) else s1
  (s2.ranges.filter (fun r => r.launch == t.launch && r.team == t.idx)).foldl (fun s r =>
    (pageSteps r.base r.len).foldl (fun s a => s.requestMap t.core t.launch a none) s) s2

/-- RESOURCES_RESERVED (R174, R175, R183 to R185, R421): subjects launch and team. Every member of the unit takes its
resources in one step; a team in WAITING whose die or core can no longer hold its image fails. -/
def execResourcesReserved (s : State) : Out :=
  event s (match s.launch? (s.sub 0), s.team? (s.sub 0) (s.sub 1) with
    | some x, some t =>
      let u := s.unitOf t
      match (if t.ctx = .waiting ∧ !t.exited then s.restoreLate x t else none) with
      | some code => some (s.failRestore t code)
      | none =>
      if t.ctx ≠ .waiting ∨ t.exited ∨ !(u.all (fun t => decide (t.ctx = .waiting) && s.canReserve x t)) ∨ !s.mayTake x.num then none
      else some (u.foldl (fun s t => s.reserve x t) s)
    | _, _ => none)

/-! ### Loading -/

/-- Bytes of an image as cells from key 0. -/
def cellsIn (rd : Reader) (off n : Nat) : Cells Byte :=
  (List.range n).filterMap (fun i => let b := BitVec.ofNat 8 (bytesAt rd (off + i) 1)
    if b = 0 then none else some (i, b))

/-- A thread of an image (R125). -/
def threadIn (rd : Reader) (o : Nat) : Thread :=
  { pc := BitVec.ofNat 57 (at64 rd o 0 57), wmask := BitVec.ofNat 32 (at64 rd (o + 8) 32 32), starve := at64 rd (o + 8) 0 13
    st := match at64 rd o 57 2 with
      | 0 => .run
      | 1 => .park
      | 2 => .wait
      | _ => .done }

/-- Group k of an image (R117, R126, R177, R179). What the image does not hold of its waits, `old` kept (log).
(DEDUCED, log 43) -/
def groupIn (rd : Reader) (t : Team) (old : Option Group) (k : Nat) : Group :=
  let g := (part? rd 2).1 + 16 * k
  let e := (part? rd 4).1 + 32 * k
  let first := (part? rd 5).1 + 2048 * sumOf ((itemsAt rd 2 16).take k) (blocksAt rd)
  let n := blocksAt rd g
  let kind := at64 rd (e + 8) 0 3
  let addr := at64 rd (e + 8) 32 32
  let keep := old.getD { launch := t.launch, team := t.idx, gnum := 0, thr := [], nblk := 0 }
  let threads := (List.range 32).map (fun i => threadIn rd ((part? rd 3).1 + 16 * (32 * k + i)))
  { launch := t.launch, team := t.idx, gnum := at64 rd g 50 6, role := at64 rd g 56 2, thr := threads
    regs := (List.range (512 * n)).filterMap (fun i =>
      let v : Word := BitVec.ofNat 32 (bytesAt rd (first + 4 * i) 4)
      if v = 0 then none else some (i, v))
    nblk := n, wb := at64 rd g 58 5, rbreq := at64 rd g 69 6, rbAge := keep.rbAge, emrg := decide (at64 rd (g + 8) 11 1 = 1)
    fcnt := (List.range 12).map (fun f => at64 rd g (4 * f) 4)
    lastf := BitVec.ofNat 32 (at64 rd e 32 32), gtag := BitVec.ofNat 32 (at64 rd e 0 32)
    wait := match kind with
      | 1 => .bwait addr (match keep.wait with
          | .bwait _ r _ => r
          | _ => false) (at64 rd (e + 8) 16 16)
      | 2 => .bsync addr 0 (match bytesAt rd (e + 16) 8 with
          | 0 => 0
          | n + 1 => n + 3) (match keep.wait with
          | .bsync _ _ _ m => m
          | _ => 0)
      | _ => .none
    wclause := keep.wclause, wmask := keep.wmask, wsince := keep.wsince
    halt := if kind = 4 then .faulted else .none
    exited := threads.all (fun x => decide (x.st = .done)) && decide (kind ≠ 4)
    fseq := (List.range 30).map (fun i => bytesAt rd ((part? rd 16).1 + 64 * k + 2 * i) 2)
    bsyncs := keep.bsyncs, heldAt := keep.heldAt, savedOps := keep.savedOps
    withdrawn := if kind = 3 then
        some (at64 rd (e + 16) 0 57, at64 rd (e + 24) 0 5, BitVec.ofNat 32 (at64 rd (e + 24) 32 32), at64 rd (e + 24) 5 4)
      else none }

/-- Tiles, rings and slots of an image (R180). -/
def tileIn (rd : Reader) (n : Nat) : Tile :=
  let o := (part? rd 6).1 + 8 * n
  let st : TileState := if at64 rd o 32 2 = 0 then .empty else .ready
  { shape := BitVec.ofNat 32 (at64 rd o 0 32), st := st, data := if st = .empty then [] else cellsIn rd ((part? rd 7).1 + 8192 * n) 8192 }
def ringIn (rd : Reader) (n : Nat) : Ring :=
  let o := (part? rd 8).1 + 16 * n
  { desc := BitVec.ofNat 32 (at64 rd o 0 32), p := at64 rd o 32 16, c := at64 rd o 48 16 }

/-- The team of an image: steps 1 and 2 of R186. (DEDUCED, log 43) -/
def teamIn (rd : Reader) (t : Team) : Team :=
  let o := (part? rd 1).1
  let n := needsIn rd
  { t with
    ngrp := at64 rd o 20 6 + 1, nrole := at64 rd o 18 2 + 1, t := n.t
    budget := (List.range 4).map (fun r => at64 rd (o + 8) (9 * r + 9) 9)
    held := (List.range 4).map (fun r => at64 rd (o + 16) (10 * r) 10)
    bken := BitVec.ofNat 32 (at64 rd (o + 24) 0 32)
    loc := cellsIn rd (part? rd 10).1 (256 * n.nloc)
    tiles := (List.range n.ntile).map (tileIn rd)
    rings := (List.range n.nring).map (ringIn rd)
    metas := cellsIn rd (part? rd 9).1 (2048 * n.nmeta)
    ctx := .run, image := false, resume := false, frozen := none, wild := [], acted := [], gstall := 0 }

/-- Pool entries of an ACC item, one contribution for each number (R182). -/
def poolIn (rd : Reader) (r : Range) (o id : Nat) : List Contrib :=
  let es := (List.range (at64 rd (o + 24) 0 32)).map (fun i =>
    let p := o + 64 + (r.len + 15) / 16 * 16 + 16 * i
    (at64 rd p 0 16, r.base + at64 rd p 16 48, if r.fmt64 then bytesAt rd (p + 8) 8 else bytesAt rd (p + 8) 4))
  let seqs := (es.map (·.1)).eraseDups
  seqs.zipIdx.map (fun q =>
    { id := id + q.2, launch := r.launch, team := r.team, gnum := 0, isl := r.isl, range := r.id, seq := q.1, ord := true
      elems := (es.filter (fun e => decide (e.1 = q.1))).map (fun e => (e.2.1, e.2.2, false)), trs := r.trs, wide := r.fmt64, sent := true })

/-- The range of the k-th ACC item, which the k-th range of the team in the range table stands for, with its fields as
the image has them and its pages as they are now (R177, R182, R249, R281); none where a page is not present. -/
def State.rangeIn (s : State) (rd : Reader) (t : Team) (k o : Nat) : Option Range :=
  match (s.ranges.filter (fun r => r.launch == t.launch && r.team == t.idx))[k]? with
  | none => none
  | some r =>
    let r0 := { r with
      base := bytesAt rd o 8, len := at64 rd (o + 8) 0 32, fmt64 := decide (at64 rd (o + 8) 32 1 = 1), ord := decide (at64 rd (o + 8) 33 1 = 1) }
    (s.rangePages t.core t.launch none r0.base r0.len).map (fun trs =>
      let r1 := { r0 with trs := trs, remain := at64 rd (o + 16) 16 32, seqNext := at64 rd (o + 16) 0 16, unpred := [] }
      { r1 with
        vals := (List.range (r1.len / r1.size)).filterMap (fun i =>
          let v := bytesAt rd (o + 64 + r1.size * i) r1.size
          if v = 0 then none else some (i, v))
        pool := poolIn rd r1 o s.nextId })

/-- The ranges of an image have room all at once (R279, R281). -/
def State.roomForAll (s : State) (rs : List (Option Range)) : Bool :=
  (rs.foldl (fun (p : State × Bool) a => match a with
    | none => (p.1, false)
    | some r => ((p.1.useUnits r true).modRange r.id (fun _ => { r with st := .open }), p.2 && capacityFor p.1 r true)) (s, true)).2

/-- The operation of a group that a record of flag `flag` belongs to, where another record of the same instruction has already
brought it back: `was`, its identity before the save (R116). One that names a flag already takes no second one.
(DEDUCED, log 41) -/
def State.sharedOp (s : State) (t : Team) (gnum flag was : Nat) (kind : OpKind) : Option Op :=
  if was = 0 then none
  else s.ops.find? (fun o => o.ofGroup t.launch t.idx gnum && decide (o.kind = kind) && decide (o.was = was) &&
    (decide (12 ≤ flag) || decide (12 ≤ o.flag)))

/-- The operation that a record brings back: its own, which `new` describes, or one that it shares (R116, R184). -/
def State.joinOp (s : State) (t : Team) (new : Op) : Op × State :=
  match s.sharedOp t new.gnum new.flag new.was new.kind with
  | none => (new, { s with ops := s.ops ++ [new] })
  | some o =>
    let o1 := { o with flag := min o.flag new.flag, accs := o.accs ++ new.accs }
    (o1, s.modOp o.id (fun _ => o1))

/-- Step 3 of R186 for one range, with a pending close armed again. (DEDUCED, log 45) -/
def State.reopen (s : State) (rd : Reader) (t : Team) (o : Nat) (logged : List Nat) (r : Range) : State :=
  let s0 : State := { s with nextId := s.nextId + r.pool.length + 1 }
  -- blocks of another grain are first dropped (R262)
  let s1 := r.spans.foldl (fun (s : State) x => s.matchGrain (dieOfPa (x.1 * 4096)) x.1 (r.grainAt x.1)) s0
  let s2 := (r.spans.foldl (fun s x => s.carve (dieOfPa (x.1 * 4096)) x.1 x.2.1 x.2.2 false false) s1).useUnits r true
  let close := decide (at64 rd (o + 8) 34 1 = 1)
  let gnum := at64 rd (o + 8) 39 6
  let st : RangeSt := if close && !logged.contains gnum then .closing else .open
  let p := s2.joinOp t
    { id := s2.nextId, launch := r.launch, team := r.team, gnum := gnum, flag := at64 rd (o + 8) 35 4, kind := .accClose 0, was := r.closer
      accs := [{ id := s2.nextId + 1, thread := 0, va := r.base, len := 1 }] }
  let s3 := if close then { p.2 with nextId := s2.nextId + 2 } else s2
  let s4 := s3.modRange r.id (fun _ => { r with st := st, closer := if close then p.1.id else 0 })
  (r.spans.foldl (fun s x => evictFor (dieOfPa (x.1 * 4096)) x.1 (fitsHeld (dieOfPa (x.1 * 4096)) x.1) 17 s) s4).markShared r

/-- Side-log entries of an image (R245, R246). -/
def State.logIn (s : State) (rd : Reader) (t : Team) : List LogEntry :=
  (itemsAt rd 13 32).zipIdx.map (fun x =>
    let o := x.1
    let va := at64 rd o 0 57
    let where_ : Nat × Nat := match s.look t.core t.launch none va with
      | .present tr => (tr.page, tr.size)
      | .moving tr => (tr.page, tr.size)
      | .absent p n _ _ _ => (p, n)
    { launch := t.launch, team := t.idx, gnum := at64 rd (o + 24) 32 6, thread := at64 rd (o + 24) 24 5, op := s.nextId + x.2, va := va
      bytes := bytesOf (bytesAt rd (o + 8) 8) (2 ^ at64 rd (o + 16) 33 2), kind := at64 rd (o + 16) 38 2, opk := at64 rd (o + 16) 35 3
      seq := at64 rd (o + 16) 48 16, page := where_.1, size := where_.2 })

/-- A map notice for a core, or a request where the page is still absent (R241, R246). (DEDUCED, log 45) -/
def State.askAgain (s : State) (t : Team) (e : LogEntry) : State :=
  match s.look t.core t.launch none e.va with
  | .present _ =>
    if s.notices.any (fun n => decide (n.core = some t.core) && n.launch == t.launch && n.page == e.page) then s
    else { s with nextId := s.nextId + 1, notices := s.notices ++ [{ id := s.nextId, core := some t.core, isl := t.core / 256, launch := t.launch, page := e.page, size := e.size }] }
  | _ => s.requestMap t.core t.launch e.va none

/-- Step 4 of R186. (DEDUCED, log 44) -/
def State.loadLog (s : State) (rd : Reader) (t : Team) : State :=
  let es := s.logIn rd t
  let s1 := { s.modCore t.core (fun k => { k with sideLog := k.sideLog ++ es }) with nextId := s.nextId + es.length }
  es.foldl (fun s e => s.askAgain t e) s1

/-- Step 5 of R186 for the copy engine (R337): the entries of a ring that neither DONE has passed nor have completed
are those that stopped, in ring order. -/
def State.loadCopies (s : State) (rd : Reader) (t : Team) (r : Nat) : State :=
  let L := t.launch
  let T := t.idx
  let d := s.done L T r
  let open_ := ((List.range (min 4 (ahead (s.cons L T r) d))).map (fun k => (d + k) % 2 ^ 32)).filter (fun i =>
    !s.copies.any (fun c => c.of L T r && c.complete && decide (c.index = i)))
  let recs := (itemsAt rd 12 48).filter (fun o => decide (at64 rd (o + 32) 0 2 = r))
  let mk := fun (x : (Nat × Nat) × Nat) =>
    let c : Copy :=
      { id := s.nextId + x.2, launch := L, team := T, ring := r, index := x.1.1
        entry := (List.range 4).map (fun k => BitVec.ofNat 64 (bytesAt rd (x.1.2 + 8 * k) 8))
        wild := t.wildOf r x.1.1, bad := t.changed.contains (r, x.1.1) }
    let h := { c with desc := t.words c.descAt 4 }
    let g := { h with desc := t.words c.descAt (4 + 4 * h.rank) }
    let n := at64 rd (x.1.2 + 32) 32 32
    { g with tiles := n, pos := n * (8192 / g.unitBytes) }
  let cs := ((open_.zip recs).zipIdx).map mk
  { s with nextId := s.nextId + cs.length, copies := s.copies ++ cs }

/-- Step 5 of R186 for one matrix operation, the k-th record of its group: it is taken up at KNEXT and SEQNEXT, from the block as
it stands (R366). In a KEEP 1 ring its next panel is at the restored C + KNEXT x CNT, whatever TREL had released of what it has
read. (DEDUCED, log 29; DEDUCED, log 41) -/
def State.loadMma (s : State) (rd : Reader) (t : Team) (o k : Nat) : State :=
  let gnum := at64 rd o 32 6
  let pb := at64 rd o 0 32
  let knext := at64 rd (o + 8) 0 32
  let saved := (((s.group? t.launch t.idx gnum).bind (fun g => g.savedOps[k]?))).getD (0, false)
  let ws := t.words (localOff pb) 8
  let m0 := { mmaOf t ws with gnum := gnum, pb := pb, fired := knext, readDone := knext, broken := saved.2 }
  let n := m0.chunkOf knext
  let base := (at64 rd (o + 8) 32 16 + 65536 - n % 65536) % 65536
  let w1 := putField (ws.getD 1 0).toNat 16 16 base
  let m1 := { m0 with words := setNth ws 1 (BitVec.ofNat 64 w1) }
  let start := fun (p : Panel) => if knext = 0 then none
    else some (if p.keep then (t.ring p.num).c else ((t.ring p.num).c + 65536 - knext * p.cnt % 65536) % 65536)
  let r := m1.rangeIn s (t.core / 256)
  let p := ({ s with nextId := s.nextId + 1 } : State).joinOp t
    { id := s.nextId, launch := t.launch, team := t.idx, gnum := gnum, flag := at64 rd o 38 4, kind := .mmai, was := saved.1, born := s.now }
  p.2.pushMma { m1 with
    op := p.1.id
    c0a := start m1.srcA
    c0b := start m1.srcB
    accepted := List.range n
    range := (r.map (·.id)).getD 0
    trs := (r.map (·.trs)).getD [] }

/-- Step 5 of R186 for the matrix engine: the records in order, each numbered within its group. -/
def State.loadMmas (s : State) (rd : Reader) (t : Team) : State :=
  let os := itemsAt rd 11 16
  os.zipIdx.foldl (fun s x =>
    s.loadMma rd t x.1 ((os.take x.2).filter (fun o => decide (at64 rd o 32 6 = at64 rd x.1 32 6))).length) s

/-- Execute a word that an access can hold (R172, R179); any other word does nothing. -/
def execHeld (i : Instr) (s : State) : Out :=
  match i with
  | .ld d a o t u => execLd d a o t u s
  | .ldSpan d a k t u => execLdSpan d a k t u s
  | .st d a r t u => execSt d a r t u s
  | .atomAdd d a p o t u => execAtomAdd d a p o t u s
  | .atomSub d a p o t u => execAtomSub d a p o t u s
  | .atomMin d a p o t u => execAtomMin d a p o t u s
  | .atomMax d a p o t u => execAtomMax d a p o t u s
  | .atomAnd d a p o t u => execAtomAnd d a p o t u s
  | .atomOr d a p o t u => execAtomOr d a p o t u s
  | .atomXor d a p o t u => execAtomXor d a p o t u s
  | .atomSwap d a p o t u => execAtomSwap d a p o t u s
  | .atomCas d a p o t u => execAtomCas d a p o t u s
  | .atomIncw d a p o t u => execAtomIncw d a p o t u s
  | .atomAddb d a p o t u => execAtomAddb d a p o t u s
  | .atomFadd d a p o t u => execAtomFadd d a p o t u s
  | .accopen d a b u => execAccopen d a b u s
  | .acczero x a b u => execAcczero x a b u s
  | .accscale d a b u => execAccscale d a b u s
  | .redFast d a z u w => execRedFast d a z u w s
  | .redOrd d a b u w => execRedOrd d a b u w s
  | .redMin d a z u w => execRedMin d a z u w s
  | .redMax d a z u w => execRedMax d a z u w s
  | .rediAdd d a z u w => execRediAdd d a z u w s
  | .rediMinI d a z u w => execRediMinI d a z u w s
  | .rediMinB d a z u w => execRediMinB d a z u w s
  | .rediMaxI d a z u w => execRediMaxI d a z u w s
  | .rediMaxB d a z u w => execRediMaxB d a z u w s
  | .rediAnd d a z u w => execRediAnd d a z u w s
  | .rediOr d a z u w => execRediOr d a z u w s
  | .rediXor d a z u w => execRediXor d a z u w s
  | .tld d a z u => execTld d a z u s
  | .tst d a z u => execTst d a z u s
  | .ldmeta d a z u => execLdmeta d a z u s
  | .put d a o u => execPut d a o u s
  | .putn d a o u => execPutn d a o u s
  | .mput d a o u => execMput d a o u s
  | _ => .next s.advance

/-- What a held access executes again under: the window, the blocks and the registers of its issue (R130, R186).
(DEDUCED, log 41) -/
def Group.asIssued (g : Group) (h : HeldAt) : Group :=
  { g with
    withdrawn := none, heldAt := none, wb := h.wb, nblk := h.nblk
    regs := h.regs.foldl (fun m e => Cells.set 0 m e.1 e.2) (g.regs.keep (fun k => decide (k < 32 * h.limit))) }

/-- The group is again as the image has it, and what has executed again writes no register that has left it (R122), and
unpredictable values where a source register was written too early (R101). `from_`: the first identity it took. -/
def State.afterRedo (s : State) (g : Group) (h : HeldAt) (from_ : Nat) : State :=
  let new := fun (o : Op) => o.ofGroup g.launch g.team g.gnum && decide (from_ ≤ o.id)
  let s1 := s.modGroup g.launch g.team g.gnum (fun x => { x with wb := g.wb, nblk := g.nblk, regs := g.regs })
  let s2 : State := { s1 with ops := updWhere new (fun o => { o with limit := min o.limit h.limit }) s1.ops }
  if h.tainted then (s2.ops.filter new).foldl (fun s o => s.taint o) s2 else s2

/-- Step 6 of R186 for one group: its held access executes for the threads of TMASK. Where it fails its checks the
group takes NOT_MAPPED, as at a map notice (R242). -/
def State.redo (s : State) (t : Team) (g : Group) : State :=
  match g.withdrawn with
  | none => s
  | some (pc, idx, mask, flag) =>
    let h := g.heldAt.getD { wb := g.wb, nblk := g.nblk, limit := 512 }
    let s0 := s.modGroup g.launch g.team g.gnum (fun x => x.asIssued h)
    let refuse := fun (code addr thread : Nat) =>
      ((s0.raiseGroup g Code.notMapped Cls.defer addr (BitVec.ofNat 32 code) pc mask thread []).modGroup g.launch g.team g.gnum (fun h =>
        h.lowerFlag flag)).afterRedo g h s.nextId
    match s0.fetchClause t.core g.launch pc with
    | .ok c =>
      let l : Lane :=
        { core := t.core, launch := g.launch, team := g.team, gnum := g.gnum, claddr := pc, wait := c.hdr.wait.toNat, seta := flag
          words := c.words, lits := c.lits, idx := idx, issuing := mask, wide := t.wideTiles }
      match execHeld (decodeWord (c.words.getD idx 0)) { s0 with lanes := l :: s0.lanes } with
      | .next s1 =>
        if ((s1.group? g.launch g.team g.gnum).map (fun h => decide (h.halt = .none))).getD true then
          ({ s1 with lanes := s1.lanes.tail } : State).afterRedo g h s.nextId
        else
          let r := ((s1.die (dieOfCore t.core)).faultWait.reverse).head?
          refuse ((r.map (·.code)).getD 0) ((r.map (·.addr)).getD 0) ((r.map (·.thread)).getD 0)
      | _ => s0.afterRedo g h s.nextId
    | .badFetch a code _ => refuse code a 0
    | .badHeader _ => refuse Code.illhdr pc 0

/-- Step 7 of R186 for one group: its wait is judged against the restored object. -/
def State.rejoin (s : State) (t : Team) (g : Group) : State :=
  match g.wait with
  | .bwait a r p => s.applyBwait g a r p
  | .bsync a _ left m =>
    let off := localOff a
    if t.barValid off then s.modGroup g.launch g.team g.gnum (fun h => { h with wait := .bsync a (t.barPhase off false) left m, wsince := s.now })
    else s.raiseWait g Code.barInval off 0 []
  | _ => s

/-- A fault record of an image (R165, R166). -/
def recordIn (rd : Reader) (o : Nat) : Record :=
  { code := at64 rd o 0 16, arg := at64 rd o 16 7, cls := at64 rd o 24 3, index := at64 rd o 27 5, issuing := BitVec.ofNat 32 (at64 rd o 32 32)
    claddr := at64 rd (o + 8) 0 57, addr := bytesAt rd (o + 16) 8, gtag := BitVec.ofNat 32 (at64 rd (o + 24) 0 32), gnum := at64 rd (o + 24) 32 6
    slot := at64 rd (o + 24) 38 2, thread := at64 rd (o + 24) 40 5, launch := at64 rd (o + 32) 0 32, team := at64 rd (o + 32) 32 13
    core := at64 rd (o + 40) 0 13, detail := BitVec.ofNat 32 (at64 rd (o + 40) 32 32), time := bytesAt rd (o + 48) 8
    parg := at64 rd (o + 56) 23 7, ptrap := at64 rd (o + 56) 30 2
    ext := (List.range (at64 rd (o + 56) 0 16)).map (fun i =>
      let e := o + 64 + 16 * i
      (at64 rd e 59 5, at64 rd e 57 2, at64 rd e 0 57, at64 rd (e + 8) 32 8, BitVec.ofNat 32 (at64 rd (e + 8) 0 32))) }

/-- A record saved with its group reaches the command core again. One that has been acted on, as it stopped the launch or while
the launch stopped, is not acted on again: its group resumes (R168 to R170, R186). `acted`: the groups of such records.
(DEDUCED, log 45) -/
def State.refault (s : State) (t : Team) (acted : List Nat) (r : Record) : State :=
  let s1 := s.modGroup t.launch t.idx r.gnum (fun g => { g with exitDue := decide (r.code = Code.userTrap) || decide (r.code = Code.brk) })
  if acted.contains r.gnum then s1.resumeAfter r else s1.handRecord (dieOfCore t.core) r

/-- LOAD_COMPLETE (R175, R186, R192, R234): subjects launch and team. -/
def execLoadComplete (s : State) : Out :=
  event s (match s.launch? (s.sub 0), s.team? (s.sub 0) (s.sub 1) with
    | some x, some t =>
      if t.ctx ≠ .loading then none
      else
        let rd := s.image x t
        let u := teamIn rd t
        let accs := (accItems rd).1.zipIdx.map (fun o => (o.1, s.rangeIn rd t o.2 o.1))
        if !s.roomForAll (accs.map (·.2)) || decide (512 < (s.core t.core).sideLog.length + (itemsAt rd 13 32).length) then none
        else
          let old := fun (n : Nat) => s.group? t.launch t.idx n
          let gs := (List.range u.ngrp).map (fun k => groupIn rd u (old (at64 rd ((part? rd 2).1 + 16 * k) 50 6)) k)
          let s1 : State := { s.modTeam t.launch t.idx (fun _ => u) with
            groups := s.groups.filter (fun g => !(g.launch == t.launch && g.team == t.idx)) ++ gs }
          let s2 := (s1.invalidateL1 t.core (fun _ _ => true)).modCore t.core (fun k => { k with
            lastPage := k.lastPage.filter (fun e => decide (e.1 / 64 ≠ t.slot)) })
          let logged := (itemsAt rd 13 32).map (fun o => at64 rd (o + 24) 32 6)
          let s3 := s2.loadLog rd u
          let s4 := accs.foldl (fun s a => match a.2 with
            | some r => s.reopen rd u a.1 logged { r with pool := r.pool.zipIdx.map (fun c => { c.1 with id := s.nextId + c.2 }) }
            | none => s) s3
          let s5 := (List.range 4).foldl (fun s r => s.loadCopies rd u r) s4
          -- nothing of steps 5 and 6 starts before the team runs: what tiles held accesses fill is known first (R366)
          let s6 := gs.foldl (fun s g => s.redo u g) s5
          let s7 := s6.loadMmas rd u
          let s8 := gs.foldl (fun s g => s.rejoin u g) s7
          let s9 := (faultItems rd).1.foldl (fun s o => s.refault u t.acted (recordIn rd o)) s8
          some (((List.range 4).foldl (fun s r => s.pumpRing t.launch t.idx r) s9).settle)
    | _, _ => none)

end Sys2Proof.Machine
end

