-- ==== Sys2Proof/Machine/Translate.lean ====
section
/-!
DEFINITION. Translate.lean: what the command engine does with island tables (R237 to R254, R419): map requests, notices
and declines, shoot-downs and page changes.
-/
namespace Sys2Proof.Machine

/-! ### Island tables -/

/-- The entry of the level that maps `size` bytes, in the table of one die: its address and value. None where a table
above it is not present (R227). -/
def entryFrom (s : State) (d va size : Nat) : List Level → Nat → Nat → Option (Nat × DWord)
  | [], _, _ => none
  | lv :: rest, bits, table =>
    let adr := table + 8 * (va / 2 ^ lv.shift % 2 ^ bits)
    let e := BitVec.ofNat 64 (s.cmdNum adr 8)
    if 2 ^ lv.shift = size then some (adr, e)
    else if e.getLsbD 1 || !pointerOk e lv.align || !e.getLsbD 0 then none
    else entryFrom s d va size rest (match rest with | [] => 0 | n :: _ => lv.shift - n.shift) (entryBase (d / 2) e 8)

/-- The entry for a page in the copy that die d keeps (R225). -/
def State.pageEntry (s : State) (d L page size : Nat) : Option (Nat × DWord) :=
  if (s.absentCode d).isSome || (s.launch? L).isNone || decide (s.root L d = 0) then none
  else entryFrom s d page size levels 18 (s.root L d)

/-- The dies of an island that are present. -/
def State.islandDies (s : State) (isl : Nat) : List Nat := [2 * isl, 2 * isl + 1].filter (fun d => s.diePresent d)

/-- The entry as an island's tables hold it: the first copy that has it. -/
def State.islandEntry (s : State) (isl L page size : Nat) : Option DWord :=
  (s.islandDies isl).findSome? (fun d => (s.pageEntry d L page size).map (·.2))

/-- Write a leaf in both copies of an island's table (R225, R250). -/
def State.writeLeaf (s : State) (isl L page size : Nat) (leaf : DWord) : State :=
  (s.islandDies isl).foldl (fun s d =>
    match s.pageEntry d L page size with
    | none => s
    | some (adr, _) => s.cmdWrite adr (bytesOf leaf.toNat 8)) s

/-- The pages [a, a + n) and [b, b + m) meet. -/
def meets (a n b m : Nat) : Bool := decide (a < b + m) && decide (b < a + n)

/-! ### Notices -/

/-- Cores of an island where a launch has teams. -/
def State.launchCores (s : State) (isl L : Nat) : List Nat :=
  ((s.teams.filter (fun t => t.launch == L && t.core / 256 == isl)).map (·.core)).eraseDups

/-- Cores that hold an access or a side-log entry for the page (R241). -/
def State.holders (s : State) (isl L page size : Nat) : List Nat :=
  (s.launchCores isl L).filter (fun c =>
    (s.opsOn c L).any (fun o => o.accs.any (fun a => a.stuck && a.onPage page size)) ||
      (s.core c).sideLog.any (fun e => e.onPage L page size))

/-- Send a map notice or a decline for a page: to each core concerned, and to the engines of the island (R241, R242). -/
def State.sendNotices (s : State) (isl L page size : Nat) (decline : Bool) : State :=
  let to_ : List (Option Nat) := none :: (s.holders isl L page size).map some
  to_.foldl (fun s c => { s with
    notices := s.notices ++ [{ id := s.nextId, core := c, isl := isl, launch := L, page := page, size := size, decline := decline }]
    nextId := s.nextId + 1 }) { s with
      mapReqs := s.mapReqs.filter (fun r => !(r.isl == isl && r.launch == L && r.page == page)) }

/-- Copies of an island's teams that wait for the page (R333). -/
def State.copiesOn (s : State) (isl L page size : Nat) : List Copy :=
  s.copies.filter (fun c => c.launch == L && (s.coreOf c.launch c.team) / 256 == isl &&
    (match c.waits with
      | none => false
      | some (va, _) => decide (page ≤ va) && decide (va < page + size)))

/-- MAP_NOTICE (R242, R244, R248, R333): subject the notice. -/
def execMapNotice (s : State) : Out :=
  event s (match s.notices.find? (fun n => decide (n.id = s.sub 0)) with
    | none => none
    | some n =>
      if n.decline then none
      else
        let s1 := { s with notices := s.notices.filter (fun m => m.id != n.id) }
        match n.core with
        | some c => some (s1.coreMapped c n.launch n.page n.size).settle
        | none =>
          let ids := (s1.copiesOn n.isl n.launch n.page n.size).map (·.id)
          let s2 := { s1 with copies := updWhere (fun c => ids.contains c.id) (fun c => { c with waits := none }) s1.copies }
          some (s2.fabMapped n.isl n.launch n.page n.size).deliverHeld.sweepFabs.settle)

/-- DECLINE_NOTICE (R242, R244, R248, R333): subject the notice. -/
def execDeclineNotice (s : State) : Out :=
  event s (match s.notices.find? (fun n => decide (n.id = s.sub 0)) with
    | none => none
    | some n =>
      if !n.decline then none
      else
        let s1 := { s with notices := s.notices.filter (fun m => m.id != n.id) }
        match n.core with
        | some c => some (s1.coreDeclined c n.launch n.page n.size).settle
        | none =>
          let s2 := (s1.copiesOn n.isl n.launch n.page n.size).foldl (fun s c =>
            match c.waits with
            | none => s
            | some (va, dst) =>
              if s.copies.any (fun x => x.id == c.id) then
                s.ringFail c.launch c.team c.ring c.index (if dst then 2 else 1) Code.notMapped va
              else s) s1
          some (s2.fabDeclined n.isl n.launch n.page n.size).deliverHeld.sweepFabs.settle)

/-! ### Map requests -/

/-- The lowest free frame of `size` bytes in a region, aligned to its size (R408). (DEDUCED, log 52) -/
def freeFrame (base len size : Nat) (used : List (Nat × Nat)) : Option Nat :=
  let up := fun (a : Nat) => (a + size - 1) / size * size
  let fits := fun (f : Nat) => decide (base ≤ f) && decide (f + size ≤ base + len) && used.all (fun u => !meets f size u.1 u.2)
  let cands := (up base :: used.map (fun u => up (u.1 + u.2))).filter fits
  cands.foldl (fun b f => match b with
    | none => some f
    | some g => some (min f g)) none

/-- Zero a frame: its bytes at rest, and no block of it stays (R241). -/
def State.zeroFrame (s : State) (pa size : Nat) : State :=
  let s1 := s.modDie (dieOfPa pa) (fun x => { x with
    blocks := x.blocks.filter (fun b => !meets (b.frame * 4096) 4096 pa size || b.replica) })
  { s1 with mem := s1.mem.keep (fun a => !(decide (pa ≤ a) && decide (a < pa + size))) }

/-- FRAME of a leaf (R229). -/
def withFrame (leaf : DWord) (pa : Nat) : DWord :=
  BitVec.ofNat 64 (leaf.toNat - leaf.toNat % 2 ^ 48 + leaf.toNat % 2 ^ 16 + pa % 2 ^ 48 / 2 ^ 16 * 2 ^ 16)

/-- The frames of the mailbox window, at either of its places, which no pool includes (R426). -/
def windowFrames : List (Nat × Nat) := [(0x0000003FF0000000, 2 ^ 28), (0x001D803FF0000000, 2 ^ 28)]

/-- FILL 1: take a frame of the leaf's page size from the pool of the die its FRAME names, zero it and map it; none
where it is declined. Frames that the launch has taken, retired ones and those of the mailbox window are not free (R241,
R408, R426, R434). -/
def State.demandZero (s : State) (x : Launch) (isl page size : Nat) (leaf : DWord) : Option State :=
  let d := 2 * isl + (if leaf.getLsbD 47 then 1 else 0)
  let region := x.pool.getD d (0, 0)
  if !leaf.getLsbD 1 || !s.diePresent d then none
  else match freeFrame (isl * 2 ^ 48 + region.1 % 2 ^ 48) region.2 size (x.used ++ s.retired ++ windowFrames) with
    | none => none
    | some pa =>
      let s1 := (s.zeroFrame pa size).modLaunch x.num (fun x => { x with used := (pa, size) :: x.used })
      some (s1.writeLeaf isl x.num page size (withFrame (leaf ||| 1#64) pa))

/-- SIZE of R219. -/
def pageSizeCode (size : Nat) : Nat := if size = 65536 then 0 else if size = 2 ^ 21 then 1 else 2

/-- Post a map event on the queue's event ring: none while the ring is full, or where the queue is lost (R419, R426). -/
def State.postEvent (s : State) (q isl L page size : Nat) : Option State :=
  if 256 ≤ q then none
  else
    let log2n := s.qfield q 3 32 5
    let evw := s.qfield q 4 0 32
    if 2 ^ log2n ≤ ahead evw (s.qfield q 4 32 32) then none
    else
      let at_ := s.mailbox + s.qfield q 3 0 28 + 32 * (evw % 2 ^ log2n)
      let e0 := L % 2 ^ 32 * 2 ^ 32 + pageSizeCode size * 2 ^ 13 + isl * 2 ^ 8 + 1
      some ((s.cmdWrite at_ (wordBytes [e0, page, 0, 0])).setQ q 32 (bytesOf (evw + 1) 4))

/-- MAP_REQUEST (R230, R241, R419): subject the request. The command engine acts on the FILL policy of the entry that is
not present. -/
def execMapRequest (s : State) : Out :=
  event s (match s.mapReqs.find? (fun r => decide (r.id = s.sub 0)) with
    | none => none
    | some r =>
      if r.posted then none
      else
        let gone := { s with mapReqs := s.mapReqs.filter (fun x => x.id != r.id) }
        match s.launch? r.launch with
        | none => some gone
        | some x =>
          match s.walk r.die r.launch r.page with
          | .present _ => some (s.sendNotices r.isl r.launch r.page r.size false)
          | .moving _ => some (s.sendNotices r.isl r.launch r.page r.size false)
          | .absent page size fill entry _ =>
            let decline := some (s.sendNotices r.isl r.launch r.page r.size true)
            if fill = 1 then
              match s.demandZero x r.isl page size entry with
              | some s1 => some (s1.sendNotices r.isl r.launch r.page r.size false)
              | none => decline
            else if fill = 2 then
              (s.postEvent x.queue r.isl r.launch r.page r.size).map (fun s => { s with
                mapReqs := updWhere (fun y => y.id == r.id) (fun y => { y with posted := true }) s.mapReqs })
            else decline)

/-! ### Shoot-downs -/

/-- A cached translation meets the range of a shoot-down; an empty range meets everything of the launch (R237).
(DEDUCED, log 58) -/
def Shoot.sweeps (x : Shoot) (c : Cached) : Bool :=
  c.launch == x.launch && (decide (x.lo = x.hi) || meets c.page c.size x.lo (x.hi - x.lo))

/-- A translation an access holds meets the range. -/
def Shoot.covers (x : Shoot) (launch : Nat) (t : Tr) : Bool :=
  launch == x.launch && !t.scratch && (decide (x.lo = x.hi) || meets t.page t.size x.lo (x.hi - x.lo))

/-- Issue a shoot-down: to the cores of the island that hold a team of the launch, and to the engines of both dies
(R237). -/
def State.shootDown (s : State) (L isl lo hi : Nat) : Nat × State :=
  let ts := s.launchCores isl L ++ (s.islandDies isl).map (fun d => 2 ^ 13 + d)
  (s.nextId, { s with
    shoots := s.shoots ++ [{ id := s.nextId, launch := L, isl := isl, lo := lo, hi := hi, targets := ts }]
    nextId := s.nextId + 1 })

/-- SHOOTDOWN (R238 steps 1 to 4): subject the shoot-down and the target, whose translations are swept. -/
def execShootdown (s : State) : Out :=
  event s (match s.shoots.find? (fun x => decide (x.id = s.sub 0)) with
    | none => none
    | some x =>
      let t := s.sub 1
      if !x.targets.contains t || x.swept.contains t then none
      else
        let s1 := if t < 2 ^ 13 then
            s.modCore t (fun k => { k with
              lastPage := k.lastPage.filter (fun e => !x.sweeps e.2.2)
              tlb := k.tlb.filter (fun e => !x.sweeps e) })
          else
            s.modDie (t - 2 ^ 13) (fun y => { y with
              engineTlb := y.engineTlb.filter (fun e => !x.sweeps e)
              walker := y.walker.filter (fun w => w.1 != x.launch) })
        some { s1 with
          shoots := updWhere (fun y => y.id == x.id) (fun y => { y with
            swept := y.swept ++ [t]
            stamp := y.stamp ++ [(t, s.nextId)] }) s1.shoots
          nextId := s1.nextId + 1 })

/-- No access of core c that translated within the range before the sweep has still to perform (R238 step 5). -/
def State.coreDrained (s : State) (x : Shoot) (c before : Nat) : Bool :=
  (s.opsOn c x.launch).all (fun o => o.accs.all (fun a =>
    a.performed || decide (before ≤ a.id) || !(a.tr.toList ++ a.trs).any (x.covers o.launch))) &&
  s.groups.all (fun g => decide (s.coreOf g.launch g.team ≠ c) || g.sq.all (fun e => decide (before ≤ e.id) || !x.covers g.launch e.tr)) &&
  (s.core c).path.all (fun p => p.applied || (match p.store with
    | none => true
    | some e => decide (before ≤ e.id) || !x.covers p.launch e.tr))

/-- No fabric operation that translated within the range on die d before the sweep has still to perform (R247).
(DEDUCED, log 58) -/
def State.engineDrained (s : State) (x : Shoot) (d before : Nat) : Bool :=
  let old := fun (l : List (Nat × Option Tr)) => l.any (fun p => match p.2 with
    | none => false
    | some t => x.covers x.launch t)
  decide (s.recvDie x.isl ≠ d) || s.fabs.all (fun f => decide (before ≤ f.id) || f.launch != x.launch || f.over s ||
    !(f.dests.any (fun e => decide (e.isl = x.isl) && decide (0 < e.left) && old e.trs) ||
      (decide (s.coreOf f.launch f.team / 256 = x.isl) && old f.ltrs)))

/-- SHOOTDOWN_ACK (R238 steps 5 and 6): subject the shoot-down and the target. -/
def execShootdownAck (s : State) : Out :=
  event s (match s.shoots.find? (fun x => decide (x.id = s.sub 0)) with
    | none => none
    | some x =>
      let t := s.sub 1
      let before := ((x.stamp.find? (fun p => p.1 == t)).map (·.2)).getD 0
      if !x.swept.contains t || x.acked.contains t then none
      else if !(if t < 2 ^ 13 then s.coreDrained x t before else s.engineDrained x (t - 2 ^ 13) before) then none
      else some { s with shoots := updWhere (fun y => y.id == x.id) (fun y => { y with acked := y.acked ++ [t] }) s.shoots })

/-- Every target has acknowledged. -/
def Shoot.over (x : Shoot) : Bool := x.targets.all (fun t => x.acked.contains t)

/-! ### Page changes -/

/-- Start a change of a page (R249). (DEDUCED, log 52) -/
def State.changePage (s : State) (L isl page size : Nat) (old new : DWord) (queue : Nat) (retire : Bool) (charged : Nat) : State :=
  { s with
    changes := s.changes ++ [{ id := s.nextId, launch := L, isl := isl, page := page, size := size, old := old, new := new
                               step := if old.getLsbD 0 then 1 else 5, queue := queue, retire := retire, charged := charged }]
    nextId := s.nextId + 1 }

/-- An earlier change of an overlapping page is under way, or an open accumulator range pins the page (R249).
(DEDUCED, log 52) -/
def State.changeBlocked (s : State) (c : Change) : Bool :=
  s.changes.any (fun b => decide (b.id < c.id) && b.launch == c.launch && b.isl == c.isl && meets b.page b.size c.page c.size) ||
    s.ranges.any (fun r => r.launch == c.launch && r.isl == c.isl && r.live && meets r.base r.len c.page c.size)

/-- Step 3 of R250 is complete: no store-queue entry and no side-log entry of the page is unacknowledged on a core of the
island. -/
def State.changeDrained (s : State) (c : Change) : Bool :=
  let on := fun (t : Tr) => !t.scratch && meets t.page t.size c.page c.size
  s.groups.all (fun g => g.launch != c.launch || decide (s.coreOf g.launch g.team / 256 ≠ c.isl) || g.sq.all (fun e => !on e.tr)) &&
    s.cores.all (fun k => decide (k.id / 256 ≠ c.isl) ||
      (k.sideLog.all (fun e => !e.onPage c.launch c.page c.size) &&
        k.path.all (fun p => p.launch != c.launch || (match p.store with
          | none => true
          | some e => !on e.tr))))

/-- The fields of two leaves that a change of GRAIN, COMP, CMETA or FRAME, or a removal, touches (R251). -/
def recast (old new : DWord) : Bool :=
  !new.getLsbD 0 || decide (old.extractLsb' 8 6 ≠ new.extractLsb' 8 6) || decide (old.extractLsb' 16 32 ≠ new.extractLsb' 16 32)

/-- Invalidate a page's sectors in the L1 of every core of die d. -/
def State.dropSectors (s : State) (d pa size : Nat) : State :=
  ((s.cores.map (·.id)).filter (fun c => decide (dieOfCore c = d))).foldl (fun s c =>
    s.invalidateL1 c (fun tag _ => decide (pa / 32 ≤ tag) && decide (tag < (pa + size) / 32))) s

/-- The page's sectors in the L1s of an island's cores: whether it is a page of mode R now (R192, R201). -/
def State.markSectors (s : State) (isl pa size : Nat) (r : Bool) : State :=
  { s with cores := updWhere (fun k => decide (k.id / 256 = isl)) (fun k => { k with
      l1 := updWhere (fun x => decide (pa / 32 ≤ x.tag) && decide (x.tag < (pa + size) / 32)) (fun x => { x with rpage := r }) k.l1 }) s.cores }

/-- Drop the page's blocks of die d: the replicas, or the home's own, dirty grains written to HBM first. -/
def State.dropPage (s : State) (d pa size : Nat) (replica : Bool) : State :=
  s.dropBlocks d (fun b => b.replica == replica && meets (b.frame * 4096) 4096 pa size)

/-- Move a frame's bytes to its new frame (R251). -/
def State.moveFrame (s : State) (pa pa' size : Nat) : State :=
  let old := s.mem.filter (fun e => decide (pa ≤ e.1) && decide (e.1 < pa + size))
  let s1 := s.zeroFrame pa' size
  { s1 with mem := old.foldl (fun m e => Cells.set 0 m (e.1 - pa + pa') e.2) s1.mem }

/-- Step 4 of R250: the invalidations of R251. -/
def State.changeInvalidate (s : State) (c : Change) : State :=
  let pa := entryBase c.isl c.old 16
  let home := dieOfPa pa
  let away := 4 * (home / 2) + 1 - home
  let all := recast c.old c.new || (decide (modeOf c.old = 2) && decide (modeOf c.new ≠ 2))
  let narrow := isIsland c.old && !isIsland c.new
  let s1 := if all || narrow || (decide (modeOf c.old = 0) && decide (modeOf c.new = 1) && isIsland c.old)
    then s.dropSectors away pa c.size else s
  let s2 := if all then s1.dropSectors home pa c.size else s1
  let s3 := if all || narrow then s2.dropPage away pa c.size true else s2
  let s4 := if recast c.old c.new then s3.dropPage home pa c.size false else s3
  let pa' := entryBase c.isl c.new 16
  let s5 := s4.markSectors c.isl pa c.size (decide (modeOf c.new = 2))
  if c.new.getLsbD 0 && decide (pa' ≠ pa) then s5.moveFrame pa pa' c.size else s5

/-- A queue whose packet at `next` has done its work: the packet's row then takes it as over. -/
def State.release (s : State) (q : Nat) : State :=
  s.modQueue q (fun x => { x with stalled := false, busy := some x.next })

/-- The end of a change: the notices of step 6 have gone out. The last change of a retired frame logs the retirement
(R436), and the last of a packet lets its queue go on. -/
def State.changeOver (s : State) (c : Change) : State :=
  let s1 : State := { s with changes := s.changes.filter (fun x => x.id != c.id) }
  let pa := entryBase c.isl c.old 16
  let s2 := if c.retire && !s1.changes.any (fun x => x.retire && decide (entryBase x.isl x.old 16 = pa)) then
      s1.logEvent (dieOfPa pa) 2 0 pa c.charged else s1
  if decide (c.queue < 256) && !s2.changes.any (fun x => x.queue == c.queue) then s2.release c.queue else s2

/-- PAGE_CHANGE_STEP (R249 to R251, R423): subject the change, whose next step the lease holder has carried out. -/
def execPageChangeStep (s : State) : Out :=
  event s (match if s.leader?.isNone then none else s.changes.find? (fun c => decide (c.id = s.sub 0)) with
    | none => none
    | some c =>
      let put := fun (s : State) (f : Change → Change) => { s with changes := updWhere (fun x => x.id == c.id) f s.changes }
      if c.step = 1 then
        if s.changeBlocked c then none
        else
          -- the entry as it stands once earlier changes are over; a retirement ends where the frame is no longer mapped
          let cur := (s.islandEntry c.isl c.launch c.page c.size).getD 0 &&& ~~~0x8000#64
          let new := if c.retire then cur &&& ~~~1#64 else c.new
          let gone := !cur.getLsbD 0 || !cur.getLsbD 1
          if c.retire && (gone || decide (cur.extractLsb' 16 32 ≠ c.old.extractLsb' 16 32)) then some (put s (fun x => { x with step := 6 }))
          else if gone then some (put s (fun x => { x with step := 5, old := cur }))
          else some (put (s.writeLeaf c.isl c.launch c.page c.size (cur ||| 0x8000#64)) (fun x => { x with step := 2, old := cur, new := new }))
      else if c.step = 2 then
        match s.shoots.find? (fun x => decide (x.id = c.shoot)) with
        | none =>
          let (i, s1) := s.shootDown c.launch c.isl c.page (c.page + c.size)
          some (put s1 (fun x => { x with shoot := i }))
        | some x =>
          if x.over then some (put { s with shoots := s.shoots.filter (fun y => y.id != x.id) } (fun x => { x with step := 3 })) else none
      else if c.step = 3 then if s.changeDrained c then some (put s (fun x => { x with step := 4 })) else none
      else if c.step = 4 then some (put (s.changeInvalidate c) (fun x => { x with step := 5 }))
      else if c.step = 5 then
        if !c.old.getLsbD 0 && s.changeBlocked c then none
        else
          let s1 := (s.writeLeaf c.isl c.launch c.page c.size c.new).markSectors c.isl (entryBase c.isl c.new 16) c.size
            (decide (modeOf c.new = 2))
          let back := c.old.getLsbD 0 && !c.retire && (!c.new.getLsbD 0 || decide (c.old.extractLsb' 16 32 ≠ c.new.extractLsb' 16 32))
          let frame := entryBase c.isl c.old 16
          let s2 := if back then s1.modLaunch c.launch (fun x => { x with used := x.used.filter (fun u => u.1 != frame) }) else s1
          some (put s2 (fun x => { x with step := 6 }))
      else some ((s.sendNotices c.isl c.launch c.page c.size false).changeOver c))

end Sys2Proof.Machine
end

