-- ==== Sys2Proof/Machine/Command.lean ====
section
/-!
DEFINITION. Command.lean: the command engine's queues and packets (R399 to R406, R415 to R419).
-/
namespace Sys2Proof.Machine

/-! ### Queues -/

/-- Where the command engine stands in queue q. -/
def State.queue (s : State) (q : Nat) : Queue := (s.queues.find? (fun x => x.q == q)).getD { q := q }

/-- Change the place in queue q, which then exists. -/
def State.putQueue (s : State) (q : Nat) (f : Queue → Queue) : State :=
  if s.queues.any (fun x => x.q == q) then s.modQueue q f else { s with queues := s.queues ++ [f { q := q }] }

/-- Queue q runs and holds a packet that has not been taken (R402). -/
def State.pending (s : State) (q : Nat) : Bool :=
  decide (q < 256) && decide (s.qstate q = 1) && s.diePresent (s.recvCore q) && decide ((s.queue q).next ≠ s.qfield q 2 0 32)

/-- Packet i of queue q: P0 to P3 (R402, R404). -/
def State.packet (s : State) (q i : Nat) : List DWord :=
  let at_ := s.mailbox + s.qfield q 0 0 28 + 32 * (i % 2 ^ (s.qfield q 0 32 5))
  (List.range 4).map (fun k => BitVec.ofNat 64 (s.homeNum (at_ + 8 * k) 8))

/-- The packet that queue q may take now. The service queue is read before every other queue of its core (R403).
(DEDUCED, log 50) -/
def State.take (s : State) (q : Nat) : Option (Queue × List DWord) :=
  let x := s.queue q
  if !s.pending q || x.stalled || (decide (q ≠ 0) && s.pending 0 && decide (s.recvCore 0 = s.recvCore q)) then none
  else some (x, s.packet q x.next)

/-- RPTR of a queue: at the outermost open LOOP, else at the packet to take (R402). -/
def Queue.released (x : Queue) : Nat :=
  match (x.stack.reverse).find? (fun e => decide (e.1 = 0)) with
  | some e => e.2.1
  | none => x.next

/-- Move on in a queue: change its place and publish RPTR. -/
def State.moveQueue (s : State) (q : Nat) (f : Queue → Queue) : State :=
  let s1 := s.putQueue q (fun x => f { x with stalled := false, busy := none })
  s1.setRptr q (s1.queue q).released

/-- The packet is done with. (DEDUCED, log 50) -/
def State.pass (s : State) (q : Nat) : State := s.moveQueue q (fun x => { x with next := (x.next + 1) % 2 ^ 32 })

/-- The packet at `next` halts the queue (R404). -/
def State.reject (s : State) (q err : Nat) : State := s.haltQueue q err (s.queue q).next

/-- A field of a packet word. -/
def pfield (p : List DWord) (k lo n : Nat) : Nat := fieldOf (p.getD k 0).toNat lo n

/-- A must-be-zero field of the packet is nonzero: bits outside the masks (R405). (DEDUCED, log 51) -/
def strayBits (p : List DWord) (ms : List Nat) : Bool :=
  (List.range 4).any (fun k => (p.getD k 0) &&& ~~~(BitVec.ofNat 64 (ms.getD k 0)) != 0)

/-- The opcodes that are assigned (R405). -/
def opcodes : List Nat := [0, 1, 2, 3, 4, 5, 6, 7, 8, 9, 0x10, 0x11, 0x12, 0x13, 0x14, 0x15]

/-- A launch of the queue has not retired (R406, R417, R418). -/
def State.launchesOpen (s : State) (q : Nat) : Bool :=
  s.launches.any (fun x => x.queue == q && decide (x.phase ≠ .over))

/-- The row of a packet that is no structure: `is` recognises it, `masks` are its assigned bits, `svc` whether the service
queue accepts it. While packets are skipped it has no effect (R418). (DEDUCED, log 50) -/
def packetRow (is : List DWord → Bool) (svc : Bool) (masks : List Nat)
    (f : Nat → List DWord → State → Option State) (s : State) : Out :=
  event s (match s.take (s.sub 0) with
    | none => none
    | some (x, p) =>
      let q := s.sub 0
      if !is p then none
      else if decide (0 < x.skip) || decide (x.busy = some x.next) then some (s.pass q)
      else if q = 0 ∧ !svc then some (s.reject q 6)
      else if strayBits p masks then some (s.reject q 2)
      else f q p s)

/-- The packet has this opcode. -/
def isOp (n : Nat) (p : List DWord) : Bool := decide (pfield p 0 0 8 = n)

/-- HENEZ_NOP (R405): subject the queue, as for every packet. -/
def execHenezNop (s : State) : Out := packetRow (isOp 0) true [0xFF, 0, 0, 0] (fun q _ s => some (s.pass q)) s

/-- PACKET_OPCODE_NOT_ASSIGNED (R404). -/
def execHenezUnassigned (s : State) : Out :=
  event s (match s.take (s.sub 0) with
    | none => none
    | some (x, p) =>
      if opcodes.contains (pfield p 0 0 8) then none
      else if 0 < x.skip then some (s.pass (s.sub 0))
      else some (s.reject (s.sub 0) 1))

/-! ### Enabling -/

/-- The descriptor's faults of R402: a reserved field, a size, an alignment, or a ring beyond the window. -/
def State.badDescriptor (s : State) (q : Nat) : Bool :=
  let f := s.qfield q
  let ring := fun (base log2n : Nat) => decide (log2n < 4) || decide (16 < log2n) || decide (base % 32 ≠ 0) ||
    decide (2 ^ 28 < base + 32 * 2 ^ log2n)
  decide (f 0 42 22 ≠ 0) || decide (f 0 40 1 ≠ 0) || decide (f 0 28 4 ≠ 0) || decide (f 3 37 27 ≠ 0) || decide (f 3 28 4 ≠ 0) ||
    decide (f 5 48 16 ≠ 0) || decide (f 5 2 6 ≠ 0) || decide (f 6 0 64 ≠ 0) || decide (f 7 0 64 ≠ 0) ||
    ring (f 0 0 28) (f 0 32 5) || ring (f 3 0 28) (f 3 32 5)

/-- STATE has been written 1 (R402): the descriptor is checked; a queue that did not run goes on at RPTR, with the
structures that are open outside the outermost LOOP. (DEDUCED, log 50) -/
def State.enableQueue (s : State) (q : Nat) (ran : Bool) : State :=
  if s.badDescriptor q then s.haltQueue q 8 (s.rptr q)
  else if ran then s
  else (s.dropWait q).putQueue q (fun x =>
    let outer := (x.stack.reverse.takeWhile (fun e => decide (e.1 ≠ 0))).reverse
    -- each structure opened while packets are skipped has deepened the skipping by one
    { x with
      next := s.rptr q
      stack := outer
      skip := x.skip - (x.stack.length - outer.length)
      stalled := false
      busy := none })

/-- STATE has been written 0: the queue takes no further packet (R402). -/
def State.disableQueue (s : State) (q : Nat) : State :=
  (s.dropWait q).modQueue q (fun x => { x with stalled := false, busy := none })

/-- The host writes STATE of a queue. -/
def State.writeState (s : State) (q v : Nat) : State :=
  s.setQ q 40 [BitVec.ofNat 8 (4 * s.qfield q 5 2 6 + v)]

/-- QUEUE_ENABLE (R402): subject the queue. The host writes STATE 1. -/
def execQueueEnable (s : State) : Out :=
  event s (
    let q := s.sub 0
    if 256 ≤ q ∨ (s.absentCode (dieOfPa s.mailbox)).isSome then none
    else some ((s.writeState q 1).enableQueue q (decide (s.qstate q = 1))))

/-- QUEUE_DISABLE (R402): subject the queue. The host writes STATE 0. -/
def execQueueDisable (s : State) : Out :=
  event s (
    let q := s.sub 0
    if 256 ≤ q ∨ (s.absentCode (dieOfPa s.mailbox)).isSome then none
    else some ((s.writeState q 0).disableQueue q))

/-! ### Conditions and structures -/

/-- P0 to P3 of WAIT and IF (R405): a condition code or bit that is not assigned, or a misaligned word. -/
def badCondition (p : List DWord) : Bool :=
  let w64 := pfield p 0 11 1 = 1
  decide (5 < pfield p 0 8 3) || decide (pfield p 1 0 53 % (if w64 then 8 else 4) ≠ 0) ||
    (!w64 && (decide (pfield p 2 32 32 ≠ 0) || decide (pfield p 3 32 32 ≠ 0)))

/-- The condition of a WAIT or IF holds now. -/
def State.condNow (s : State) (p : List DWord) : Bool :=
  let w64 := decide (pfield p 0 11 1 = 1)
  condHolds (pfield p 0 8 3) w64 (BitVec.ofNat 64 (s.homeNum (pfield p 1 0 53) (if w64 then 8 else 4))) (p.getD 2 0) (p.getD 3 0)

/-- The home of a physical address is an absent die, an island with no joined die or an empty site.
(DEDUCED, log 51) -/
def State.noHome (s : State) (pa : Nat) : Bool := (s.absentCode (dieOfPa pa)).isSome

/-- WAIT (R415, R416): the condition is tested once at arming; else an entry of the home's watch table is armed and the
queue stalls until a write satisfies it. While the table is full the packet waits. -/
def execHenezWait (s : State) : Out :=
  packetRow (isOp 3) false [0xFFF, 0x1FFFFFFFFFFFFF, 0xFFFFFFFFFFFFFFFF, 0xFFFFFFFFFFFFFFFF] (fun q p s =>
    let pa := pfield p 1 0 53
    if badCondition p then some (s.reject q 2)
    else if s.noHome pa then some (s.reject q 7)
    else if s.condNow p then some (s.pass q)
    else if 256 ≤ (s.die (dieOfPa pa)).watch.length then none
    else some ((s.modDie (dieOfPa pa) (fun x => { x with
      watch := x.watch ++ [{ addr := pa, mask := p.getD 3 0, ref := p.getD 2 0, cmp := pfield p 0 8 3
                             w64 := decide (pfield p 0 11 1 = 1), queue := q }] })).putQueue q (fun x => { x with stalled := true }))) s

/-- The row of a structure packet (R418): it is processed once the queue's earlier launches have retired.
(DEDUCED, log 51) -/
def structRow (n : Nat) (late : Bool) (masks : List Nat)
    (f : Nat → Queue → List DWord → State → Option State) (s : State) : Out :=
  event s (match s.take (s.sub 0) with
    | none => none
    | some (x, p) =>
      let q := s.sub 0
      if !isOp n p then none
      else if q = 0 then some (s.reject q 6)
      else if decide (x.skip = 0) && strayBits p masks then some (s.reject q 2)
      else if late && s.launchesOpen q then none
      else f q x p s)

/-- Go on after the packet with these open structures and this depth of skipping. (DEDUCED, log 50) -/
def State.nest (s : State) (q : Nat) (st : List (Nat × Nat × Nat)) (skip : Nat) : State :=
  s.moveQueue q (fun x => { x with stack := st, skip := skip, next := (x.next + 1) % 2 ^ 32 })

/-- LOOP (R418): the count is read once; with a count of 0 the body is skipped. -/
def execHenezLoop (s : State) : Out :=
  structRow 5 true [0xFF, 0x1FFFFFFFFFFFFF, 0, 0] (fun q x p s =>
    let pa := pfield p 1 0 53
    if 8 ≤ x.stack.length then some (s.reject q 3)
    else if 0 < x.skip then some (s.nest q ((0, x.next, 0) :: x.stack) (x.skip + 1))
    else if s.noHome pa then some (s.reject q 7)
    else
      let n := s.homeNum pa 4
      some (s.nest q ((0, x.next, n) :: x.stack) (if n = 0 then 1 else 0))) s

/-- ENDLOOP (R404, R418): back to the LOOP while turns are left. -/
def execHenezEndloop (s : State) : Out :=
  structRow 6 false [0xFF, 0, 0, 0] (fun q x _ s =>
    match x.stack with
    | (0, start, left) :: rest =>
      if 0 < x.skip then some (s.nest q rest (x.skip - 1))
      else if left ≤ 1 then some (s.nest q rest 0)
      else some (s.moveQueue q (fun x => { x with stack := (0, start, left - 1) :: rest, next := (start + 1) % 2 ^ 32 }))
    | _ => some (s.reject q 3)) s

/-- IF (R418): the condition is tested once, as WAIT does. -/
def execHenezIf (s : State) : Out :=
  structRow 7 true [0xFFF, 0x1FFFFFFFFFFFFF, 0xFFFFFFFFFFFFFFFF, 0xFFFFFFFFFFFFFFFF] (fun q x p s =>
    if decide (x.skip = 0) && badCondition p then some (s.reject q 2)
    else if 8 ≤ x.stack.length then some (s.reject q 3)
    else if 0 < x.skip then some (s.nest q ((1, x.next, 0) :: x.stack) (x.skip + 1))
    else if s.noHome (pfield p 1 0 53) then some (s.reject q 7)
    else some (s.nest q ((1, x.next, 0) :: x.stack) (if s.condNow p then 0 else 1))) s

/-- ELSE (R404, R418). -/
def execHenezElse (s : State) : Out :=
  structRow 8 true [0xFF, 0, 0, 0] (fun q x _ s =>
    match x.stack with
    | (1, start, n) :: rest => some (s.nest q ((2, start, n) :: rest) (if x.skip = 0 then 1 else if x.skip = 1 then 0 else x.skip))
    | _ => some (s.reject q 3)) s

/-- ENDIF (R404, R418). -/
def execHenezEndif (s : State) : Out :=
  structRow 9 true [0xFF, 0, 0, 0] (fun q x _ s =>
    match x.stack with
    | (k, _, _) :: rest => if k = 0 then some (s.reject q 3) else some (s.nest q rest (x.skip - 1))
    | [] => some (s.reject q 3)) s

/-! ### Signals -/

/-- The most recent launch of a queue (R417). -/
def State.lastLaunch (s : State) (q : Nat) : Option Launch := (s.launches.filter (fun x => x.queue == q)).reverse.head?

/-- Where a SIGNAL goes. -/
inductive SignalAt where
  | home (pa grain : Nat)
  | err (n : Nat)
  | later
  deriving DecidableEq, Repr

/-- The address a SIGNAL names (R417). (DEDUCED, log 54) -/
def State.signalAt (s : State) (q : Nat) (p : List DWord) : SignalAt :=
  if pfield p 0 10 1 = 0 then
    if s.noHome (pfield p 1 0 53) then .err 7 else .home (pfield p 1 0 53) 32
  else
    let isl := pfield p 0 16 5
    match s.lastLaunch q, (s.islandDies isl).head? with
    | some x, some d =>
      if windowBase ≤ pfield p 1 0 57 ∨ 30 ≤ isl then .err 5
      else match s.walk d x.num (pfield p 1 0 57) with
        | .present t => if !mayWrite t.leaf || s.noHome t.pa then .err 5 else .home (t.phys (pfield p 1 0 57)) (grainOf t.leaf)
        | .moving _ => .later
        | .absent _ _ _ _ _ => .err 5
    | _, _ => .err 5

/-- A SIGNAL (R417): a store or an atomic addition that performs after every earlier launch of its queue has retired, and
their writes have performed. (DEDUCED, log 54) -/
def signalRow (add : Bool) (s : State) : Out :=
  packetRow (fun p => isOp 4 p && decide (pfield p 0 8 1 = (if add then 1 else 0))) true
    [0x1F07FF, 0x1FFFFFFFFFFFFFF, 0xFFFFFFFFFFFFFFFF, 0] (fun q p s =>
      let n := if pfield p 0 9 1 = 1 then 8 else 4
      let past := s.launches.filter (fun x => x.queue == q)
      if pfield p 0 10 1 = 0 ∧ pfield p 1 53 4 ≠ 0 then some (s.reject q 2)
      else if s.launchesOpen q || s.cores.any (fun k => k.path.any (fun e => past.any (fun x => x.num == e.launch))) then none
      else match s.signalAt q p with
        | .later => none
        | .err e => some (s.reject q e)
        | .home pa grain =>
          let v := pfield p 2 0 64
          some ((s.homeWriteAll pa grain (bytesOf (if add then s.homeNum pa n + v else v) n)).pass q)) s

/-- SIGNAL with OP 0 (R417). -/
def execHenezSignalStore (s : State) : Out := signalRow false s

/-- SIGNAL with OP 1 (R417). -/
def execHenezSignalAdd (s : State) : Out := signalRow true s

/-! ### System commands -/

/-- A packet that waits for the lease holder, who carries out every system command (R399, R419, R423).
(DEDUCED, log 59) -/
def byLeader (f : Nat → List DWord → State → Option State) (q : Nat) (p : List DWord) (s : State) : Option State :=
  if s.leader?.isNone then none else f q p s

/-- The roles of a die's banks once some accepted commands have been carried out: queue, mask, role, quota of each
(R257). -/
def rolesAfter (x : Die) (cs : List (Nat × Nat × Nat × Nat)) : List Nat :=
  cs.foldl (fun rs c => rs.zipIdx.map (fun b => if c.2.1.testBit b.2 then c.2.2.1 else b.1)) (x.brole.map (·.role))

/-- Fewer than 8 banks would have the cache role (R257). -/
def fewCaches (rs : List Nat) : Bool := decide ((rs.filter (fun r => decide (r = 0))).length < 8)

/-- A launch is placed or saved on die d (R257). -/
def State.dieInUse (s : State) (d : Nat) : Bool := s.launches.any (fun x => x.onDies && x.dies.contains d)

/-- BANKROLE (R257, R419): refused, or accepted to wait until the die is free, behind the commands accepted before it. -/
def execHenezBankrole (s : State) : Out :=
  packetRow (isOp 0x10) false [0x1FFFFFFF, 0xFFFFFFFF, 0, 0] (byLeader (fun q p s =>
    let d := 2 * pfield p 0 8 5 + pfield p 0 13 1
    let c := (q, pfield p 1 0 32, pfield p 0 14 2, pfield p 0 16 13)
    if 30 ≤ pfield p 0 8 5 then some (s.reject q 2)
    else if !s.diePresent d || fewCaches (rolesAfter (s.die d) ((s.die d).bankCmd ++ [c])) || decide (c.2.2.1 = 3) ||
        decide (4608 < c.2.2.2) then some (s.reject q 5)
    else some ((s.modDie d (fun x => { x with bankCmd := x.bankCmd ++ [c] })).putQueue q (fun x => { x with stalled := true })))) s

/-- BANKROLE_EXECUTE (R257, R258, R423): subject the die. The lease holder carries out the die's first accepted command,
unless one that was accepted before it, and has been given up since, had made up for it. -/
def execBankroleExecute (s : State) : Out :=
  event s (
    let d := s.sub 0
    match (s.die d).bankCmd with
    | [] => none
    | (q, mask, role, quota) :: rest =>
      if s.dieInUse d || s.leader?.isNone then none
      else if fewCaches (rolesAfter (s.die d) [(q, mask, role, quota)]) then some (s.reject q 5)
      else
        let s1 := s.dropBlocks d (fun _ => true)
        let s2 := ((s1.cores.map (·.id)).filter (fun c => decide (dieOfCore c = d))).foldl (fun s c => s.invalidateL1 c (fun _ _ => true)) s1
        let s3 := s2.modDie d (fun x => { x with
          bankCmd := rest
          brole := (x.brole.zipIdx).map (fun b =>
            let y : Brole := if mask.testBit b.2 then { b.1 with role := role, accq := quota } else b.1
            { y with aused := 0 })
          obuf := []
          predictor := [] })
        some ({ s3 with mem := s3.mem.keep (fun a => !(isScratch a && decide (dieOfPa a = d))) }.release q))

/-- The page that holds va, as the island's tables map it now (R419): its size and entry. -/
def State.mappedAt (s : State) (isl L va : Nat) : Option Look := ((s.islandDies isl).head?).map (fun d => s.walk d L va)

/-- PAGEMODE (R249, R419): each page's change is started; the queue stalls until the last has been carried out. -/
def execHenezPagemode (s : State) : Out :=
  packetRow (isOp 0x11) false [0xFFFFFFFF00001FFF, 0x1FFFFFFFFFFFFFF, 0xFFFFFFFFFFFFFFFF, 0xFFFFFFFF] (byLeader (fun q p s =>
    let isl := pfield p 0 8 5
    let L := pfield p 0 32 32
    let base := pfield p 1 0 57
    let leaf := p.getD 2 0
    let n := pfield p 3 0 32
    let live := ((s.launch? L).map (fun x => decide (x.phase ≠ .over))).getD false
    if n = 0 ∨ 30 ≤ isl ∨ !leaf.getLsbD 1 ∨ inTransition leaf ∨ !leafOk leaf 65536 then some (s.reject q 2)
    else if !live then some (s.reject q 5)
    else match s.mappedAt isl L base with
      | some (.moving _) => none
      | some (.present t) =>
        let page := fun (k : Nat) => base + k * t.size
        let olds := (List.range n).map (fun k => s.islandEntry isl L (page k) t.size)
        if t.page ≠ base ∨ windowBase < page n ∨ olds.any (fun o => !((o.map (fun e => e.getLsbD 1)).getD false)) then some (s.reject q 5)
        else if !leafOk leaf t.size then some (s.reject q 2)
        else if s.changes.any (fun c => c.launch == L && c.isl == isl && meets c.page c.size base (n * t.size)) then none
        else
          let new := fun (k : Nat) => withFrame leaf (leaf.toNat % 2 ^ 48 / 2 ^ 16 * 2 ^ 16 + k * t.size)
          let s1 := (List.range n).foldl (fun s k =>
            s.changePage L isl (page k) t.size ((olds.getD k none).getD 0) (new k) q false 0) s
          some (s1.putQueue q (fun x => { x with stalled := true }))
      | _ => some (s.reject q 5))) s

/-- A set of topology tables that R376 accepts. (DEDUCED, log 51) -/
def State.topoOk (s : State) (ts : List Word) : Bool :=
  let up := fun (i : Nat) => decide (i < 30) && (s.diePresent (2 * i) || s.diePresent (2 * i + 1))
  let e := fun (a b : Nat) => (ts.getD (30 * a + b) 0).toNat
  ts.all (fun w => decide (w.toNat < 128) && decide (w.toNat % 4 ≠ 3)) &&
    (List.range 30).all (fun a => !up a || (decide (e a a % 4 = 1) && (List.range 30).all (fun b =>
      if !up b then decide (e a b % 4 = 0)
      else if e a b % 4 = 2 then
        let v := e a b / 4
        up v && decide (v ≠ a) && decide (v ≠ b) && decide (e a v % 4 = 1) && decide (e v b % 4 = 1)
      else true)))

/-- TOPO (R376, R419). -/
def execHenezTopo (s : State) : Out :=
  packetRow (isOp 0x12) false [0xFF, 0x1FFFFFFFFFFFFF, 0, 0] (byLeader (fun q p s =>
    if s.launches.any Launch.onDies then none
    else
      let pa := pfield p 1 0 53
      let ts := (List.range 900).map (fun i => BitVec.ofNat 32 (s.cmdNum (pa + 4 * i) 4))
      if s.noHome pa || !s.topoOk ts then some (s.reject q 5)
      else some ({ s with topo := ts }.pass q))) s

/-- The variants of PREEMPT by RESUME and ABORT. -/
def isPreempt (resume abort : Bool) (p : List DWord) : Bool :=
  isOp 0x13 p && (decide (pfield p 0 9 1 = 1) == abort) && (abort || (decide (pfield p 0 8 1 = 1) == resume))

/-- PREEMPT with RESUME 0 and ABORT 0 (R419, R424): the launch is held; its teams are pre-empted. A launch that is being
stopped stays so. -/
def execHenezPreempt (s : State) : Out :=
  packetRow (isPreempt false false) true [0xFFFFFFFF000003FF, 0, 0, 0] (byLeader (fun q p s =>
    some ((s.modLaunch (pfield p 0 32 32) (fun x => if x.stopping || decide (x.phase = .over) then x else { x with held := true })).pass q))) s

/-- PREEMPT with RESUME 1 (R419, R424): the hold is released. -/
def execHenezPreemptResume (s : State) : Out :=
  packetRow (isPreempt true false) true [0xFFFFFFFF000003FF, 0, 0, 0] (byLeader (fun q p s =>
    some ((s.modLaunch (pfield p 0 32 32) (fun x => { x with held := false, kept := x.kept && x.stopping })).pass q))) s

/-- PREEMPT with ABORT 1 (R168, R410, R419): a held launch is freed and completed with STATUS 4; one that a debug stop
kept halts its queue. -/
def execHenezPreemptAbort (s : State) : Out :=
  packetRow (isPreempt false true) true [0xFFFFFFFF000003FF, 0, 0, 0] (byLeader (fun q p s =>
    if pfield p 0 8 1 = 1 then some (s.reject q 2)
    else match s.launch? (pfield p 0 32 32) with
      | none => some (s.pass q)
      | some x =>
        if x.phase = .over ∨ !x.held then some (s.pass q)
        else
          let s1 := s.endLaunch x 4 0
          some ((if x.kept then s1.haltQueue x.queue 4 x.pkt else s1).pass q))) s

/-- The MAP packet has this value of DECLINE. -/
def isMap (decline : Bool) (p : List DWord) : Bool := isOp 0x14 p && (decide (pfield p 0 13 1 = 1) == decline)

/-- The row of a MAP packet (R403, R419): it answers the map request of its page that FILL 2 has left to the host; without
one, or with the page present, it has no effect. (DEDUCED, log 51) -/
def mapRow (decline : Bool) (s : State) : Out :=
  packetRow (isMap decline) true [0xFFFFFFFF00003FFF, 0x1FFFFFFFFFFFFFF, 0xFFFFFFFFFFFFFFFF, 0] (byLeader (fun q p s =>
    let isl := pfield p 0 8 5
    let L := pfield p 0 32 32
    let page := pfield p 1 0 57
    let leaf := p.getD 2 0
    let req := s.mapReqs.find? (fun r => r.isl == isl && r.launch == L && r.page == page)
    let size := (req.map (·.size)).getD 65536
    if q ≠ 0 then some (s.reject q 6)
    else if !decline && (!leaf.getLsbD 1 || !leaf.getLsbD 0 || inTransition leaf || !leafOk leaf size) then some (s.reject q 2)
    else match req with
      | none => some (s.pass q)
      | some r =>
        match s.mappedAt isl L page with
        | some (.absent _ _ fill _ _) =>
          if !r.posted && decide (fill ≠ 2) then some (s.pass q)
          else
            let s1 := if decline then s else s.writeLeaf isl L page r.size leaf
            some ((s1.sendNotices isl L page r.size decline).pass q)
        | _ => some (s.pass q))) s

/-- MAP (R241, R419). -/
def execHenezMap (s : State) : Out := mapRow false s

/-- MAP with DECLINE 1 (R241, R419). -/
def execHenezMapDecline (s : State) : Out := mapRow true s

/-- The row of an XFER packet (R397, R419): the whole transfer is one step; a second subject of 1 says that the link has
failed. What the far module holds is outside the panel (log 13). (DEDUCED, log 51) -/
def xferRow (fetch : Bool) (s : State) : Out :=
  packetRow (fun p => isOp 0x15 p && (decide (pfield p 0 9 1 = 1) == fetch)) false
    [0xFFFFFFFF000003FF, 0x1FFFFFFFFFFFFF, 0x1FFFFFFFFFFFFF, 0] (byLeader (fun q p s =>
      let n := pfield p 0 32 32
      let pa := pfield p 1 0 53
      if n % 32 ≠ 0 then some (s.reject q 2)
      else if s.launchesOpen q then none
      else if s.sub 1 = 1 ∨ (0 < n ∧ (s.noHome pa ∨ s.noHome (pa + n - 1))) then some (s.reject q 5)
      else
        let bs := (List.range n).map (fun i => Config.farByte (pfield p 0 8 1) (pfield p 2 0 53 + i))
        some ((if fetch then s.cmdWrite pa bs else s).pass q))) s

/-- XFER that sends (R419). -/
def execHenezXferSend (s : State) : Out := xferRow false s

/-- XFER that fetches (R419). -/
def execHenezXferFetch (s : State) : Out := xferRow true s

end Sys2Proof.Machine
end

