-- ==== Sys2Proof/Machine/Place.lean ====
section
/-!
DEFINITION. Place.lean: launches: acceptance, the checks of the plan, placement and start, victims (R27, R123, R194, R316,
R339, R358, R406 to R409, R420, R421).
-/
namespace Sys2Proof.Machine

/-! ### Numbering -/

/-- Number a is at most b, in the order of 32-bit numbers that wrap. -/
def notAfter (a b : Nat) : Bool := decide (ahead b a < 2 ^ 31)

/-- The number after n, modulo 2^32, skipping 0 (R406). -/
def nextNumber (n : Nat) : Nat := if (n + 1) % 2 ^ 32 = 0 then 1 else (n + 1) % 2 ^ 32

/-- The lease holder gives a launch its number, at most the ceiling that every joined die has acknowledged (R423). -/
def State.number (s : State) : Option (Nat × State) :=
  match s.leader? with
  | none => none
  | some d =>
    let l := (s.die d).lease
    if !notAfter l.next l.ackedCeiling then none
    else some (l.next, s.modDie d (fun x => { x with lease := { x.lease with next := nextNumber l.next } }))

/-! ### The launch block -/

/-- Roles of a launch: number of groups and blocks of each (R407). -/
def Launch.roles (x : Launch) : List (Nat × Nat) :=
  (List.range (x.bits 12 0 2 + 1)).map (fun r => (x.bits 12 (7 * r + 2) 7, x.bits 12 (6 * r + 30) 6))

def Launch.nteam (x : Launch) : Nat := x.bits 2 0 16
def Launch.paired (x : Launch) : Bool := decide (x.bits 2 51 1 = 1)
def Launch.needs (x : Launch) : Needs :=
  { t := x.bits 2 16 9, ntile := x.bits 2 25 6, nring := x.bits 2 31 4, nmeta := x.bits 2 35 4, nloc := x.bits 2 39 12 }
def Launch.crhdr (x : Launch) : Nat := x.bits 3 0 32

/-- Reserved bits of the launch block: word, first bit, width (R407). -/
def reservedBits : List (Nat × Nat × Nat) :=
  [(0, 57, 7), (1, 53, 11), (2, 55, 9), (5, 48, 16), (6, 53, 11), (7, 53, 11), (8, 53, 11), (9, 53, 11), (10, 57, 7), (11, 32, 32),
   (12, 54, 10), (13, 0, 64), (14, 0, 64), (15, 0, 64)]

/-- REASON 1 of R409. -/
def Launch.malformed (x : Launch) (list : List Nat) : Bool :=
  reservedBits.any (fun b => decide (x.bits b.1 b.2.1 b.2.2 ≠ 0)) || list.any (fun e => decide (2 ^ 13 ≤ e)) ||
    decide (x.nteam = 0) || decide (5760 < x.nteam) || decide (x.needs.t = 0) || decide (32 < x.needs.ntile) ||
    decide (8 < x.needs.nring) || decide (8 < x.needs.nmeta) || decide (2048 < x.needs.nloc) ||
    (decide (x.order = 2) && decide (x.swz = 0)) ||
    x.roles.any (fun r => decide (r.1 = 0) || decide (64 < r.1) || decide (r.2 = 0) || decide (32 < r.2)) ||
    decide (x.bits 0 0 57 % 4 ≠ 0) || decide (x.bits 1 0 53 % 4 ≠ 0) || decide (x.bits 8 0 53 % 64 ≠ 0) || decide (x.bits 9 0 53 % 64 ≠ 0) ||
    decide (x.bits 10 0 57 % 65536 ≠ 0) || decide (x.bits 11 0 32 % 65536 ≠ 0) ||
    (decide (x.bits 4 0 64 ≠ 2 ^ 64 - 1) && decide (x.bits 4 0 64 % 64 ≠ 0)) ||
    (decide (x.crhdr ≠ 2 ^ 32 - 1) && decide (x.crhdr % 128 ≠ 0)) ||
    [x.ext.1, x.ext.2.1, x.ext.2.2].contains (2 ^ 32 - 1) || decide (2 ^ 48 ≤ x.total)

/-- Teams 2j and 2j+1 stand on paired cores of a whole island (R11, R14). -/
def State.pairsOk (s : State) (x : Launch) : Bool :=
  decide (x.cores.length % 2 = 0) && (List.range (x.cores.length / 2)).all (fun j =>
    let a := x.cores.getD (2 * j) 0
    let b := x.cores.getD (2 * j + 1) 0
    decide (a / 256 = b / 256) && decide (a % 128 = b % 128) && decide (a ≠ b) && s.diePresent (dieOfCore a) && s.diePresent (dieOfCore b))

/-- No two entries of a list are equal. -/
def distinct (l : List Nat) : Bool := decide (l.eraseDups.length = l.length)

/-- A die could supply the launch's slots and scratch under some bank roles (R257, R409). -/
def Launch.couldHoldDie (x : Launch) : Bool :=
  decide ((x.nob + 3071) / 3072 + (x.scratch + 25165823) / 25165824 + 8 ≤ 32)

/-- REASON 7 of R409. -/
def State.neverFits (s : State) (x : Launch) : Bool :=
  x.cores.any (fun c => !(s.core c).fits [] x.needs) || !x.couldHoldDie ||
    (decide (x.crhdr ≠ 2 ^ 32 - 1) && decide (256 * x.needs.nloc < x.crhdr + 128)) ||
    x.cores.any (fun c => (s.islandDies (c / 256)).any (fun d => decide (x.roots.getD d 0 = 0)))

/-- The checks of R409, in order: the REASON of the first that fails, 0 for none. (DEDUCED, log 56) -/
def State.refusal (s : State) (x : Launch) (list : List Nat) : Nat :=
  if x.malformed list then 1
  else if x.cores.any (fun c => decide (96 ≤ c % 128) || (s.absentCode (dieOfCore c)).isSome) then 2
  else if !distinct x.cores then 3
  else if x.paired && (x.gang || !s.pairsOk x) then 4
  else if x.gang && !distinct (x.cores.map (· / 256)) then 5
  else if decide (x.needs.t < sumOf x.roles (fun r => r.1 * r.2)) || decide (64 < sumOf x.roles (·.1)) then 6
  else if s.neverFits x then 7
  else 0

/-- n words of w bytes from a physical address, as the command engine reads them. -/
def State.cmdWords (s : State) (pa n w : Nat) : List Nat := (List.range n).map (fun i => s.cmdNum (pa + w * i) w)

/-- What acceptance reads: the block, the core list, the roots and the pool (R407, R408). -/
def State.readLaunch (s : State) (num q pkt lblk : Nat) (ext : Nat × Nat × Nat) (debug serial : Bool) : Launch × List Nat :=
  let x0 : Launch :=
    { num := num, queue := q, pkt := pkt, prio := s.qfield q 0 37 3, deadline := s.qfield q 1 0 64
      acceptedAt := s.timeOf (s.recvCore q), debug := debug, serial := serial, ext := ext
      block := (s.cmdWords lblk 16 8).map (BitVec.ofNat 64) }
  let n := if 5760 < x0.nteam then 0 else x0.nteam
  let list := s.cmdWords (x0.bits 1 0 53) n 4
  let pool := s.cmdWords (x0.bits 7 0 53) 120 8
  ({ x0 with
      cores := list.map (· % 2 ^ 13)
      counts := List.replicate n 0
      gangArr := List.replicate n []
      roots := s.cmdWords (x0.bits 6 0 53) 60 8
      pool := (List.range 60).map (fun d => (pool.getD (2 * d) 0, pool.getD (2 * d + 1) 0))
      phase := .waiting }, list)

/-- Refuse a launch that has been accepted: its completion record says why and its queue halts (R28, R409, R410). -/
def State.refuse (s : State) (x : Launch) (reason : Nat) : State :=
  let s1 := s.modLaunch x.num (fun x => { x with phase := .over, reason := reason })
  ((s1.complete { x with phase := .over, reason := reason } 3 reason).haltQueue x.queue 4 x.pkt)

/-- Accept and plan (R27 steps 2 and 3): none while no number may be given. (DEDUCED, log 56) -/
def State.accept (s : State) (q lblk : Nat) (ext : Nat × Nat × Nat) (debug serial : Bool) : Option State :=
  match s.number with
  | none => none
  | some (num, s1) =>
    let (x, list) := s1.readLaunch num q (s1.queue q).next lblk ext debug serial
    let reason := s1.refusal x list
    let s2 := ({ s1 with launches := s1.launches.filter (fun y => !(y.num == num)) ++ [x] } : State).pass q
    some (if reason = 0 then s2 else s2.refuse x reason)

/-- LAUNCH (R406): with SERIAL 1, after every earlier launch of its queue has retired. -/
def execHenezLaunch (s : State) : Out :=
  packetRow (isOp 1) false [0x3FF, 0x1FFFFFFFFFFFFF, 0xFFFFFFFFFFFFFFFF, 0xFFFFFFFF] (fun q p s =>
    let serial := decide (pfield p 0 9 1 = 1)
    if pfield p 1 0 53 % 128 ≠ 0 then some (s.reject q 2)
    else if serial && s.launchesOpen q then none
    else s.accept q (pfield p 1 0 53) (pfield p 2 0 32, pfield p 2 32 32, pfield p 3 0 32) (decide (pfield p 0 8 1 = 1)) serial) s

/-- LAUNCH_IND (R406): the extents are read once every earlier launch of the queue has retired. -/
def execHenezLaunchInd (s : State) : Out :=
  packetRow (isOp 2) false [0x1FF, 0x1FFFFFFFFFFFFF, 0x1FFFFFFFFFFFFF, 0] (fun q p s =>
    let at_ := pfield p 2 0 53
    if pfield p 1 0 53 % 128 ≠ 0 ∨ at_ % 16 ≠ 0 then some (s.reject q 2)
    else if s.launchesOpen q then none
    else if s.noHome at_ then some (s.reject q 7)
    else s.accept q (pfield p 1 0 53) (s.homeNum at_ 4, s.homeNum (at_ + 4) 4, s.homeNum (at_ + 8) 4)
      (decide (pfield p 0 8 1 = 1)) false) s

/-! ### Placement -/

/-- The launch's resources are free, but for those of some launches (R13, R27 step 4). (DEDUCED, log 56) -/
def State.fitsWithout (s : State) (x : Launch) (out : List Nat) : Bool :=
  x.cores.all (fun c => (s.core c).fits ((s.residents c).filter (fun t => !out.contains t.launch)) x.needs) &&
    x.dies.all (fun d => s.diePresent d && s.dieFits x s.launches d)

/-- Launches that may be pre-empted for x: of lower priority, placed, on one of its cores (R420). -/
def State.victimsFor (s : State) (x : Launch) : List Launch :=
  s.launches.filter (fun y => y.phase = .placed && decide (y.prio < x.prio) && !y.held && !y.stopping && !y.victim &&
    x.cores.any (fun c => (s.residents c).any (fun t => t.launch == y.num)))

/-- The victim taken first: lowest priority, then most recently placed (R420). -/
def firstVictim (ys : List Launch) : Option Launch :=
  ys.foldl (fun b y => match b with
    | none => some y
    | some z => some (if y.prio < z.prio ∨ (y.prio = z.prio ∧ z.placedAt < y.placedAt) then y else z)) none

/-- Resources of a core that are short for needs n beside some teams: those of them, or the slot, that needs y hold
(R13, R420). -/
def Core.shortOf (k : Core) (ts : List Team) (n y : Needs) : Bool :=
  (decide (511 < sumOf ts (·.t) + n.t + k.fencedBlocks) && decide (0 < y.t)) ||
    (decide (32 < sumOf ts (·.ntile) + n.ntile + k.fencedTiles) && decide (0 < y.ntile)) ||
    (decide (8 < sumOf ts (·.nring) + n.nring) && decide (0 < y.nring)) ||
    (decide (8 < sumOf ts (·.nmeta) + n.nmeta) && decide (0 < y.nmeta)) ||
    (decide (524288 < 256 * (sumOf ts (·.nloc) + n.nloc) + k.fencedLocal) && decide (0 < y.nloc)) || decide (4 ≤ ts.length)

/-- Launch y holds a team slot, or resources, that x needs and that those of `out` do not leave it (R420). -/
def State.inTheWay (s : State) (x : Launch) (out : List Nat) (y : Launch) : Bool :=
  x.cores.any (fun c =>
    let ts := (s.residents c).filter (fun t => !out.contains t.launch)
    ts.any (fun t => t.launch == y.num && (s.core c).shortOf ts x.needs t.needs))

/-- Add victims until the launch would fit (R420): none where that cannot be. (DEDUCED, log 56) -/
def State.chooseVictims (s : State) (x : Launch) : Nat → List Launch → List Nat → Option (List Nat)
  | n, ys, out =>
    if s.fitsWithout x out then some out
    else match n, firstVictim (ys.filter (s.inTheWay x out)) with
      | m + 1, some y => s.chooseVictims x m (ys.filter (fun z => z.num != y.num)) (y.num :: out)
      | _, _ => none

/-- The launches that a launch with a deadline that does not fit would pre-empt now: none where it needs none beside those
on their way to the save, which count as free (R420). (DEDUCED, log 56) -/
def State.newVictims (s : State) (x : Launch) : List Nat :=
  let leaving := (s.launches.filter (fun y => y.held || y.stopping || y.victim)).map (·.num)
  if x.deadline = 0 then []
  else ((s.chooseVictims x (s.victimsFor x).length (s.victimsFor x) leaving).getD []).filter (fun n => !leaving.contains n)

/-- An earlier launch of its queue still waits to be placed (R406). -/
def State.behind (s : State) (x : Launch) : Bool :=
  (s.launches.takeWhile (fun y => y.num != x.num)).any (fun y => y.queue == x.queue && decide (y.phase = .waiting))

/-- The launch may be placed now (R27 step 4, R421). -/
def State.placesNow (s : State) (x : Launch) : Bool := s.mayTake x.num && s.fitsWithout x []

/-- Launches are planned by priority, highest first, then by acceptance (R420): one planned before x can be placed or
choose victims now. -/
def State.plannedBefore (s : State) (x : Launch) : Bool :=
  let earlier := (s.launches.takeWhile (fun y => y.num != x.num)).map (·.num)
  s.launches.any (fun y => decide (y.phase = .waiting) && !y.held && !s.behind y &&
    (decide (x.prio < y.prio) || (y.prio == x.prio && earlier.contains y.num)) && (s.placesNow y || !(s.newVictims y).isEmpty))

/-- VICTIM_SELECTION (R420): a launch with a deadline that does not fit marks the launches that policy is to pre-empt, in
its turn. (DEDUCED, log 56) -/
def State.selectVictims (s : State) (x : Launch) : Option State :=
  let new := s.newVictims x
  if new.isEmpty || s.plannedBefore x then none
  else some { s with launches := updWhere (fun y => new.contains y.num) (fun y => { y with victim := true }) s.launches }

/-- The groups of a team at its start: group numbers from role 0 upward, every thread at the entry clause (R27 step 5, R117,
R127). -/
def Launch.startGroups (x : Launch) (team : Nat) : List Group :=
  let rs := (x.roles.zipIdx).flatMap (fun r => List.replicate r.1.1 (r.2, r.1.2))
  rs.zipIdx.map (fun g =>
    { launch := x.num, team := team, gnum := g.2, role := g.1.1
      thr := List.replicate 32 { pc := BitVec.ofNat 57 (x.bits 0 0 57) }
      nblk := g.1.2 })

/-- The team placed on a core: budgets (R123), zeroed local store (R194, R316), tiles ready and zero (R339). -/
def Launch.startTeam (x : Launch) (team core slot : Nat) : Team :=
  let use := x.roles.map (fun r => r.1 * r.2)
  let rest := sumOf use.tail id
  { launch := x.num, idx := team, core := core, slot := slot
    ngrp := sumOf x.roles (·.1), nrole := x.roles.length, t := x.needs.t
    budget := (x.needs.t - rest) :: (use.tail ++ List.replicate (4 - use.length) 0)
    held := use ++ List.replicate (4 - use.length) 0
    nloc := x.needs.nloc, ntile := x.needs.ntile, nring := x.needs.nring, nmeta := x.needs.nmeta
    tiles := List.replicate x.needs.ntile {}
    rings := List.replicate x.needs.nring {}
    partner := if x.paired then some (if team % 2 = 0 then team + 1 else team - 1) else none }

/-- Place and start one team: the core's L1 is emptied (R192), and the last-page registers of the slot (R234). -/
def State.placeTeam (s : State) (x : Launch) (team core : Nat) : State :=
  let slot := s.freeSlot core
  let s1 := (s.invalidateL1 core (fun _ _ => true)).modCore core (fun k => { k with
    lastPage := k.lastPage.filter (fun e => decide (e.1 / 64 ≠ slot)) })
  { s1 with
    teams := s1.teams ++ [x.startTeam team core slot]
    groups := s1.groups ++ x.startGroups team }

/-- Steps 4 and 5 of R27: die scratch and operand-buffer slots are zeroed (R259, R261). -/
def State.placeLaunch (s : State) (x : Launch) : State :=
  let now := s.timeOf (if x.queue < 256 then s.recvCore x.queue else 59)
  let s1 : State := { s with
    mem := s.mem.keep (fun a => decide (a / 2 ^ 60 ≠ x.num + 1))
    dies := s.dies.map (fun y => { y with obuf := y.obuf.filter (fun e => decide (e.1 ≠ x.num)) }) }
  let s2 := (x.cores.zipIdx).foldl (fun s c => s.placeTeam x c.2 c.1) s1
  { s2 with nextId := s2.nextId + 1 }.modLaunch x.num (fun x => { x with
    phase := .placed, tstart := now, placedAt := s.nextId
    late := decide (x.deadline ≠ 0) && decide (x.acceptedAt + x.deadline < now) })

/-- LAUNCH_PLACE (R27 steps 4 and 5, R406, R420, R421): subject the launch. -/
def execLaunchPlace (s : State) : Out :=
  event s (match s.launch? (s.sub 0) with
    | none => none
    | some x =>
      if x.phase ≠ .waiting ∨ x.held ∨ s.behind x ∨ s.leader?.isNone then none
      else if s.placesNow x then some (s.placeLaunch x)
      else s.selectVictims x)

end Sys2Proof.Machine
end

