-- ==== Sys2Proof/Machine/Lease.lean ====
section
/-!
DEFINITION. Lease.lean: the leader lease and the identity report (R422, R423, R431).
-/
namespace Sys2Proof.Machine

/-! ### Reports -/

/-- The 32 words of the identity and attestation reports (R431). The part's identity is Config's (log 12). -/
def State.reportWords (s : State) (nonce : List Nat) (echo : Nat) : List Nat :=
  let id_ := fun (n : Nat) => (Config.identity n).toNat
  let inc := fun (d : Nat) => (s.die d).incar % 65536
  [2 ^ 32 + 0x4F5A4944, id_ 0, s.islMask.toNat, s.dieMask.toNat, id_ 1 % 2 ^ 32 * 2 ^ 32 + id_ 2 % 2 ^ 32] ++
    (List.range 15).map (fun j => inc (4 * j) + inc (4 * j + 1) * 2 ^ 16 + inc (4 * j + 2) * 2 ^ 32 + inc (4 * j + 3) * 2 ^ 48) ++
    [((s.leader?).map s.timeOf).getD 0] ++ nonce ++ (List.range 6).map (fun k => id_ (3 + k)) ++ [echo % 2 ^ 32]

/-- The lease holder writes a report at an offset of the window: both signatures, then the body, its last word last
(R431). (DESIGN CHOICE, log 12) -/
def State.writeReport (s : State) (off : Nat) (nonce : List Nat) (echo : Nat) : State :=
  if (s.leader?).isNone then s
  else
    let ws := s.reportWords nonce echo
    let body := wordBytes ws
    let sig := fun (alg n : Nat) => (List.range n).map (fun i => Config.signature alg i body)
    let at_ := s.mailbox + off
    (((s.cmdWrite (at_ + 0x100) (sig 0 384)).cmdWrite (at_ + 0x280) (sig 1 16224)).cmdWrite at_ (body.take 248)).cmdWrite
      (at_ + 248) (body.drop 248)

/-- IDENTITY_REPORT_WRITE (R431): at each join and at each fence. (PRESUMED, log 60) -/
def State.identityReport (s : State) : State := s.writeReport 0x10000 [0, 0, 0, 0] 0

/-- ATTESTATION_REQUEST (R431): the host increments the count, where it has not already, and the lease holder answers it with
the challenge that stands in the window. -/
def execAttestationRequest (s : State) : Out :=
  event s (
    if (s.leader?).isNone || (s.absentCode (dieOfPa s.mailbox)).isSome then none
    else
      let at_ := s.mailbox + 0x20020
      let n := s.homeNum at_ 4
      let s1 := if n = s.attest then s.cmdWrite at_ (bytesOf (n + 1) 4) else s
      let m := s1.homeNum at_ 4
      some { s1.writeReport 0x30000 ((List.range 4).map (fun k => s1.homeNum (s.mailbox + 0x20000 + 8 * k) 8)) m with attest := m })

/-! ### The lease -/

/-- Change a die's part in the lease. -/
def State.modLease (s : State) (d : Nat) (f : Lease → Lease) : State := s.modDie d (fun x => { x with lease := f x.lease })

/-- Rank of a die (R422). -/
def State.dieRank (s : State) (d : Nat) : Nat := ((List.range d).filter (fun e => s.diePresent e)).length

/-- The later of two ceilings. (DEDUCED, log 59) -/
def laterCeiling (a b : Nat) : Nat := if notAfter a b then b else a

/-- The dies that have joined. (DEDUCED, log 59) -/
def State.joinedDies (s : State) : List Nat := (List.range 60).filter (fun d => s.diePresent d)

/-- Every joined die has acknowledged the leader's renewal: its ceiling may be used (R423). (DEDUCED, log 59) -/
def State.checkAcks (s : State) (d : Nat) : State :=
  s.modLease d (fun l => if s.joinedDies.all (fun e => l.acks.contains e) then { l with ackedCeiling := l.ceiling } else l)

/-- LEASE_RENEWAL (R422): subject the leader, 2 ms after its last renewal. -/
def execLeaseRenewal (s : State) : Out :=
  event s (
    let d := s.sub 0
    let l := (s.die d).lease
    if l.st ≠ .leader ∨ !s.diePresent d ∨ s.now < l.sent + 2000000 then none
    else some ((s.modLease d (fun l => { l with
      sent := s.now
      ceiling := laterCeiling l.ceiling ((l.next + 4096) % 2 ^ 32)
      hearers := [d]
      acks := [d] })).checkAcks d))

/-- RENEWAL_HEARD (R422): subject a joined die, which hears the holder's latest renewal once. A follower adopts a term that
is at least its own. -/
def execRenewalHeard (s : State) : Out :=
  event s (match s.leader? with
    | none => none
    | some m =>
      let d := s.sub 0
      let r := (s.die m).lease
      if d = m ∨ !s.diePresent d ∨ r.hearers.isEmpty ∨ r.hearers.contains d then none
      else
        let s1 := s.modLease m (fun l => { l with hearers := l.hearers ++ [d] })
        some (s1.modLease d (fun l =>
          let l1 := { l with ceiling := laterCeiling l.ceiling r.ceiling }
          if l.st = .follower ∧ l.term ≤ r.term then { l1 with term := r.term, heard := s.now } else l1)))

/-- RENEWAL_ACKNOWLEDGEMENT (R423): subject the die whose acknowledgement reaches the leader. -/
def execRenewalAcknowledgement (s : State) : Out :=
  event s (match s.leader? with
    | none => none
    | some m =>
      let d := s.sub 0
      let r := (s.die m).lease
      if !r.hearers.contains d || r.acks.contains d || !s.diePresent d then none
      else some ((s.modLease m (fun l => { l with acks := l.acks ++ [d] })).checkAcks m))

/-- LEASE_TIMEOUT (R422): subject a follower that has heard no renewal for 10 ms. -/
def execLeaseTimeout (s : State) : Out :=
  event s (
    let d := s.sub 0
    let l := (s.die d).lease
    if l.st ≠ .follower ∨ s.now < l.heard + 10000000 then none
    else some (s.modLease d (fun l => { l with st := .elect, timer := s.now + 100000 * s.dieRank d })))

/-- A launch that is planned but not placed is planned again (R423); one that now fails a check is refused (R429).
(DEDUCED, log 56) -/
def State.replan (s : State) : State :=
  (s.launches.filter (fun x => decide (x.phase = .waiting))).foldl (fun s x =>
    let r := s.refusal x []
    if r = 0 then s else s.refuse x r) s

/-- LEADER_TAKEOVER (R423): plans are made again, and page changes under way restart from their first step.
(DEDUCED, log 59) -/
def State.takeOver (s : State) (d : Nat) : State :=
  let first := nextNumber (s.die d).lease.ceiling
  let s1 := s.modLease d (fun l => { l with
    st := .leader, term := (l.term + 1) % 2 ^ 32, claimed := s.fabricTime / 25, sent := s.now, next := first, ackedCeiling := l.ceiling, hearers := [], acks := [] })
  let s2 : State := { s1 with
    changes := s1.changes.map (fun c => { c with step := if c.old.getLsbD 0 then 1 else 5, shoot := 0 })
    shoots := s1.shoots.filter (fun x => !s1.changes.any (fun c => c.shoot == x.id)) }
  s2.replan

/-- ELECTION_TIMER (R422, R423): subject a die whose timer has expired with no claim heard. -/
def execElectionTimer (s : State) : Out :=
  event s (
    let d := s.sub 0
    let l := (s.die d).lease
    if l.st ≠ .elect ∨ !s.diePresent d ∨ s.now < l.timer then none
    else
      let s1 := s.takeOver d
      -- a fence that no holder has reported is reported now
      some (if s1.homeNum (s1.mailbox + 0x10018) 8 ≠ s1.dieMask.toNat then s1.identityReport else s1))

/-- CLAIM_HEARD (R422): subjects the die and the claimant. A higher term makes an electing die or a leader a follower; of
two claims of one term in one slot the lower die number holds the lease. -/
def execClaimHeard (s : State) : Out :=
  event s (
    let d := s.sub 0
    let c := s.sub 1
    let l := (s.die d).lease
    let r := (s.die c).lease
    if r.st ≠ .leader ∨ !s.diePresent c ∨ d = c then none
    else if (l.st = .elect ∧ l.term < r.term) ∨ (l.st = .leader ∧ (l.term < r.term ∨ (l.term = r.term ∧ l.claimed = r.claimed ∧ c < d))) then
      some (s.modLease d (fun l => { l with st := .follower, term := r.term, heard := s.now, hearers := [], acks := [] }))
    else none)

/-- LEADER_LAPSE (R422): subject a leader whose last renewal was sent 10 ms ago. -/
def execLeaderLapse (s : State) : Out :=
  event s (
    let d := s.sub 0
    let l := (s.die d).lease
    if l.st ≠ .leader ∨ s.now < l.sent + 10000000 then none
    else some (s.modLease d (fun l => { l with st := .follower, heard := s.now, hearers := [], acks := [] })))

end Sys2Proof.Machine
end

