-- ==== Sys2Proof/Machine/Boot.lean ====
section
/-!
DEFINITION. Boot.lean: boot, join and fencing of dies (R14, R156, R253, R254, R415, R422, R426, R429, R430, R435).
Self-tests, signatures and what a partner sends are inputs: a second subject of 0 says that all is well (log 12).
-/
namespace Sys2Proof.Machine

/-! ### Fencing -/

/-- A die changes its boot state. -/
def State.enterBoot (s : State) (d : Nat) (b : Boot) : State := s.modDie d (fun x => { x with boot := b, bootSince := s.now })

/-- A translation leads to die d. -/
def Tr.on (t : Tr) (d : Nat) : Bool := !t.scratch && decide (t.home = d)

/-- The launch has an access in flight to die d (R435). -/
def State.inFlightTo (s : State) (L d : Nat) : Bool :=
  let old := fun (l : List (Nat × Option Tr)) => l.any (fun p => (p.2.map (fun t => t.on d)).getD false)
  s.ops.any (fun o => o.launch == L && o.accs.any (fun a => !a.performed && (a.tr.map (fun t => t.on d)).getD false)) ||
    s.groups.any (fun g => g.launch == L && g.sq.any (fun e => e.tr.on d)) ||
    s.cores.any (fun k => k.path.any (fun e => e.launch == L && e.die == d && !e.applied)) ||
    s.contribs.any (fun c => c.launch == L && c.trs.any (fun t => t.on d)) ||
    s.mmas.any (fun m => m.launch == L && m.trs.any (fun t => t.on d)) ||
    s.ranges.any (fun r => r.launch == L && r.live && r.trs.any (fun t => t.on d)) ||
    ((s.die d).inbound ++ (s.die d).inbound2).any (fun e => e.launch == L) ||
    s.fabs.any (fun f => f.launch == L && !f.over s && (f.dests.any (fun e => decide (0 < e.left) && old e.trs) || old f.ltrs))

/-- DETAIL of MACHINE_CHECK: reason, island and die (R434). -/
def checkDetail (reason d : Nat) : Word := BitVec.ofNat 32 (reason * 2 ^ 24 + d / 2 * 2 ^ 16 + d % 2 * 2 ^ 15)

/-- A launch takes MACHINE_CHECK: it is stopped, and its teams fail (R175, R434, R435). (DEDUCED, log 61) -/
def State.machineCheck (s : State) (L addr : Nat) (detail : Word) (time : Nat) : State :=
  let r : Record := { code := Code.machineCheck, cls := Cls.launch, launch := L, addr := addr, detail := detail, time := time }
  -- of a launch that stops already it is a further record (R168)
  let s1 := if ((s.launch? L).map (·.stopping)).getD false then s.trapLog r else s
  (s1.stopLaunch r false).modAlive
    L (fun t => { t with ctx := .failed })

/-- An element of a contribution lies on die d. -/
def Contrib.elemOn (c : Contrib) (d va : Nat) : Bool :=
  c.trs.any (fun t => t.on d && decide (t.page ≤ va) && decide (va < t.page + t.size))

/-- Accesses in flight to a fenced die: stores, reductions and contributions are discarded, reads return unpredictable
values (R435). (DEDUCED, log 61) -/
def State.discardTo (s : State) (d : Nat) : State :=
  { s with
    cores := s.cores.map (fun k => { k with path := k.path.filter (fun e => e.die != d || e.applied) })
    groups := s.groups.map (fun g => { g with sq := g.sq.filter (fun e => !e.tr.on d) })
    contribs := s.contribs.map (fun c => { c with elems := c.elems.filter (fun e => !c.elemOn d e.1) })
    ops := s.ops.map (fun o => { o with accs := o.accs.map (fun a =>
      if !a.performed && (a.tr.map (fun t => t.on d)).getD false then
        { a with st := .done, unpred := true, data := s.freeBytes a.id a.len }
      else a) }) }

/-- What the cores of a fenced die have not sent is never sent (R429): queued stores and side-log entries, matrix and
fabric work, the operations of its groups. What is on its way to the other die stays. (DEDUCED, log 61) -/
def State.discardUnsent (s : State) (d : Nat) : State :=
  { s with
    cores := updWhere (fun k => decide (dieOfCore k.id = d)) (fun k => { k with sideLog := [] }) s.cores
    groups := updWhere (fun g => s.teamOn g.launch g.team d) (fun g => { g with sq := [] }) s.groups
    ops := s.ops.filter (fun o => !s.teamOn o.launch o.team d || s.cores.any (fun k => k.path.any (fun x => x.op == o.id)))
    mmas := s.mmas.filter (fun m => !s.teamOn m.launch m.team d)
    gangQ := s.gangQ.filter (fun q => !s.teamOn q.launch q.team d)
    contribs := s.contribs.filter (fun c => !s.teamOn c.launch c.team d || (c.sent && !c.refused)) }

/-- What an earlier incarnation of a die has sent is dropped where it arrives (R430): the model drops it at the die's reset.
(DEDUCED, log 69) -/
def State.discardFrom (s : State) (d : Nat) : State :=
  { s with
    cores := s.cores.filter (fun k => decide (dieOfCore k.id ≠ d))
    contribs := s.contribs.filter (fun c => !s.teamOn c.launch c.team d) }

/-- WINDOW_RELOCATION (R426, R427): the window starts from zero on die 1 of island 29, where no cache holds a byte of it; the
launches of the lost queues run on. -/
def State.relocate (s : State) : State :=
  let base := 0x001D803FF0000000
  let s1 := (s.dropSectors 58 base (2 ^ 28)).dropSectors 59 base (2 ^ 28)
  { s1 with
    mailboxMoved := true
    mem := s1.mem.keep (fun a => !(decide (base ≤ a) && decide (a < base + 2 ^ 28)))
    fills := s1.fills.filter (fun f => !meets (f.frame * 4096) 4096 base (2 ^ 28))
    queues := []
    attest := 0
    changes := s1.changes.map (fun c => { c with queue := 256 })
    launches := s1.launches.map (fun x => if x.queue < 256 then { x with queue := x.queue + 256 } else x)
    dies := s1.dies.map (fun x => { x with
      watch := [], bankCmd := []
      blocks := x.blocks.filter (fun b => !meets (b.frame * 4096) 4096 base (2 ^ 28)) }) }

/-! ### Routes and packets at a fence -/

/-- An island without a joined die takes part in no route (R376, R429): entries for it become absent, and entries through it
are planned again. The pairs of islands that now have no route come with the new state. -/
def State.replanRoutes (s : State) (isl : Nat) : State × List (Nat × Nat) :=
  let entry := fun (w : Word × Nat) =>
    if w.2 % 30 = isl then 0
    else if w.1.toNat % 4 = 2 ∧ w.1.toNat / 4 % 32 = isl then s.newEntry (w.2 / 30) (w.2 % 30) (some isl) else w.1
  let new := s.topo.zipIdx.map entry
  ({ s with topo := new },
    (s.topo.zipIdx.filter (fun w => decide (w.1 ≠ 0) && decide (new.getD w.2 0 = 0))).map (fun w => (w.2 / 30, w.2 % 30)))

/-- A packet that was to go, or is going, through an island that can no longer forward it starts again from its source
(R378). -/
def Packet.reroute (p : Packet) (isl : Nat) : Packet :=
  let before := decide (p.at_ = p.src) || (decide (p.at_ = isl) && decide (p.st = .waiting))
  if p.via = some isl ∧ before ∧ (p.st = .waiting ∨ p.st = .flying) then
    { p with st := .waiting, at_ := p.src, via := none, tries := 0 } else p

/-- The routes of an island that has no joined die left, and what was on them (R376, R378, R395, R429). -/
def State.dropRoutes (s : State) (isl : Nat) : State :=
  if s.diePresent (2 * isl) || s.diePresent (2 * isl + 1) then s
  else
    let (s1, lost) := s.replanRoutes isl
    lost.foldl (fun s p => s.noRoute p.1 p.2) { s1 with packets := s1.packets.map (·.reroute isl) }

/-! ### A die leaves -/

/-- Halt queues with an error at the packet they stand at. -/
def State.haltAll (s : State) (qs : List Nat) (err : Nat) : State := qs.foldl (fun s q => s.haltQueue q err (s.queue q).next) s

/-- Launches with a team on die d (R435): one that is saved is on no die. -/
def State.launchesOn (s : State) (d : Nat) : List Nat :=
  ((s.teams.filter (fun t => decide (dieOfCore t.core = d) && s.resident t)).map (·.launch)).eraseDups

/-- What every fence does: the window moves with die 0, the fault is logged, and the identity report is written (R426, R431,
R436). -/
def State.fenced (s : State) (d unit : Nat) : State :=
  let s1 := if d = 0 ∧ !s.mailboxMoved then s.relocate else s
  (s1.logEvent d 1 unit (unitAt d 0) 0).identityReport

/-- Fence a die (R253, R429, R435) for a machine-check reason (R434) and a unit of the log (R436). One that had joined leaves
the panel with all that this does. (DEDUCED, log 61) -/
def State.fenceDie (s : State) (d : Nat) (reason : Nat := 3) (unit : Nat := 6) : State :=
  let joined := s.diePresent d
  let time := s.timeOf d
  let on := s.launchesOn d
  let to_ := (s.launches.filter (fun x => x.onDies && !on.contains x.num && s.inFlightTo x.num d)).map (·.num)
  let waits := ((s.die d).watch.map (·.queue)).eraseDups
  let cmds := ((s.die d).bankCmd.map (·.1)).eraseDups
  let s1 := (s.enterBoot d .fenced).modDie d (fun x => { x with
    counterOn := false, fencedAt := x.counter, lease := { x.lease with st := .out, hearers := [], acks := [] } })
  if !joined then s1.fenced d unit
  else
    let s2 := (on ++ to_).foldl (fun s L => s.machineCheck L 0 (checkDetail reason d) time) s1
    let s3 := ({ s2 with lanes := s2.lanes.filter (fun l => decide (dieOfCore l.core ≠ d)) } : State).discardTo d |>.discardUnsent d
    let s4 : State := { s3 with
      dieMask := s3.dieMask &&& ~~~(1#60 <<< d)
      fills := s3.fills.filter (fun f => f.die != d)
      shoots := s3.shoots.map (fun x => { x with targets := x.targets.filter (fun t =>
        if t < 2 ^ 13 then decide (dieOfCore t ≠ d) else decide (t ≠ 2 ^ 13 + d)) })
      mapReqs := s3.mapReqs.map (fun r => if r.die = d then { r with die := 4 * (d / 2) + 1 - d } else r)
      notices := s3.notices.filter (fun n => match n.core with
        | some c => decide (dieOfCore c ≠ d)
        | none => true)
      dies := s3.dies.map (fun x => { x with toff := setNth x.toff d toffAbsent }) }
    let s5 := (s4.modDie d (fun x => { x with
        blocks := [], inbound := [], inbound2 := [], faultQ := [], faultWait := [], waits := [] })).dropBlocks (4 * (d / 2) + 1 - d) (fun b =>
      b.replica && decide (dieOfPa (b.frame * 4096) = d))
    let s6 := (s5.haltAll waits 7).haltAll cmds 5
    let s7 := (s6.modDie d (fun x => { x with watch := [], bankCmd := [] })).silence
    ((s7.dropRoutes (d / 2)).replan).fenced d unit

/-- DIE_FENCE (R429, R435): subject a joined die with a lasting fault. -/
def execDieFence (s : State) : Out :=
  event s (if (s.die (s.sub 0)).boot = .joined ∧ s.sub 0 < 60 then some (s.fenceDie (s.sub 0)).settle else none)

/-! ### Boot -/

/-- What a reset keeps of a die: module flash and what its counter must not fall below (R156, R430). -/
def Die.afterReset (x : Die) (d : Nat) : Die :=
  { Die.reset d with incar := x.incar, fencedAt := max x.fencedAt x.counter, counter := x.counter }

/-- DIE_RESET (R429): subject the die. At power good, or at a reset that the lease holder orders, a die in RESET goes on to
its self-test; an ordered reset takes a fenced die to RESET. -/
def execDieReset (s : State) : Out :=
  event s (
    let d := s.sub 0
    if 60 ≤ d ∨ !s.islMask.getLsbD (d / 2) then none
    else match (s.die d).boot with
      | .reset => some ((s.modDie d (fun x => { x with counterOn := false })).enterBoot d .selftest)
      | .fenced =>
        if (s.leader?).isNone then none
        else some { ((s.discardFrom d).modDie d (fun x => x.afterReset d)).enterBoot d .reset with
          links := (s.links.zipIdx).map (fun k => if k.2 / 32 = d / 2 ∧ k.1.st = .down then {} else k.1) }
      | _ => none)

/-- What the self-test has fenced, four numbers each: a core, register blocks, bytes of local store, tiles; or 8192 + p for
the link of plane p, 8224 for a lane group of the die-to-die link (R429, R433). -/
def fencedParts : List Nat → List (Nat × Nat × Nat × Nat)
  | c :: b :: l :: t :: rest => (c, b, l, t) :: fencedParts rest
  | _ => []

/-- Fence one unit of die d, and log it (R429, R433, R436). -/
def State.fenceUnit (s : State) (d : Nat) (p : Nat × Nat × Nat × Nat) : State :=
  if p.1 < 8192 then
    if dieOfCore p.1 ≠ d then s
    else (s.modCore p.1 (fun k => { k with fencedBlocks := p.2.1, fencedLocal := p.2.2.1, fencedTiles := p.2.2.2 })).logEvent
      d 1 4 (unitAt d p.1) 0
  else if p.1 < 8224 then
    ({ s with links := setNth s.links (32 * (d / 2) + (p.1 - 8192)) { (s.link (d / 2) (p.1 - 8192)) with st := .down } } : State).logEvent
      d 1 3 (unitAt d (p.1 - 8192)) 0
  else ((s.modDie d (fun x => { x with linkHalf := true })).modDie (4 * (d / 2) + 1 - d) (fun x => { x with linkHalf := true })).logEvent
    d 1 2 (unitAt d 0) 0

/-- SELFTEST_COMPLETE (R429, R433): subjects the die, 0 for a pass, and the units fenced. What has not passed within 2 s has
failed. (DEDUCED, log 12) -/
def execSelftestComplete (s : State) : Out :=
  event s (
    let d := s.sub 0
    if (s.die d).boot ≠ .selftest ∨ 60 ≤ d then none
    else if s.sub 1 ≠ 0 ∨ (s.die d).bootSince + 2000000000 < s.now then some (s.fenceDie d)
    else some ((fencedParts (s.subj.drop 2)).foldl (fun s p => s.fenceUnit d p) (s.enterBoot d .image)))

/-- A check that failed once has passed on its repeat: a transient fault of authentication, which is logged (R433,
R436). -/
def State.passedAgain (s : State) (d fails : Nat) : State := if fails = 0 then s else s.logEvent d 0 5 (unitAt d 0) 0

/-- IMAGE_VERIFY (R429): subjects the die and 0 where both signatures verify. -/
def execImageVerify (s : State) : Out :=
  event s (
    let d := s.sub 0
    if (s.die d).boot ≠ .image ∨ 60 ≤ d then none
    else if s.sub 1 = 0 then some ((s.enterBoot d .pair).passedAgain d (s.die d).imageFails)
    else if 1 ≤ (s.die d).imageFails then some (s.fenceDie d 3 5)
    else some (s.modDie d (fun x => { x with imageFails := x.imageFails + 1 })))

/-- The other die of the island. -/
def partnerDie (d : Nat) : Nat := 4 * (d / 2) + 1 - d

/-- IDENTITY_EXCHANGE (R429): subjects the die and 0 where the reports verify each way. A partner whose report fails twice is
fenced. -/
def execIdentityExchange (s : State) : Out :=
  event s (
    let d := s.sub 0
    let p := (s.die (partnerDie d)).boot
    if (s.die d).boot ≠ .pair ∨ 60 ≤ d ∨ !(p = .pair ∨ p = .panel ∨ p = .joined) then none
    else if s.sub 1 = 0 then some ((s.enterBoot d .panel).passedAgain d (s.die d).partnerFails)
    else if 1 ≤ (s.die d).partnerFails then some ((s.fenceDie (partnerDie d) 3 5).enterBoot d .panel)
    else some (s.modDie d (fun x => { x with partnerFails := x.partnerFails + 1 })))

/-- PARTNER_SILENT (R14, R429): subject a die whose partner has been silent for 100 ms. -/
def execPartnerSilent (s : State) : Out :=
  event s (
    let d := s.sub 0
    if (s.die d).boot ≠ .pair ∨ 60 ≤ d ∨ s.now < (s.die d).bootSince + 100000000 then none
    else some (s.enterBoot d .panel))

/-! ### Joining -/

/-- An entry that points to another place (NEXT, R228). -/
def withNext (e : DWord) (pa : Nat) : DWord :=
  BitVec.ofNat 64 (e.toNat - e.toNat % 2 ^ 48 + e.toNat % 2 ^ 8 + pa % 2 ^ 48 / 2 ^ 8 * 2 ^ 8)

/-- A frame of `size` bytes for a table in die d's own HBM: the lowest free one of the launch's pool there, zeroed
(R225). (PRESUMED, log 60) -/
def State.tableFrame (s : State) (L d size : Nat) : Option (Nat × State) :=
  match s.launch? L with
  | none => none
  | some x =>
    let region := x.pool.getD d (0, 0)
    (freeFrame (d / 2 * 2 ^ 48 + region.1 % 2 ^ 48) region.2 size (x.used ++ s.retired ++ windowFrames)).map (fun pa =>
      (pa, (s.zeroFrame pa size).modLaunch L (fun x => { x with used := (pa, size) :: x.used })))

/-- Bring die d's copy of a table, at `to_`, and those below it in agreement with its partner's, at `from_` (R225, R227,
R254): entry by entry, a leaf taken over as it is, and a pointer by a table of die d's own, which gets a frame where die d
has none yet; the entry stays not present where there is no frame. (PRESUMED, log 60) -/
def agree (L d : Nat) : List Level → Nat → Nat → Nat → State → State
  | [], _, _, _, s => s
  | lv :: rest, bits, from_, to_, s =>
    let below := fun (e : DWord) => !e.getLsbD 1 && lv.nextAllowed && pointerOk e lv.align && e.getLsbD 0
    let bits' := match rest with | [] => 0 | n :: _ => lv.shift - n.shift
    (List.range (2 ^ bits)).foldl (fun s i =>
      let e := BitVec.ofNat 64 (s.cmdNum (from_ + 8 * i) 8)
      let f := BitVec.ofNat 64 (s.cmdNum (to_ + 8 * i) 8)
      let put := fun (s : State) (e : DWord) => s.cmdWrite (to_ + 8 * i) (bytesOf e.toNat 8)
      if below e && below f && decide (dieOfPa (entryBase (d / 2) f 8) = d) then
        put (agree L d rest bits' (entryBase (d / 2) e 8) (entryBase (d / 2) f 8) s) (withNext e (entryBase (d / 2) f 8))
      else if below e then
        match s.tableFrame L d (8 * 2 ^ bits') with
        | some (pa, s1) => put (agree L d rest bits' (entryBase (d / 2) e 8) pa s1) (withNext e pa)
        | none => put s (e &&& ~~~1#64)
      else if e = f then s
      else put s e) s

/-- Leaf entries of a table and those below it: page, size, entry (R227). (PRESUMED, log 60) -/
def leavesFrom (s : State) (d : Nat) : List Level → Nat → Nat → Nat → List (Nat × Nat × DWord)
  | [], _, _, _ => []
  | lv :: rest, bits, table, va =>
    (List.range (2 ^ bits)).flatMap (fun i =>
      let e := BitVec.ofNat 64 (s.cmdNum (table + 8 * i) 8)
      let page := va + i * 2 ^ lv.shift
      if windowBase ≤ page ∨ e = 0 then []
      else if e.getLsbD 1 then (if lv.leafAllowed then [(page, 2 ^ lv.shift, e)] else [])
      else if !lv.nextAllowed || !pointerOk e lv.align || !e.getLsbD 0 then []
      else leavesFrom s d rest (match rest with | [] => 0 | n :: _ => lv.shift - n.shift) (entryBase (d / 2) e 8) page)

/-- The leaves of the table that die d keeps for a launch. -/
def State.leaves (s : State) (d L : Nat) : List (Nat × Nat × DWord) :=
  if (s.absentCode d).isSome || decide (s.root L d = 0) then [] else leavesFrom s d levels 18 (s.root L d) 0

/-- Launches that are not over. -/
def State.live (s : State) : List Launch := s.launches.filter (fun x => decide (x.phase ≠ .over))

/-- What precedes a rejoin (R254): replicas and translations of the die's frames are dropped, and its tables are brought into
agreement with its partner's. (PRESUMED, log 60) -/
def State.prepareJoin (s : State) (d : Nat) : State :=
  let p := partnerDie d
  let away := fun (c : Cached) => decide (dieOfPa (entryBase (d / 2) c.leaf 16) ≠ d)
  let s1 := (s.dropBlocks p (fun b => b.replica && decide (dieOfPa (b.frame * 4096) = d))).modDie p (fun x => { x with
    engineTlb := x.engineTlb.filter away, walker := [] })
  let s2 : State := { s1 with
    dieMask := s1.dieMask ||| (1#60 <<< d)
    cores := updWhere (fun k => decide (k.id / 256 = d / 2)) (fun k => { k with
      tlb := k.tlb.filter away, lastPage := k.lastPage.filter (fun e => away e.2.2) }) s1.cores }
  if (s2.absentCode p).isSome then s2
  else s2.live.foldl (fun s x =>
    if s.root x.num p = 0 ∨ s.root x.num d = 0 then s else agree x.num d levels 18 (s.root x.num p) (s.root x.num d) s) s2

/-- Direct entries between a newly joined island and the joined ones, where none stands (R375, R376, R429).
(PRESUMED, log 60) -/
def State.addRoutes (s : State) (isl : Nat) : State :=
  let up := fun (i : Nat) => s.diePresent (2 * i) || s.diePresent (2 * i + 1)
  { s with topo := s.topo.zipIdx.map (fun w =>
      let a := w.2 / 30
      let b := w.2 % 30
      if (a = isl ∨ b = isl) ∧ up a ∧ up b ∧ w.1.toNat % 4 = 0 then 1 else w.1) }

/-- The most that firmware writes for class 0, by path (R393). -/
def classZeroMax (p : Nat) : Nat := if p = 0 then 400 else if p = 1 then 1150 else 2300

/-- Firmware writes this value to an entry of the banded-latency table (R157, R393): entry 9c + 3p + k. -/
def latencyOk (e v : Nat) : Bool :=
  decide (e % 3 ≠ 2) || (if e < 9 then decide (v ≤ classZeroMax (e / 3)) else decide (v = 2 ^ 32 - 1))

/-- The table that firmware writes at boot, from the part's calibration (R157, R393). (DESIGN CHOICE, log 64) -/
def bootLatencies (d : Nat) : List Word :=
  (List.range 36).map (fun e =>
    let v := Config.latency d e
    if e % 3 ≠ 2 then v else if e < 9 then (if v.toNat ≤ classZeroMax (e / 3) then v else BitVec.ofNat 32 (classZeroMax (e / 3)))
    else 0xFFFFFFFF)

/-- The die is JOINED: its DIEMASK bit is set, it takes its incarnation, its counter is loaded and started, and the lease holder
measures the offsets (R156, R429, R430). -/
def State.join (s : State) (d counter : Nat) (lease : Lease → Lease) : State :=
  let s1 := (s.prepareJoin d).enterBoot d .joined
  ((s1.modDie d (fun x => { x with
    incar := (x.incar + 1) % 65536
    counter := max counter x.fencedAt
    counterOn := true
    trim := 0
    bl := bootLatencies d
    lease := lease x.lease })).addRoutes (d / 2)).measureAll

/-- PANEL_JOIN (R156, R422, R429): subjects the die and 0 where the holder verifies the island's report. While no die has
joined, the die that wins the claim joins as the first holder. -/
def execPanelJoin (s : State) : Out :=
  event s (
    let d := s.sub 0
    if (s.die d).boot ≠ .panel ∨ 60 ≤ d then none
    else match s.leader? with
      | some m =>
        let r := (s.die m).lease
        if s.sub 1 = 0 then
          some <| (s.join d (s.timeOf m) (fun l => { l with
            st := .follower, term := max l.term r.term, heard := s.now
            ceiling := laterCeiling l.ceiling r.ceiling })).passedAgain d (s.die d).reportFails |>.identityReport
        else if 1 ≤ (s.die d).reportFails then some (s.fenceDie d 3 5)
        else some (s.modDie d (fun x => { x with reportFails := x.reportFails + 1 }))
      | none =>
        if s.dieMask ≠ 0 ∨ s.sub 1 ≠ 0 then none
        else some (((s.join d 0 (fun l => { l with st := .elect })).takeOver d).identityReport))

/-- JOIN_TIMEOUT (R429): subject a die that has met no leader for 500 ms and won no claim. -/
def execJoinTimeout (s : State) : Out :=
  event s (
    let d := s.sub 0
    if (s.die d).boot ≠ .panel ∨ 60 ≤ d ∨ (s.leader?).isSome ∨ s.now < (s.die d).bootSince + 500000000 then none
    else some (s.fenceDie d))

end Sys2Proof.Machine
end

