-- ==== Sys2Proof/Machine/Integer.lean ====
section
/-!
DEFINITION. Integer.lean: the integer instructions (R48, R49, R135 to R139). Results are written once over both widths;
a 32-bit operand is the low half of the operand as read.
-/
namespace Sys2Proof.Machine

/-! ### Results -/

/-- A result of width w from one operand. -/
def un (w : Bool) (f : {n : Nat} → BitVec n → BitVec n) (x : DWord) : List Word :=
  if w then pair (f x) else [f (x.setWidth 32)]

/-- A result of width w from two operands. -/
def bin (w : Bool) (f : {n : Nat} → BitVec n → BitVec n → BitVec n) (x y : DWord) : List Word :=
  if w then pair (f x y) else [f (x.setWidth 32) (y.setWidth 32)]

/-- A result of width w from two operands and the old destination. -/
def tern (w : Bool) (f : {n : Nat} → BitVec n → BitVec n → BitVec n → BitVec n) (x y z : DWord) : List Word :=
  if w then pair (f x y z) else [f (x.setWidth 32) (y.setWidth 32) (z.setWidth 32)]

/-- A 32-bit count of an operand of width w. -/
def count (w : Bool) (f : {n : Nat} → BitVec n → Nat) (x : DWord) : List Word :=
  [BitVec.ofNat 32 (if w then f x else f (x.setWidth 32))]

/-- 1 or 0 from a comparison at width w (R49). -/
def test (w : Bool) (f : {n : Nat} → BitVec n → BitVec n → Bool) (x y : DWord) : List Word :=
  [if (if w then f x y else f (x.setWidth 32) (y.setWidth 32)) then 1 else 0]

/-- Bits [2n-1:n] of the exact signed product (R136). -/
def mulhI {n : Nat} (x y : BitVec n) : BitVec n := BitVec.ofInt n (x.toInt * y.toInt / ((2 ^ n : Nat) : Int))

/-- Bits [2n-1:n] of the exact unsigned product (R136). -/
def mulhB {n : Nat} (x y : BitVec n) : BitVec n := BitVec.ofNat n (x.toNat * y.toNat / 2 ^ n)

/-- Absolute value; the most negative value gives itself (R136). -/
def absI {n : Nat} (x : BitVec n) : BitVec n := if x.msb then -x else x

/-- Signed and unsigned minimum and maximum (R136). -/
def minI {n : Nat} (x y : BitVec n) : BitVec n := if x.sle y then x else y
def minB {n : Nat} (x y : BitVec n) : BitVec n := if x.ule y then x else y
def maxI {n : Nat} (x y : BitVec n) : BitVec n := if x.sle y then y else x
def maxB {n : Nat} (x y : BitVec n) : BitVec n := if x.ule y then y else x

/-- Shifts and rotation by an unsigned count of any size (R137). -/
def shl {n : Nat} (x y : BitVec n) : BitVec n := if y.toNat < n then x <<< y.toNat else 0
def shr {n : Nat} (x y : BitVec n) : BitVec n := if y.toNat < n then x >>> y.toNat else 0
def sar {n : Nat} (x y : BitVec n) : BitVec n :=
  if y.toNat < n then x.sshiftRight y.toNat else if x.msb then BitVec.allOnes n else 0
def rol {n : Nat} (x y : BitVec n) : BitVec n := x.rotateLeft (y.toNat % n)

/-- Effective length of a field specifier at width n (R138). -/
def fieldLen (n : Nat) (spec : Word) : Nat :=
  let pos := (spec.setWidth 8).toNat
  if n ≤ pos then 0 else min (spec.extractLsb' 8 8).toNat (n - pos)

/-- BFX.b and BFX.i (R138). -/
def bfx {n : Nat} (signed : Bool) (x : BitVec n) (spec : Word) : BitVec n :=
  let k := fieldLen n spec
  let f := x.toNat / 2 ^ (spec.setWidth 8).toNat % 2 ^ k
  if signed && decide (0 < k) && decide (2 ^ (k - 1) ≤ f) then BitVec.ofInt n ((f : Int) - (2 ^ k : Nat)) else BitVec.ofNat n f

/-- BFI (R138). -/
def bfi {n : Nat} (x : BitVec n) (spec : Word) (old : BitVec n) : BitVec n :=
  let k := fieldLen n spec
  let pos := (spec.setWidth 8).toNat
  let mask : BitVec n := if k = 0 then 0 else BitVec.ofNat n ((2 ^ k - 1) * 2 ^ pos)
  (old &&& ~~~mask) ||| ((if k = 0 then 0 else x <<< pos) &&& mask)

/-- POPC, CLZ and CTZ (R136). -/
def popc {n : Nat} (x : BitVec n) : Nat := ((List.range n).filter (fun i => x.getLsbD i)).length
def clz {n : Nat} (x : BitVec n) : Nat := ((List.range n).find? (fun i => x.getMsbD i)).getD n
def ctz {n : Nat} (x : BitVec n) : Nat := ((List.range n).find? (fun i => x.getLsbD i)).getD n

/-- PRMT (R139). -/
def prmtByte (a b sel : Word) (k : Nat) : Byte :=
  let q := (sel >>> (4 * k)).setWidth 4
  let byte : Byte := ((b ++ a : BitVec 64) >>> (8 * (q.setWidth 3).toNat)).setWidth 8
  if q.getLsbD 3 then (if byte.msb then 0xFF else 0) else byte

/-- PRMT (R139). -/
def prmt (a b sel : Word) : Word := prmtByte a b sel 3 ++ prmtByte a b sel 2 ++ prmtByte a b sel 1 ++ prmtByte a b sel 0

/-! ### Instructions -/

/-- IADD (R136). -/
def execIadd (d : BitVec 7) (a : BitVec 7) (b : BitVec 7) (u : Bool) (w : Bool) (s : State) : Out :=
  alu (.iadd d a b u w) u d (fun e => bin w (· + ·) (e.vw w a) (e.y.vw w b)) s

/-- IADD, imm7 form (R136). -/
def execIaddImm (d : BitVec 7) (a : BitVec 7) (i : BitVec 7) (u : Bool) (w : Bool) (s : State) : Out :=
  alu (.iaddImm d a i u w) u d (fun e => bin w (· + ·) (e.vw w a) (immS i)) s

/-- ISUB (R136). -/
def execIsub (d : BitVec 7) (a : BitVec 7) (b : BitVec 7) (u : Bool) (w : Bool) (s : State) : Out :=
  alu (.isub d a b u w) u d (fun e => bin w (· - ·) (e.vw w a) (e.y.vw w b)) s

/-- ISUB, imm7 form (R136). -/
def execIsubImm (d : BitVec 7) (a : BitVec 7) (i : BitVec 7) (u : Bool) (w : Bool) (s : State) : Out :=
  alu (.isubImm d a i u w) u d (fun e => bin w (· - ·) (e.vw w a) (immS i)) s

/-- IMUL: the low half (R136). -/
def execImul (d : BitVec 7) (a : BitVec 7) (b : BitVec 7) (u : Bool) (w : Bool) (s : State) : Out :=
  alu (.imul d a b u w) u d (fun e => bin w (· * ·) (e.vw w a) (e.y.vw w b)) s

/-- IMUL: the low half, imm7 form (R136). -/
def execImulImm (d : BitVec 7) (a : BitVec 7) (i : BitVec 7) (u : Bool) (w : Bool) (s : State) : Out :=
  alu (.imulImm d a i u w) u d (fun e => bin w (· * ·) (e.vw w a) (immS i)) s

/-- IMULH.i (R136). -/
def execImulhI (d : BitVec 7) (a : BitVec 7) (b : BitVec 7) (u : Bool) (w : Bool) (s : State) : Out :=
  alu (.imulhI d a b u w) u d (fun e => bin w mulhI (e.vw w a) (e.y.vw w b)) s

/-- IMULH.i, imm7 form (R136). -/
def execImulhIImm (d : BitVec 7) (a : BitVec 7) (i : BitVec 7) (u : Bool) (s : State) : Out :=
  alu (.imulhIImm d a i u) u d (fun e => bin false mulhI (e.vw false a) (immS i)) s

/-- IMULH.b (R136). -/
def execImulhB (d : BitVec 7) (a : BitVec 7) (b : BitVec 7) (u : Bool) (w : Bool) (s : State) : Out :=
  alu (.imulhB d a b u w) u d (fun e => bin w mulhB (e.vw w a) (e.y.vw w b)) s

/-- IMULH.b, imm7 form (R136). -/
def execImulhBImm (d : BitVec 7) (a : BitVec 7) (i : BitVec 7) (u : Bool) (s : State) : Out :=
  alu (.imulhBImm d a i u) u d (fun e => bin false mulhB (e.vw false a) (immU i)) s

/-- IMAD: D is the addend (R136). -/
def execImad (d : BitVec 7) (a : BitVec 7) (b : BitVec 7) (u : Bool) (w : Bool) (s : State) : Out :=
  alu (.imad d a b u w) u d (fun e => tern w (fun x y z => x * y + z) (e.vw w a) (e.y.vw w b) (e.z.vw w d)) s

/-- IMAD, imm7 form (R136). -/
def execImadImm (d : BitVec 7) (a : BitVec 7) (i : BitVec 7) (u : Bool) (w : Bool) (s : State) : Out :=
  alu (.imadImm d a i u w) u d (fun e => tern w (fun x y z => x * y + z) (e.vw w a) (immS i) (e.z.vw w d)) s

/-- IMADW.i (R136). -/
def execImadwI (d : BitVec 7) (a : BitVec 7) (b : BitVec 7) (u : Bool) (s : State) : Out :=
  alu (.imadwI d a b u) u d (fun e => pair ((e.v32 a).signExtend 64 * (e.y.v32 b).signExtend 64 + e.z.v64 d)) s

/-- IMADW.i, imm7 form (R136). -/
def execImadwIImm (d : BitVec 7) (a : BitVec 7) (i : BitVec 7) (u : Bool) (s : State) : Out :=
  alu (.imadwIImm d a i u) u d (fun e => pair ((e.v32 a).signExtend 64 * immS i + e.z.v64 d)) s

/-- IMADW.b (R136). -/
def execImadwB (d : BitVec 7) (a : BitVec 7) (b : BitVec 7) (u : Bool) (s : State) : Out :=
  alu (.imadwB d a b u) u d (fun e => pair ((e.v32 a).setWidth 64 * (e.y.v32 b).setWidth 64 + e.z.v64 d)) s

/-- IMADW.b, imm7 form (R136). -/
def execImadwBImm (d : BitVec 7) (a : BitVec 7) (i : BitVec 7) (u : Bool) (s : State) : Out :=
  alu (.imadwBImm d a i u) u d (fun e => pair ((e.v32 a).setWidth 64 * immU i + e.z.v64 d)) s

/-- INEG (R136). -/
def execIneg (d : BitVec 7) (a : BitVec 7) (z : BitVec 7) (u : Bool) (w : Bool) (s : State) : Out :=
  alu (.ineg d a z u w) u d (fun e => un w (fun x => -x) (e.vw w a)) s

/-- IABS (R136). -/
def execIabs (d : BitVec 7) (a : BitVec 7) (z : BitVec 7) (u : Bool) (w : Bool) (s : State) : Out :=
  alu (.iabs d a z u w) u d (fun e => un w absI (e.vw w a)) s

/-- IMIN.i (R136). -/
def execIminI (d : BitVec 7) (a : BitVec 7) (b : BitVec 7) (u : Bool) (w : Bool) (s : State) : Out :=
  alu (.iminI d a b u w) u d (fun e => bin w minI (e.vw w a) (e.y.vw w b)) s

/-- IMIN.i, imm7 form (R136). -/
def execIminIImm (d : BitVec 7) (a : BitVec 7) (i : BitVec 7) (u : Bool) (w : Bool) (s : State) : Out :=
  alu (.iminIImm d a i u w) u d (fun e => bin w minI (e.vw w a) (immS i)) s

/-- IMIN.b (R136). -/
def execIminB (d : BitVec 7) (a : BitVec 7) (b : BitVec 7) (u : Bool) (w : Bool) (s : State) : Out :=
  alu (.iminB d a b u w) u d (fun e => bin w minB (e.vw w a) (e.y.vw w b)) s

/-- IMIN.b, imm7 form (R136). -/
def execIminBImm (d : BitVec 7) (a : BitVec 7) (i : BitVec 7) (u : Bool) (w : Bool) (s : State) : Out :=
  alu (.iminBImm d a i u w) u d (fun e => bin w minB (e.vw w a) (immU i)) s

/-- IMAX.i (R136). -/
def execImaxI (d : BitVec 7) (a : BitVec 7) (b : BitVec 7) (u : Bool) (w : Bool) (s : State) : Out :=
  alu (.imaxI d a b u w) u d (fun e => bin w maxI (e.vw w a) (e.y.vw w b)) s

/-- IMAX.i, imm7 form (R136). -/
def execImaxIImm (d : BitVec 7) (a : BitVec 7) (i : BitVec 7) (u : Bool) (w : Bool) (s : State) : Out :=
  alu (.imaxIImm d a i u w) u d (fun e => bin w maxI (e.vw w a) (immS i)) s

/-- IMAX.b (R136). -/
def execImaxB (d : BitVec 7) (a : BitVec 7) (b : BitVec 7) (u : Bool) (w : Bool) (s : State) : Out :=
  alu (.imaxB d a b u w) u d (fun e => bin w maxB (e.vw w a) (e.y.vw w b)) s

/-- IMAX.b, imm7 form (R136). -/
def execImaxBImm (d : BitVec 7) (a : BitVec 7) (i : BitVec 7) (u : Bool) (w : Bool) (s : State) : Out :=
  alu (.imaxBImm d a i u w) u d (fun e => bin w maxB (e.vw w a) (immU i)) s

/-- AND (R136). -/
def execAnd (d : BitVec 7) (a : BitVec 7) (b : BitVec 7) (u : Bool) (w : Bool) (s : State) : Out :=
  alu (.and d a b u w) u d (fun e => bin w (· &&& ·) (e.vw w a) (e.y.vw w b)) s

/-- AND, imm7 form (R136). -/
def execAndImm (d : BitVec 7) (a : BitVec 7) (i : BitVec 7) (u : Bool) (w : Bool) (s : State) : Out :=
  alu (.andImm d a i u w) u d (fun e => bin w (· &&& ·) (e.vw w a) (immS i)) s

/-- OR (R136). -/
def execOr (d : BitVec 7) (a : BitVec 7) (b : BitVec 7) (u : Bool) (w : Bool) (s : State) : Out :=
  alu (.or d a b u w) u d (fun e => bin w (· ||| ·) (e.vw w a) (e.y.vw w b)) s

/-- OR, imm7 form (R136). -/
def execOrImm (d : BitVec 7) (a : BitVec 7) (i : BitVec 7) (u : Bool) (w : Bool) (s : State) : Out :=
  alu (.orImm d a i u w) u d (fun e => bin w (· ||| ·) (e.vw w a) (immS i)) s

/-- XOR (R136). -/
def execXor (d : BitVec 7) (a : BitVec 7) (b : BitVec 7) (u : Bool) (w : Bool) (s : State) : Out :=
  alu (.xor d a b u w) u d (fun e => bin w (· ^^^ ·) (e.vw w a) (e.y.vw w b)) s

/-- XOR, imm7 form (R136). -/
def execXorImm (d : BitVec 7) (a : BitVec 7) (i : BitVec 7) (u : Bool) (w : Bool) (s : State) : Out :=
  alu (.xorImm d a i u w) u d (fun e => bin w (· ^^^ ·) (e.vw w a) (immS i)) s

/-- ANDN (R136). -/
def execAndn (d : BitVec 7) (a : BitVec 7) (b : BitVec 7) (u : Bool) (w : Bool) (s : State) : Out :=
  alu (.andn d a b u w) u d (fun e => bin w (fun x y => x &&& ~~~y) (e.vw w a) (e.y.vw w b)) s

/-- ANDN, imm7 form (R136). -/
def execAndnImm (d : BitVec 7) (a : BitVec 7) (i : BitVec 7) (u : Bool) (w : Bool) (s : State) : Out :=
  alu (.andnImm d a i u w) u d (fun e => bin w (fun x y => x &&& ~~~y) (e.vw w a) (immS i)) s

/-- NOT (R136). -/
def execNot (d : BitVec 7) (a : BitVec 7) (z : BitVec 7) (u : Bool) (w : Bool) (s : State) : Out :=
  alu (.not d a z u w) u d (fun e => un w (fun x => ~~~x) (e.vw w a)) s

/-- SHL (R137). -/
def execShl (d : BitVec 7) (a : BitVec 7) (b : BitVec 7) (u : Bool) (w : Bool) (s : State) : Out :=
  alu (.shl d a b u w) u d (fun e => bin w shl (e.vw w a) (e.y.vw w b)) s

/-- SHL, imm7 form (R137). -/
def execShlImm (d : BitVec 7) (a : BitVec 7) (i : BitVec 7) (u : Bool) (w : Bool) (s : State) : Out :=
  alu (.shlImm d a i u w) u d (fun e => bin w shl (e.vw w a) (immU i)) s

/-- SHR (R137). -/
def execShr (d : BitVec 7) (a : BitVec 7) (b : BitVec 7) (u : Bool) (w : Bool) (s : State) : Out :=
  alu (.shr d a b u w) u d (fun e => bin w shr (e.vw w a) (e.y.vw w b)) s

/-- SHR, imm7 form (R137). -/
def execShrImm (d : BitVec 7) (a : BitVec 7) (i : BitVec 7) (u : Bool) (w : Bool) (s : State) : Out :=
  alu (.shrImm d a i u w) u d (fun e => bin w shr (e.vw w a) (immU i)) s

/-- SAR (R137). -/
def execSar (d : BitVec 7) (a : BitVec 7) (b : BitVec 7) (u : Bool) (w : Bool) (s : State) : Out :=
  alu (.sar d a b u w) u d (fun e => bin w sar (e.vw w a) (e.y.vw w b)) s

/-- SAR, imm7 form (R137). -/
def execSarImm (d : BitVec 7) (a : BitVec 7) (i : BitVec 7) (u : Bool) (w : Bool) (s : State) : Out :=
  alu (.sarImm d a i u w) u d (fun e => bin w sar (e.vw w a) (immU i)) s

/-- ROL (R137). -/
def execRol (d : BitVec 7) (a : BitVec 7) (b : BitVec 7) (u : Bool) (w : Bool) (s : State) : Out :=
  alu (.rol d a b u w) u d (fun e => bin w rol (e.vw w a) (e.y.vw w b)) s

/-- ROL, imm7 form (R137). -/
def execRolImm (d : BitVec 7) (a : BitVec 7) (i : BitVec 7) (u : Bool) (w : Bool) (s : State) : Out :=
  alu (.rolImm d a i u w) u d (fun e => bin w rol (e.vw w a) (immU i)) s

/-- BFX.b (R138). -/
def execBfxB (d : BitVec 7) (a : BitVec 7) (b : BitVec 7) (u : Bool) (w : Bool) (s : State) : Out :=
  alu (.bfxB d a b u w) u d (fun e => if w then pair (bfx false (e.v64 a) (e.y.v32 b)) else [bfx false (e.v32 a) (e.y.v32 b)]) s

/-- BFX.i (R138). -/
def execBfxI (d : BitVec 7) (a : BitVec 7) (b : BitVec 7) (u : Bool) (w : Bool) (s : State) : Out :=
  alu (.bfxI d a b u w) u d (fun e => if w then pair (bfx true (e.v64 a) (e.y.v32 b)) else [bfx true (e.v32 a) (e.y.v32 b)]) s

/-- BFI (R138). -/
def execBfi (d : BitVec 7) (a : BitVec 7) (b : BitVec 7) (u : Bool) (w : Bool) (s : State) : Out :=
  alu (.bfi d a b u w) u d (fun e => if w then pair (bfi (e.v64 a) (e.y.v32 b) (e.z.v64 d)) else [bfi (e.v32 a) (e.y.v32 b) (e.z.v32 d)]) s

/-- POPC: D is 32-bit in both variants (R135, R136). -/
def execPopc (d : BitVec 7) (a : BitVec 7) (z : BitVec 7) (u : Bool) (w : Bool) (s : State) : Out :=
  alu (.popc d a z u w) u d (fun e => count w popc (e.vw w a)) s

/-- CLZ: D is 32-bit in both variants (R135, R136). -/
def execClz (d : BitVec 7) (a : BitVec 7) (z : BitVec 7) (u : Bool) (w : Bool) (s : State) : Out :=
  alu (.clz d a z u w) u d (fun e => count w clz (e.vw w a)) s

/-- CTZ: D is 32-bit in both variants (R135, R136). -/
def execCtz (d : BitVec 7) (a : BitVec 7) (z : BitVec 7) (u : Bool) (w : Bool) (s : State) : Out :=
  alu (.ctz d a z u w) u d (fun e => count w ctz (e.vw w a)) s

/-- BREV (R136). -/
def execBrev (d : BitVec 7) (a : BitVec 7) (z : BitVec 7) (u : Bool) (w : Bool) (s : State) : Out :=
  alu (.brev d a z u w) u d (fun e => un w BitVec.reverse (e.vw w a)) s

/-- PRMT: the selector is D as read before the write (R139). -/
def execPrmt (d : BitVec 7) (a : BitVec 7) (b : BitVec 7) (u : Bool) (s : State) : Out :=
  alu (.prmt d a b u) u d (fun e => [prmt (e.v32 a) (e.y.v32 b) (e.z.v32 d)]) s

/-- MOV (R136). -/
def execMov (d : BitVec 7) (a : BitVec 7) (z : BitVec 7) (u : Bool) (w : Bool) (s : State) : Out :=
  alu (.mov d a z u w) u d (fun e => words w (e.vw w a)) s

/-- MOV, imm7 form (R136). -/
def execMovImm (d : BitVec 7) (y : BitVec 7) (i : BitVec 7) (u : Bool) (w : Bool) (s : State) : Out :=
  alu (.movImm d y i u w) u d (fun _ => words w (immS i)) s

/-- ICMP.eq (R49). -/
def execIcmpEq (d : BitVec 7) (a : BitVec 7) (b : BitVec 7) (u : Bool) (w : Bool) (s : State) : Out :=
  alu (.icmpEq d a b u w) u d (fun e => test w (· == ·) (e.vw w a) (e.y.vw w b)) s

/-- ICMP.eq, imm7 form (R49). -/
def execIcmpEqImm (d : BitVec 7) (a : BitVec 7) (i : BitVec 7) (u : Bool) (w : Bool) (s : State) : Out :=
  alu (.icmpEqImm d a i u w) u d (fun e => test w (· == ·) (e.vw w a) (immS i)) s

/-- ICMP.ne (R49). -/
def execIcmpNe (d : BitVec 7) (a : BitVec 7) (b : BitVec 7) (u : Bool) (w : Bool) (s : State) : Out :=
  alu (.icmpNe d a b u w) u d (fun e => test w (· != ·) (e.vw w a) (e.y.vw w b)) s

/-- ICMP.ne, imm7 form (R49). -/
def execIcmpNeImm (d : BitVec 7) (a : BitVec 7) (i : BitVec 7) (u : Bool) (w : Bool) (s : State) : Out :=
  alu (.icmpNeImm d a i u w) u d (fun e => test w (· != ·) (e.vw w a) (immS i)) s

/-- ICMP.lt signed (R49). -/
def execIcmpLtI (d : BitVec 7) (a : BitVec 7) (b : BitVec 7) (u : Bool) (w : Bool) (s : State) : Out :=
  alu (.icmpLtI d a b u w) u d (fun e => test w (fun x y => x.slt y) (e.vw w a) (e.y.vw w b)) s

/-- ICMP.lt signed, imm7 form (R49). -/
def execIcmpLtIImm (d : BitVec 7) (a : BitVec 7) (i : BitVec 7) (u : Bool) (w : Bool) (s : State) : Out :=
  alu (.icmpLtIImm d a i u w) u d (fun e => test w (fun x y => x.slt y) (e.vw w a) (immS i)) s

/-- ICMP.le signed (R49). -/
def execIcmpLeI (d : BitVec 7) (a : BitVec 7) (b : BitVec 7) (u : Bool) (w : Bool) (s : State) : Out :=
  alu (.icmpLeI d a b u w) u d (fun e => test w (fun x y => x.sle y) (e.vw w a) (e.y.vw w b)) s

/-- ICMP.le signed, imm7 form (R49). -/
def execIcmpLeIImm (d : BitVec 7) (a : BitVec 7) (i : BitVec 7) (u : Bool) (w : Bool) (s : State) : Out :=
  alu (.icmpLeIImm d a i u w) u d (fun e => test w (fun x y => x.sle y) (e.vw w a) (immS i)) s

/-- ICMP.gt signed (R49). -/
def execIcmpGtI (d : BitVec 7) (a : BitVec 7) (b : BitVec 7) (u : Bool) (w : Bool) (s : State) : Out :=
  alu (.icmpGtI d a b u w) u d (fun e => test w (fun x y => y.slt x) (e.vw w a) (e.y.vw w b)) s

/-- ICMP.gt signed, imm7 form (R49). -/
def execIcmpGtIImm (d : BitVec 7) (a : BitVec 7) (i : BitVec 7) (u : Bool) (w : Bool) (s : State) : Out :=
  alu (.icmpGtIImm d a i u w) u d (fun e => test w (fun x y => y.slt x) (e.vw w a) (immS i)) s

/-- ICMP.ge signed (R49). -/
def execIcmpGeI (d : BitVec 7) (a : BitVec 7) (b : BitVec 7) (u : Bool) (w : Bool) (s : State) : Out :=
  alu (.icmpGeI d a b u w) u d (fun e => test w (fun x y => y.sle x) (e.vw w a) (e.y.vw w b)) s

/-- ICMP.ge signed, imm7 form (R49). -/
def execIcmpGeIImm (d : BitVec 7) (a : BitVec 7) (i : BitVec 7) (u : Bool) (w : Bool) (s : State) : Out :=
  alu (.icmpGeIImm d a i u w) u d (fun e => test w (fun x y => y.sle x) (e.vw w a) (immS i)) s

/-- ICMP.lt unsigned (R49). -/
def execIcmpLtB (d : BitVec 7) (a : BitVec 7) (b : BitVec 7) (u : Bool) (w : Bool) (s : State) : Out :=
  alu (.icmpLtB d a b u w) u d (fun e => test w (fun x y => x.ult y) (e.vw w a) (e.y.vw w b)) s

/-- ICMP.lt unsigned, imm7 form (R49). -/
def execIcmpLtBImm (d : BitVec 7) (a : BitVec 7) (i : BitVec 7) (u : Bool) (w : Bool) (s : State) : Out :=
  alu (.icmpLtBImm d a i u w) u d (fun e => test w (fun x y => x.ult y) (e.vw w a) (immU i)) s

/-- ICMP.le unsigned (R49). -/
def execIcmpLeB (d : BitVec 7) (a : BitVec 7) (b : BitVec 7) (u : Bool) (w : Bool) (s : State) : Out :=
  alu (.icmpLeB d a b u w) u d (fun e => test w (fun x y => x.ule y) (e.vw w a) (e.y.vw w b)) s

/-- ICMP.le unsigned, imm7 form (R49). -/
def execIcmpLeBImm (d : BitVec 7) (a : BitVec 7) (i : BitVec 7) (u : Bool) (w : Bool) (s : State) : Out :=
  alu (.icmpLeBImm d a i u w) u d (fun e => test w (fun x y => x.ule y) (e.vw w a) (immU i)) s

/-- ICMP.gt unsigned (R49). -/
def execIcmpGtB (d : BitVec 7) (a : BitVec 7) (b : BitVec 7) (u : Bool) (w : Bool) (s : State) : Out :=
  alu (.icmpGtB d a b u w) u d (fun e => test w (fun x y => y.ult x) (e.vw w a) (e.y.vw w b)) s

/-- ICMP.gt unsigned, imm7 form (R49). -/
def execIcmpGtBImm (d : BitVec 7) (a : BitVec 7) (i : BitVec 7) (u : Bool) (w : Bool) (s : State) : Out :=
  alu (.icmpGtBImm d a i u w) u d (fun e => test w (fun x y => y.ult x) (e.vw w a) (immU i)) s

/-- ICMP.ge unsigned (R49). -/
def execIcmpGeB (d : BitVec 7) (a : BitVec 7) (b : BitVec 7) (u : Bool) (w : Bool) (s : State) : Out :=
  alu (.icmpGeB d a b u w) u d (fun e => test w (fun x y => y.ule x) (e.vw w a) (e.y.vw w b)) s

/-- ICMP.ge unsigned, imm7 form (R49). -/
def execIcmpGeBImm (d : BitVec 7) (a : BitVec 7) (i : BitVec 7) (u : Bool) (w : Bool) (s : State) : Out :=
  alu (.icmpGeBImm d a i u w) u d (fun e => test w (fun x y => y.ule x) (e.vw w a) (immU i)) s

/-- SEL: the condition is the 32-bit v[D] before D is written (R135, R136). -/
def execSel (d : BitVec 7) (a : BitVec 7) (b : BitVec 7) (u : Bool) (w : Bool) (s : State) : Out :=
  alu (.sel d a b u w) u d (fun e => if e.z.v32 d ≠ 0 then words w (e.vw w a) else words w (e.y.vw w b)) s

end Sys2Proof.Machine
end

