-- ==== Sys2Proof/Machine/Cross.lean ====
section
/-!
DEFINITION. Cross.lean: SHFL, VOTE, ELECT, REDG and SCANG (R54, R93, R94, R134, R145 to R147). Every source value is
read from the state before the instruction, so that each reads all it needs before any destination is written.
-/
namespace Sys2Proof.Machine

/-- The same instruction seen from another thread of the group. -/
def Thr.at_ (e : Thr) (t : Nat) : Thr := { e with t := t }

/-- Source thread of a shuffle (R145): 0 idx, 1 up, 2 down, 3 xor. -/
def shflFrom (form i s : Nat) : Nat :=
  if form = 0 then s % 32
  else if form = 1 then (if s ≤ i then i - s else i)
  else if form = 2 then (if i + s ≤ 31 then i + s else i)
  else i ^^^ (s % 32)

/-- The issuing threads whose 32-bit A is nonzero (R146). -/
def votes (e : Thr) (a : BitVec 7) : Word :=
  maskOf ((threadsOf e.l.issuing).filter (fun t => decide ((e.at_ t).v32 a ≠ 0)))

/-- The operation of REDG and SCANG on two values of type t (R54, R147). -/
def crossOp (o : BitVec 3) (t : BitVec 4) (x y : DWord) : DWord :=
  let w := decide (t = 6) || decide (t = 7)
  let int := fun (f : {n : Nat} → BitVec n → BitVec n → BitVec n) => if w then f x y else (f (x.setWidth 32) (y.setWidth 32)).setWidth 64
  let flt := fun (f : Fmt → Nat → Nat → Nat) => BitVec.ofNat 64 (f (if t = 8 then .f64 else .f32) x.toNat y.toNat)
  let fl := decide (t = 8) || decide (t = 9)
  let signed := t.getLsbD 0
  match o.toNat with
  | 0 => if fl then flt (fun f a b => f.add .rne a b) else int (· + ·)
  | 1 => if fl then flt (fun f a b => f.minMax false a b) else if signed then int minI else int minB
  | 2 => if fl then flt (fun f a b => f.minMax true a b) else if signed then int maxI else int maxB
  | 3 => x &&& y
  | 4 => x ||| y
  | _ => x ^^^ y

/-- The identity of the operation (R94). -/
def crossId (o : BitVec 3) (t : BitVec 4) : DWord :=
  match o.toNat, t.toNat with
  | 1, 8 => 0x7FF0000000000000 | 2, 8 => 0xFFF0000000000000
  | 1, 9 => 0x7F800000 | 2, 9 => 0xFF800000
  | 1, 4 => 0xFFFFFFFF | 1, 5 => 0x7FFFFFFF | 1, 6 => 0xFFFFFFFFFFFFFFFF | 1, 7 => 0x7FFFFFFFFFFFFFFF
  | 2, 5 => 0x80000000 | 2, 7 => 0x8000000000000000
  | 3, 4 => 0xFFFFFFFF | 3, 5 => 0xFFFFFFFF | 3, 6 => 0xFFFFFFFFFFFFFFFF | 3, 7 => 0xFFFFFFFFFFFFFFFF
  | _, _ => 0

/-- Combine two nodes; an absent one gives the other unchanged (R93). -/
def joinNodes (f : DWord → DWord → DWord) : Option DWord → Option DWord → Option DWord
  | some x, some y => some (f x y)
  | some x, none => some x
  | none, y => y

/-- The next level of the tree: adjacent nodes combined, the lower-numbered on the left (R93). -/
def treeUp (f : DWord → DWord → DWord) : List (Option DWord) → List (Option DWord)
  | x :: y :: rest => joinNodes f x y :: treeUp f rest
  | l => l

/-- Level k of the tree over 32 positions (R93). -/
def treeLevel (f : DWord → DWord → DWord) (leaves : List (Option DWord)) : Nat → List (Option DWord)
  | 0 => leaves
  | k + 1 => treeUp f (treeLevel f leaves k)

/-- Blocks of levels k-1 down to 0 that cover n positions from `start`, combined left to right (R94). -/
def scanBlocks (f : DWord → DWord → DWord) (leaves : List (Option DWord)) : Nat → Nat → Nat → Option DWord → Option DWord
  | 0, _, _, acc => acc
  | k + 1, n, start, acc =>
    if n / 2 ^ k % 2 = 1 then
      scanBlocks f leaves k n (start + 2 ^ k) (joinNodes f acc (((treeLevel f leaves k)[start / 2 ^ k]?).getD none))
    else scanBlocks f leaves k n start acc

/-- The inclusive result of position i (R94). -/
def scanIncl (f : DWord → DWord → DWord) (leaves : List (Option DWord)) (i : Nat) : Option DWord :=
  scanBlocks f leaves 6 (i + 1) 0 none

/-- The values of the issuing threads at their positions (R147). -/
def crossLeaves (e : Thr) (t : BitVec 4) (a : BitVec 7) : List (Option DWord) :=
  (List.range 32).map (fun j => if e.l.issuing.getLsbD j then some ((e.at_ j).typed t a) else none)

/-- The highest-numbered issuing thread below i (R94). -/
def issuingBelow (e : Thr) (i : Nat) : Option Nat := ((threadsOf e.l.issuing).filter (fun j => decide (j < i))).getLast?

/-! ### Instructions -/

/-- SHFL.idx (R145). -/
def execShflIdx (d : BitVec 7) (a : BitVec 7) (b : BitVec 7) (s : State) : Out :=
  alu (.shflIdx d a b) false d (fun e => [(e.at_ (shflFrom 0 e.t (e.y.v32 b).toNat)).v32 a]) s

/-- SHFL.up (R145). -/
def execShflUp (d : BitVec 7) (a : BitVec 7) (b : BitVec 7) (s : State) : Out :=
  alu (.shflUp d a b) false d (fun e => [(e.at_ (shflFrom 1 e.t (e.y.v32 b).toNat)).v32 a]) s

/-- SHFL.down (R145). -/
def execShflDown (d : BitVec 7) (a : BitVec 7) (b : BitVec 7) (s : State) : Out :=
  alu (.shflDown d a b) false d (fun e => [(e.at_ (shflFrom 2 e.t (e.y.v32 b).toNat)).v32 a]) s

/-- SHFL.xor (R145). -/
def execShflXor (d : BitVec 7) (a : BitVec 7) (b : BitVec 7) (s : State) : Out :=
  alu (.shflXor d a b) false d (fun e => [(e.at_ (shflFrom 3 e.t (e.y.v32 b).toNat)).v32 a]) s

/-- VOTE.any (R146). -/
def execVoteAny (d : BitVec 7) (a : BitVec 7) (z : BitVec 7) (s : State) : Out :=
  alu (.voteAny d a z) false d (fun e => [if votes e a ≠ 0 then 1 else 0]) s

/-- VOTE.all (R146). -/
def execVoteAll (d : BitVec 7) (a : BitVec 7) (z : BitVec 7) (s : State) : Out :=
  alu (.voteAll d a z) false d (fun e => [if votes e a = e.l.issuing then 1 else 0]) s

/-- VOTE.ballot (R146). -/
def execVoteBallot (d : BitVec 7) (a : BitVec 7) (z : BitVec 7) (s : State) : Out :=
  alu (.voteBallot d a z) false d (fun e => [votes e a]) s

/-- ELECT (R146). -/
def execElect (d : BitVec 7) (y : BitVec 7) (z : BitVec 7) (s : State) : Out :=
  alu (.elect d y z) false d (fun e => [if e.t = e.l.lowest then 1 else 0]) s

/-- REDG: the root of the tree (R93, R147). -/
def execRedg (d : BitVec 7) (a : BitVec 7) (o : BitVec 3) (t : BitVec 4) (s : State) : Out :=
  alu (.redg d a o t) false d (fun e => typedWords t (((treeLevel (crossOp o t) (crossLeaves e t a) 5).headD none).getD 0)) s

/-- SCANG.incl (R94, R147). -/
def execScangIncl (d : BitVec 7) (a : BitVec 7) (o : BitVec 3) (t : BitVec 4) (s : State) : Out :=
  alu (.scangIncl d a o t) false d (fun e => typedWords t ((scanIncl (crossOp o t) (crossLeaves e t a) e.t).getD 0)) s

/-- SCANG.excl (R94, R147). -/
def execScangExcl (d : BitVec 7) (a : BitVec 7) (o : BitVec 3) (t : BitVec 4) (s : State) : Out :=
  alu (.scangExcl d a o t) false d (fun e => typedWords t (match issuingBelow e e.t with
    | none => crossId o t
    | some j => (scanIncl (crossOp o t) (crossLeaves e t a) j).getD 0)) s

end Sys2Proof.Machine
end

