-- ==== Sys2Proof/Machine/HostLink.lean ====
section
/-!
DEFINITION. HostLink.lean: the host ports, and power, error and reliability events (R157, R359, R401, R425 to R428, R432 to
R434, R436).
-/
namespace Sys2Proof.Machine

/-! ### The host -/

/-- Sizes of a host access: powers of two from 4 to 4096 (R425). (DESIGN CHOICE, log 62) -/
def hostSize (n : Nat) : Bool := [4, 8, 16, 32, 64, 128, 256, 512, 1024, 2048, 4096].contains n

/-- The die of a host port (R425). -/
def portDie (p : Nat) : Nat := if p = 0 then 0 else 59

/-- A host access through a port cannot be carried out (R425, R426): the port is absent or, once the window has moved, lost; the
die of the address is absent, or no route leads to its island; or the address is in the window that no longer exists.
(DESIGN CHOICE, log 62) -/
def State.hostAbsent (s : State) (port pa : Nat) : Bool :=
  let isl := dieOfPa pa / 2
  !s.diePresent (portDie port) || s.noHome pa || (s.mailboxMoved && (decide (port = 0) || meets pa 1 0x0000003FF0000000 (2 ^ 28))) ||
    (decide (isl ≠ portDie port / 2) && (decide ((s.route (portDie port / 2) isl).1 = 0) || decide ((s.route isl (portDie port / 2)).1 = 0)))

/-- HOST_READ (R425, R428): subjects port, address and length. The bytes are served at the home, through the rind; the last
byte delivered is the status, 1 for an error. -/
def execHostRead (s : State) : Out :=
  event s (
    let pa := s.sub 1
    let n := s.sub 2
    if 1 < s.sub 0 ∨ !hostSize n ∨ pa % n ≠ 0 then none
    else if s.hostAbsent (s.sub 0) pa then some { s with hostData := List.replicate n 0xFF ++ [1] }
    else some { s with hostData := s.readHome none pa n pa ++ [0] })

/-- A host write outside the window goes to HBM past the rind. A byte whose grain is dirty there leaves that grain
unpredictable (R428). (DESIGN CHOICE, log 62) -/
def State.hostHbm (s : State) (pa : Nat) (bs : List Byte) : State :=
  let d := dieOfPa pa
  let s1 := s.setHbm pa bs
  let hit := (s.die d).blocks.flatMap (fun b =>
    if b.replica then []
    else (b.dirty.filter (fun g =>
      meets (b.frame * 4096 + g * b.grain) b.grain pa bs.length)).map (fun g => (b.frame * 4096 + g * b.grain, b.grain)))
  hit.foldl (fun s e => let bad := s.freeBytes e.1 e.2; (s.setHbm e.1 bad).putBlock e.1 e.2 bad) s1

/-- The queues whose STATE a write to the window covers act on it (R402). -/
def State.stateWritten (s : State) (pa n : Nat) (ran : Nat → Bool) : State :=
  ((List.range 256).filter (fun q => meets (s.mailbox + 64 * q + 40) 1 pa n)).foldl (fun s q =>
    if s.qstate q = 1 then s.enableQueue q (ran q) else if s.qstate q = 0 then s.disableQueue q else s) s

/-- The host writes bytes: in the window at the home's coherence point, elsewhere straight to HBM (R427, R428). -/
def State.hostBytes (s : State) (pa : Nat) (bs : List Byte) : State :=
  if s.inMailbox pa then
    let ran := fun q => decide (s.qstate q = 1)
    (s.homeWriteAll pa 32 bs).stateWritten pa bs.length ran
  else s.hostHbm pa bs

/-- HOST_WRITE (R425, R428): subjects port, address and the bytes. The host is given the status alone. -/
def execHostWrite (s : State) : Out :=
  event s (
    let pa := s.sub 1
    let bs := (s.subj.drop 2).map (BitVec.ofNat 8)
    if 1 < s.sub 0 ∨ !hostSize bs.length ∨ pa % bs.length ≠ 0 then none
    else if s.hostAbsent (s.sub 0) pa then some { s with hostData := [1] }
    else some { (s.hostBytes pa bs).settle with hostData := [0] })

/-- REGISTER_WRITE (R157, R401): subjects 0, offset in the queue table, value and width in bytes for a descriptor field that
the host writes; 1, die, entry and value for an entry of the banded-latency table, between launches, where firmware writes that value.
(DESIGN CHOICE, log 64) -/
def execRegisterWrite (s : State) : Out :=
  event s (
    if s.sub 0 = 0 then
      let off := s.sub 1
      let n := s.sub 3
      if !(n = 1 ∨ n = 2 ∨ n = 4 ∨ n = 8) ∨ off % n ≠ 0 ∨ 0x4000 < off + n ∨ s.noHome s.mailbox then none
      else some (s.hostBytes (s.mailbox + off) (bytesOf (s.sub 2) n)).settle
    else if s.sub 0 = 1 then
      if 60 ≤ s.sub 1 ∨ 36 ≤ s.sub 2 ∨ 2 ^ 32 ≤ s.sub 3 ∨ !latencyOk (s.sub 2) (s.sub 3) ∨ s.launches.any Launch.onDies then none
      else some (s.modDie (s.sub 1) (fun x => { x with bl := setNth x.bl (s.sub 2) (BitVec.ofNat 32 (s.sub 3)) }))
    else none)

/-! ### Power -/

/-- SUPPLY_SAG (R432): subject the die. -/
def execSupplySag (s : State) : Out :=
  event s (
    if 60 ≤ s.sub 0 then none else some (s.modDie (s.sub 0) (fun x => { x with sag := true, sagSince := s.now })))

/-- SAG_RECOVERY (R432): subject a die whose rail has stayed above the threshold for 10 µs. -/
def execSagRecovery (s : State) : Out :=
  event s (
    let x := s.die (s.sub 0)
    if 60 ≤ s.sub 0 ∨ !x.sag ∨ s.now < x.sagSince + 10000 then none
    else some (s.modDie (s.sub 0) (fun x => { x with sag := false })))

/-- POWER_CAP_UPDATE (R359, R432): subjects a core and its new KCAP, which applies from the next window: the window it is
written in keeps the one that stood as it began (R360). (DESIGN CHOICE, log 64) -/
def execPowerCapUpdate (s : State) : Out :=
  event s (
    if !s.diePresent (dieOfCore (s.sub 0)) || decide (2 ^ 13 ≤ s.sub 0) || decide (96 ≤ s.sub 0 % 128) then none
    else some (s.modCore (s.sub 0) (fun k =>
      let w := s.windowNow (s.sub 0)
      { k with kcap := BitVec.ofNat 8 (s.sub 1), kcapWas := if k.kcapAt = w then k.kcapWas else k.kcap, kcapAt := w })))

/-! ### Errors -/

/-- Leaves of live launches that map the frame of pa: launch, page, size, entry (R434). -/
def State.mappings (s : State) (pa : Nat) : List (Launch × Nat × Nat × DWord) :=
  let isl := dieOfPa pa / 2
  match (s.islandDies isl).head? with
  | none => []
  | some d => s.live.flatMap (fun x => ((s.leaves d x.num).filter (fun e =>
      e.2.2.getLsbD 0 && meets (entryBase isl e.2.2 16) e.2.1 pa 1)).map (fun e => (x, e)))

/-- The grain of pa as its rind block or, without one, HBM knows it: 32 bytes at least (R262, R433).
(DESIGN CHOICE, log 63) -/
def State.errorGrain (s : State) (pa : Nat) : Nat :=
  (((s.die (dieOfPa pa)).blocks.find? (fun b => decide (b.frame = pa / 4096) && !b.replica)).map (·.grain)).getD 32

/-- The unit that holds a grain: a rind bank, or HBM (R436). -/
def State.errorUnit (s : State) (pa : Nat) : Nat :=
  if (s.die (dieOfPa pa)).blocks.any (fun b => decide (b.frame = pa / 4096) && !b.replica) then 1 else 0

/-- The frame of pa never returns to a pool, and is removed from every island table that maps it (R434, R250). Without a mapping
that is the end of it, and its entry is written now (R436). (DESIGN CHOICE, log 63) -/
def State.retireFrame (s : State) (pa charged : Nat) : State :=
  let isl := dieOfPa pa / 2
  if s.retired.any (fun f => meets pa 1 f.1 f.2) then s
  else
    let maps := s.mappings pa
    let frames := maps.map (fun m => (entryBase isl m.2.2.2 16, m.2.2.1))
    let s1 : State := { s with retired := ((pa / 65536 * 65536, 65536) :: frames).eraseDups ++ s.retired }
    if maps.isEmpty then s1.logEvent (dieOfPa pa) 2 0 (pa / 65536 * 65536) charged
    else maps.foldl (fun s m => s.changePage m.1.num isl m.2.1 m.2.2.1 m.2.2.2 (m.2.2.2 &&& ~~~1#64) 256 true charged) s1

/-- A lasting data error of a grain (R434): the launches charged, each with its log entry, what stays of the bytes, and the
page's retirement. (DESIGN CHOICE, log 63) -/
def State.dataError (s : State) (pa kind L va : Nat) : State :=
  let d := dieOfPa pa
  let g := s.errorGrain pa
  let unit := s.errorUnit pa
  let time := s.timeOf d
  let charged := if kind = 1 then [L] else ((s.mappings pa).map (fun m => m.1.num)).eraseDups
  let addr := if kind = 1 then va else 2 ^ 63 + pa
  let bad := s.freeBytes pa g
  let s1 := (s.setHbm (pa / g * g) bad).putBlock (pa / g * g) g bad
  let s2 := charged.foldl (fun s l => s.handRecord d
    { code := Code.machineCheck, cls := Cls.launch, launch := l, addr := addr, detail := checkDetail kind d, time := time }) s1
  let s3 := { s2 with teams := updWhere (fun t => charged.contains t.launch && decide (t.ctx = Ctx.saving)) (fun t => { t with ctx := .failed }) s2.teams }
  ((if charged.isEmpty then [0] else charged).foldl (fun s l => s.logEvent d 1 unit pa l) s3).retireFrame pa (charged.headD 0)

/-- A part of a core has failed for good: it is fenced for the placements that follow (R433).
(DESIGN CHOICE, log 63) -/
def State.fencePart (s : State) (kind core : Nat) : State :=
  let s1 := s.modCore core (fun k => match kind with
    | 5 => { k with fencedBlocks := k.fencedBlocks + 32 }
    | 6 => { k with fencedLocal := k.fencedLocal + 65536 }
    | 7 => { k with fencedTiles := k.fencedTiles + 1 }
    | _ => { k with fencedBlocks := 512 })
  s1.logEvent (dieOfCore core) 1 4 (unitAt (dieOfCore core) core) 0

/-- ECC_ERROR (R433, R434, R436): subjects the physical address, or for a part of a core its number; 1 for a lasting error;
the kind; the launch that consumed the grain and its virtual address. Kinds: 1 consumed, 2 found at an eviction or flush,
4 a command core's memory, 5 register blocks, 6 a local-store segment, 7 a tile, 8 a core's lanes. -/
def execEccError (s : State) : Out :=
  event s (
    let pa := s.sub 0
    let kind := s.sub 2
    let part := decide (5 ≤ kind) && decide (kind ≤ 8)
    let d := if part then dieOfCore pa else dieOfPa pa
    if !s.diePresent d || !(part || kind == 1 || kind == 2 || kind == 4) || (part && decide (96 ≤ pa % 128)) then none
    else if s.sub 1 = 0 then
      some (if part then s.logEvent d 0 4 (unitAt d pa) 0 else s.logEvent d 0 (s.errorUnit pa) pa 0)
    else if part then some (s.fencePart kind pa)
    else if kind = 4 then some (s.fenceDie d 4).settle
    else some (s.dataError pa kind (s.sub 3) (s.sub 4)))

/-- DIE_LINK_ERROR (R433): subjects the island and 1 for a lasting error, after which the link runs at half rate. -/
def execDieLinkError (s : State) : Out :=
  event s (
    let i := s.sub 0
    if 30 ≤ i ∨ !(s.diePresent (2 * i) || s.diePresent (2 * i + 1)) then none
    else
      let s1 := if s.sub 1 = 0 then s
        else (s.modDie (2 * i) (fun x => { x with linkHalf := true })).modDie (2 * i + 1) (fun x => { x with linkHalf := true })
      some (s1.logEvent (s.recvDie i) (if s.sub 1 = 0 then 0 else 1) 2 (i * 2 ^ 48) 0))

end Sys2Proof.Machine
end

