-- ==== Sys2Proof/Machine/RegMgmt.lean ====
section
/-!
DEFINITION. RegMgmt.lean: WBASE, RBACQ, RBREL and RQUOTA (R117 to R124, R151). Each reads its operand once, from the
lowest-numbered issuing thread (R118).
-/
namespace Sys2Proof.Machine

/-- The operand of a group instruction in register form (R151). -/
def groupArg (a : BitVec 7) (s : State) (l : Lane) (g : Group) : Nat := ((thr s l g l.lowest).v32 a).toNat

/-- REGFAULT of a group instruction. -/
def regfaultIf (l : Lane) (b : Bool) : Option Trap := if b then some { code := Code.regfault, thread := l.lowest } else none

/-- WBASE of an operand not less than the blocks held raises REGFAULT (R119). -/
def wbaseBad (g : Group) (n : Nat) : Bool := decide (g.nblk ≤ n)

/-- Set the window base (R119). -/
def State.setWindow (s : State) (l : Lane) (n : Nat) : State :=
  s.modGroup l.launch l.team l.gnum (fun g => { g with wb := n })

/-- An RBACQ that could never be granted (R120). -/
def rbacqBad (s : State) (l : Lane) (g : Group) (n : Nat) : Bool :=
  decide (n ≠ 0) && (decide (32 < g.nblk + n) || decide (((s.team? l.launch l.team).map (·.t)).getD 0 < g.nblk + n))

/-- Note the request: it is made when the clause ends (R120). -/
def State.noteRbacq (s : State) (n : Nat) : State := s.modLane (fun k => { k with rbacq := n })

/-- An RBREL that R122 refuses. -/
def rbrelBad (g : Group) (n : Nat) : Bool := decide (n ≠ 0) && (decide (g.nblk ≤ n) || decide (g.nblk - n ≤ g.wb))

/-- Remove the last n blocks from the list; they return to the team when the earlier operations are done (R122). -/
def State.releaseBlocks (s : State) (l : Lane) (g : Group) (n : Nat) : State :=
  if n = 0 then s
  else
    let lim := 16 * (g.nblk - n)
    let s1 := s.modGroup l.launch l.team l.gnum (fun g => { g with
      nblk := g.nblk - n
      regs := g.regs.keep (fun k => decide (k < 32 * lim))
      released := g.released ++ [{ n := n, before := s.nextId, regs := g.regs.keep (fun k => decide (32 * lim ≤ k)) }] })
    let s2 := { s1 with
      ops := updWhere (fun o => o.launch == l.launch && o.team == l.team && o.gnum == l.gnum)
        (fun o => { o with limit := min o.limit lim }) s1.ops }
    s2.settleBlocks l.launch l.team l.gnum

/-- An RQUOTA that R124 refuses: an undeclared role, or more than the source role's budget. (DEDUCED, log 71) -/
def rquotaBad (s : State) (l : Lane) (src dst n : Nat) : Bool :=
  match s.team? l.launch l.team with
  | none => true
  | some t => decide (t.nrole ≤ src) || decide (t.nrole ≤ dst) || decide (t.budget.getD src 0 < n)

/-- Move n blocks of budget (R124). -/
def State.moveBudget (s : State) (l : Lane) (src dst n : Nat) : State :=
  if src = dst then s
  else s.modTeam l.launch l.team (fun t =>
    let b := setNth t.budget src (t.budget.getD src 0 - n)
    { t with budget := setNth b dst (b.getD dst 0 + n) })

/-- WBASE, register form (R119, R151). -/
def execWbase (x a z : BitVec 7) (u : Bool) (s : State) : Out :=
  runWord (.wbase x a z u) (fun s l g => regfaultIf l (wbaseBad g (groupArg a s l g)))
    (fun s l g => s.setWindow l (groupArg a s l g)) s

/-- WBASE, immediate form (R119, R151). -/
def execWbaseImm (x y i : BitVec 7) (u : Bool) (s : State) : Out :=
  runWord (.wbaseImm x y i u) (fun _ l g => regfaultIf l (wbaseBad g i.toNat)) (fun s l _ => s.setWindow l i.toNat) s

/-- RBACQ, register form (R120, R151). -/
def execRbacq (x a z : BitVec 7) (u : Bool) (s : State) : Out :=
  runWord (.rbacq x a z u) (fun s l g => regfaultIf l (rbacqBad s l g (groupArg a s l g)))
    (fun s l g => s.noteRbacq (groupArg a s l g)) s

/-- RBACQ, immediate form (R120, R151). -/
def execRbacqImm (x y i : BitVec 7) (u : Bool) (s : State) : Out :=
  runWord (.rbacqImm x y i u) (fun s l g => regfaultIf l (rbacqBad s l g i.toNat)) (fun s _ _ => s.noteRbacq i.toNat) s

/-- RBREL, register form (R122, R151). -/
def execRbrel (x a z : BitVec 7) (u : Bool) (s : State) : Out :=
  runWord (.rbrel x a z u) (fun s l g => regfaultIf l (rbrelBad g (groupArg a s l g)))
    (fun s l g => s.releaseBlocks l g (groupArg a s l g)) s

/-- RBREL, immediate form (R122, R151). -/
def execRbrelImm (x y i : BitVec 7) (u : Bool) (s : State) : Out :=
  runWord (.rbrelImm x y i u) (fun _ l g => regfaultIf l (rbrelBad g i.toNat))
    (fun s l g => s.releaseBlocks l g i.toNat) s

/-- RQUOTA (R124, R151). -/
def execRquota (x a : BitVec 7) (t f : BitVec 2) (u : Bool) (s : State) : Out :=
  runWord (.rquota x a t f u) (fun s l g => regfaultIf l (rquotaBad s l f.toNat t.toNat (groupArg a s l g)))
    (fun s l g => s.moveBudget l f.toNat t.toNat (groupArg a s l g)) s

end Sys2Proof.Machine
end

