-- ==== Sys2Proof/Machine/Dispatch.lean ====
section
/-!
DEFINITION. Dispatch.lean: the meaning of each row of the opcode table.
-/
namespace Sys2Proof.Machine

/-- One instruction word of the clause in front, or one step of an engine (95_what_each_step_holds.md). -/
def exec (i : Instr) (s : State) : Host.Outcome State Fault Refusal :=
  match i with
  | .iadd d a b u w => Sys2Proof.Machine.execIadd d a b u w s
  | .iaddImm d a imm u w => Sys2Proof.Machine.execIaddImm d a imm u w s
  | .isub d a b u w => Sys2Proof.Machine.execIsub d a b u w s
  | .isubImm d a imm u w => Sys2Proof.Machine.execIsubImm d a imm u w s
  | .imul d a b u w => Sys2Proof.Machine.execImul d a b u w s
  | .imulImm d a imm u w => Sys2Proof.Machine.execImulImm d a imm u w s
  | .imulhI d a b u w => Sys2Proof.Machine.execImulhI d a b u w s
  | .imulhIImm d a imm u => Sys2Proof.Machine.execImulhIImm d a imm u s
  | .imulhB d a b u w => Sys2Proof.Machine.execImulhB d a b u w s
  | .imulhBImm d a imm u => Sys2Proof.Machine.execImulhBImm d a imm u s
  | .imad d a b u w => Sys2Proof.Machine.execImad d a b u w s
  | .imadImm d a imm u w => Sys2Proof.Machine.execImadImm d a imm u w s
  | .imadwI d a b u => Sys2Proof.Machine.execImadwI d a b u s
  | .imadwIImm d a imm u => Sys2Proof.Machine.execImadwIImm d a imm u s
  | .imadwB d a b u => Sys2Proof.Machine.execImadwB d a b u s
  | .imadwBImm d a imm u => Sys2Proof.Machine.execImadwBImm d a imm u s
  | .ineg d a z u w => Sys2Proof.Machine.execIneg d a z u w s
  | .iabs d a z u w => Sys2Proof.Machine.execIabs d a z u w s
  | .iminI d a b u w => Sys2Proof.Machine.execIminI d a b u w s
  | .iminIImm d a imm u w => Sys2Proof.Machine.execIminIImm d a imm u w s
  | .iminB d a b u w => Sys2Proof.Machine.execIminB d a b u w s
  | .iminBImm d a imm u w => Sys2Proof.Machine.execIminBImm d a imm u w s
  | .imaxI d a b u w => Sys2Proof.Machine.execImaxI d a b u w s
  | .imaxIImm d a imm u w => Sys2Proof.Machine.execImaxIImm d a imm u w s
  | .imaxB d a b u w => Sys2Proof.Machine.execImaxB d a b u w s
  | .imaxBImm d a imm u w => Sys2Proof.Machine.execImaxBImm d a imm u w s
  | .and d a b u w => Sys2Proof.Machine.execAnd d a b u w s
  | .andImm d a imm u w => Sys2Proof.Machine.execAndImm d a imm u w s
  | .or d a b u w => Sys2Proof.Machine.execOr d a b u w s
  | .orImm d a imm u w => Sys2Proof.Machine.execOrImm d a imm u w s
  | .xor d a b u w => Sys2Proof.Machine.execXor d a b u w s
  | .xorImm d a imm u w => Sys2Proof.Machine.execXorImm d a imm u w s
  | .andn d a b u w => Sys2Proof.Machine.execAndn d a b u w s
  | .andnImm d a imm u w => Sys2Proof.Machine.execAndnImm d a imm u w s
  | .not d a z u w => Sys2Proof.Machine.execNot d a z u w s
  | .shl d a b u w => Sys2Proof.Machine.execShl d a b u w s
  | .shlImm d a imm u w => Sys2Proof.Machine.execShlImm d a imm u w s
  | .shr d a b u w => Sys2Proof.Machine.execShr d a b u w s
  | .shrImm d a imm u w => Sys2Proof.Machine.execShrImm d a imm u w s
  | .sar d a b u w => Sys2Proof.Machine.execSar d a b u w s
  | .sarImm d a imm u w => Sys2Proof.Machine.execSarImm d a imm u w s
  | .rol d a b u w => Sys2Proof.Machine.execRol d a b u w s
  | .rolImm d a imm u w => Sys2Proof.Machine.execRolImm d a imm u w s
  | .bfxB d a b u w => Sys2Proof.Machine.execBfxB d a b u w s
  | .bfxI d a b u w => Sys2Proof.Machine.execBfxI d a b u w s
  | .bfi d a b u w => Sys2Proof.Machine.execBfi d a b u w s
  | .popc d a z u w => Sys2Proof.Machine.execPopc d a z u w s
  | .clz d a z u w => Sys2Proof.Machine.execClz d a z u w s
  | .ctz d a z u w => Sys2Proof.Machine.execCtz d a z u w s
  | .brev d a z u w => Sys2Proof.Machine.execBrev d a z u w s
  | .prmt d a b u => Sys2Proof.Machine.execPrmt d a b u s
  | .mov d a z u w => Sys2Proof.Machine.execMov d a z u w s
  | .movImm d y imm u w => Sys2Proof.Machine.execMovImm d y imm u w s
  | .icmpEq d a b u w => Sys2Proof.Machine.execIcmpEq d a b u w s
  | .icmpEqImm d a imm u w => Sys2Proof.Machine.execIcmpEqImm d a imm u w s
  | .icmpNe d a b u w => Sys2Proof.Machine.execIcmpNe d a b u w s
  | .icmpNeImm d a imm u w => Sys2Proof.Machine.execIcmpNeImm d a imm u w s
  | .icmpLtI d a b u w => Sys2Proof.Machine.execIcmpLtI d a b u w s
  | .icmpLtIImm d a imm u w => Sys2Proof.Machine.execIcmpLtIImm d a imm u w s
  | .icmpLeI d a b u w => Sys2Proof.Machine.execIcmpLeI d a b u w s
  | .icmpLeIImm d a imm u w => Sys2Proof.Machine.execIcmpLeIImm d a imm u w s
  | .icmpGtI d a b u w => Sys2Proof.Machine.execIcmpGtI d a b u w s
  | .icmpGtIImm d a imm u w => Sys2Proof.Machine.execIcmpGtIImm d a imm u w s
  | .icmpGeI d a b u w => Sys2Proof.Machine.execIcmpGeI d a b u w s
  | .icmpGeIImm d a imm u w => Sys2Proof.Machine.execIcmpGeIImm d a imm u w s
  | .icmpLtB d a b u w => Sys2Proof.Machine.execIcmpLtB d a b u w s
  | .icmpLtBImm d a imm u w => Sys2Proof.Machine.execIcmpLtBImm d a imm u w s
  | .icmpLeB d a b u w => Sys2Proof.Machine.execIcmpLeB d a b u w s
  | .icmpLeBImm d a imm u w => Sys2Proof.Machine.execIcmpLeBImm d a imm u w s
  | .icmpGtB d a b u w => Sys2Proof.Machine.execIcmpGtB d a b u w s
  | .icmpGtBImm d a imm u w => Sys2Proof.Machine.execIcmpGtBImm d a imm u w s
  | .icmpGeB d a b u w => Sys2Proof.Machine.execIcmpGeB d a b u w s
  | .icmpGeBImm d a imm u w => Sys2Proof.Machine.execIcmpGeBImm d a imm u w s
  | .sel d a b u w => Sys2Proof.Machine.execSel d a b u w s
  | .fadd d a b u m t => Sys2Proof.Machine.execFadd d a b u m t s
  | .fsub d a b u m t => Sys2Proof.Machine.execFsub d a b u m t s
  | .fmul d a b u m t => Sys2Proof.Machine.execFmul d a b u m t s
  | .ffma d a b u m t => Sys2Proof.Machine.execFfma d a b u m t s
  | .fdiv d a b u m t => Sys2Proof.Machine.execFdiv d a b u m t s
  | .fsqrt d a z u m t => Sys2Proof.Machine.execFsqrt d a z u m t s
  | .frcpCr d a z u m t => Sys2Proof.Machine.execFrcpCr d a z u m t s
  | .frsqCr d a z u m t => Sys2Proof.Machine.execFrsqCr d a z u m t s
  | .fscale d a b u m t => Sys2Proof.Machine.execFscale d a b u m t s
  | .frnd d a z u m t => Sys2Proof.Machine.execFrnd d a z u m t s
  | .fneg d a z u t => Sys2Proof.Machine.execFneg d a z u t s
  | .fabs d a z u t => Sys2Proof.Machine.execFabs d a z u t s
  | .fmin d a b u t => Sys2Proof.Machine.execFmin d a b u t s
  | .fmax d a b u t => Sys2Proof.Machine.execFmax d a b u t s
  | .fminn d a b u t => Sys2Proof.Machine.execFminn d a b u t s
  | .fmaxn d a b u t => Sys2Proof.Machine.execFmaxn d a b u t s
  | .fclass d a z u t => Sys2Proof.Machine.execFclass d a z u t s
  | .ffrexp d a b u t => Sys2Proof.Machine.execFfrexp d a b u t s
  | .fcmpEq d a b u t => Sys2Proof.Machine.execFcmpEq d a b u t s
  | .fcmpLt d a b u t => Sys2Proof.Machine.execFcmpLt d a b u t s
  | .fcmpLe d a b u t => Sys2Proof.Machine.execFcmpLe d a b u t s
  | .fcmpUn d a b u t => Sys2Proof.Machine.execFcmpUn d a b u t s
  | .fcmpNe d a b u t => Sys2Proof.Machine.execFcmpNe d a b u t s
  | .fcmpGt d a b u t => Sys2Proof.Machine.execFcmpGt d a b u t s
  | .fcmpGe d a b u t => Sys2Proof.Machine.execFcmpGe d a b u t s
  | .fcmpOrd d a b u t => Sys2Proof.Machine.execFcmpOrd d a b u t s
  | .fexp2 d a z u => Sys2Proof.Machine.execFexp2 d a z u s
  | .flog2 d a z u => Sys2Proof.Machine.execFlog2 d a z u s
  | .fsin d a z u => Sys2Proof.Machine.execFsin d a z u s
  | .fcos d a z u => Sys2Proof.Machine.execFcos d a z u s
  | .ftanh d a z u => Sys2Proof.Machine.execFtanh d a z u s
  | .frcp d a z u t => Sys2Proof.Machine.execFrcp d a z u t s
  | .frsq d a z u t => Sys2Proof.Machine.execFrsq d a z u t s
  | .cvt d a q m s_ u t => Sys2Proof.Machine.execCvt d a q m s_ u t s
  | .cvtpk d a p q m u n => Sys2Proof.Machine.execCvtpk d a p q m u n s
  | .cvtupk d a p u n => Sys2Proof.Machine.execCvtupk d a p u n s
  | .cvtscMul d a b u => Sys2Proof.Machine.execCvtscMul d a b u s
  | .cvtscExp d a n u => Sys2Proof.Machine.execCvtscExp d a n u s
  | .shflIdx d a b => Sys2Proof.Machine.execShflIdx d a b s
  | .shflUp d a b => Sys2Proof.Machine.execShflUp d a b s
  | .shflDown d a b => Sys2Proof.Machine.execShflDown d a b s
  | .shflXor d a b => Sys2Proof.Machine.execShflXor d a b s
  | .voteAny d a z => Sys2Proof.Machine.execVoteAny d a z s
  | .voteAll d a z => Sys2Proof.Machine.execVoteAll d a z s
  | .voteBallot d a z => Sys2Proof.Machine.execVoteBallot d a z s
  | .elect d y z => Sys2Proof.Machine.execElect d y z s
  | .redg d a o t => Sys2Proof.Machine.execRedg d a o t s
  | .scangIncl d a o t => Sys2Proof.Machine.execScangIncl d a o t s
  | .scangExcl d a o t => Sys2Proof.Machine.execScangExcl d a o t s
  | .nop x y z u => Sys2Proof.Machine.execNop x y z u s
  | .bra x y b u => Sys2Proof.Machine.execBra x y b u s
  | .braImm x y imm u => Sys2Proof.Machine.execBraImm x y imm u s
  | .brz x a b u => Sys2Proof.Machine.execBrz x a b u s
  | .brzImm x a imm u => Sys2Proof.Machine.execBrzImm x a imm u s
  | .brnz x a b u => Sys2Proof.Machine.execBrnz x a b u s
  | .brnzImm x a imm u => Sys2Proof.Machine.execBrnzImm x a imm u s
  | .jmpr x a z u => Sys2Proof.Machine.execJmpr x a z u s
  | .call d a z u => Sys2Proof.Machine.execCall d a z u s
  | .callImm d y imm u => Sys2Proof.Machine.execCallImm d y imm u s
  | .callr d a z u => Sys2Proof.Machine.execCallr d a z u s
  | .ret x a z u => Sys2Proof.Machine.execRet x a z u s
  | .yield x y z => Sys2Proof.Machine.execYield x y z s
  | .wsync x a z => Sys2Proof.Machine.execWsync x a z s
  | .exit x y z => Sys2Proof.Machine.execExit x y z s
  | .trap x y imm u => Sys2Proof.Machine.execTrap x y imm u s
  | .bkpt x y imm u => Sys2Proof.Machine.execBkpt x y imm u s
  | .wbase x a z u => Sys2Proof.Machine.execWbase x a z u s
  | .wbaseImm x y imm u => Sys2Proof.Machine.execWbaseImm x y imm u s
  | .rbacq x a z u => Sys2Proof.Machine.execRbacq x a z u s
  | .rbacqImm x y imm u => Sys2Proof.Machine.execRbacqImm x y imm u s
  | .rbrel x a z u => Sys2Proof.Machine.execRbrel x a z u s
  | .rbrelImm x y imm u => Sys2Proof.Machine.execRbrelImm x y imm u s
  | .rquota x a t f u => Sys2Proof.Machine.execRquota x a t f u s
  | .fetcht d y z u => Sys2Proof.Machine.execFetcht d y z u s
  | .movs d y s_ u => Sys2Proof.Machine.execMovs d y s_ u s
  | .movc d y c u => Sys2Proof.Machine.execMovc d y c u s
  | .movcW x a c u => Sys2Proof.Machine.execMovcW x a c u s
  | .movs64 d y s_ u => Sys2Proof.Machine.execMovs64 d y s_ u s
  | .ld d a o t u => Sys2Proof.Machine.execLd d a o t u s
  | .ldSpan d a k t u => Sys2Proof.Machine.execLdSpan d a k t u s
  | .st d a r t u => Sys2Proof.Machine.execSt d a r t u s
  | .ldl d a q t u => Sys2Proof.Machine.execLdl d a q t u s
  | .stl d a r t u => Sys2Proof.Machine.execStl d a r t u s
  | .pref x a k l u => Sys2Proof.Machine.execPref x a k l u s
  | .pqry d a z u => Sys2Proof.Machine.execPqry d a z u s
  | .atomAdd d a p o t u => Sys2Proof.Machine.execAtomAdd d a p o t u s
  | .atomSub d a p o t u => Sys2Proof.Machine.execAtomSub d a p o t u s
  | .atomMin d a p o t u => Sys2Proof.Machine.execAtomMin d a p o t u s
  | .atomMax d a p o t u => Sys2Proof.Machine.execAtomMax d a p o t u s
  | .atomAnd d a p o t u => Sys2Proof.Machine.execAtomAnd d a p o t u s
  | .atomOr d a p o t u => Sys2Proof.Machine.execAtomOr d a p o t u s
  | .atomXor d a p o t u => Sys2Proof.Machine.execAtomXor d a p o t u s
  | .atomSwap d a p o t u => Sys2Proof.Machine.execAtomSwap d a p o t u s
  | .atomCas d a p o t u => Sys2Proof.Machine.execAtomCas d a p o t u s
  | .atomIncw d a p o t u => Sys2Proof.Machine.execAtomIncw d a p o t u s
  | .atomAddb d a p o t u => Sys2Proof.Machine.execAtomAddb d a p o t u s
  | .atomFadd d a p o t u => Sys2Proof.Machine.execAtomFadd d a p o t u s
  | .accopen d a b u => Sys2Proof.Machine.execAccopen d a b u s
  | .accclose x a z u => Sys2Proof.Machine.execAccclose x a z u s
  | .accscale d a b u => Sys2Proof.Machine.execAccscale d a b u s
  | .acczero x a b u => Sys2Proof.Machine.execAcczero x a b u s
  | .redFast d a z u w => Sys2Proof.Machine.execRedFast d a z u w s
  | .redOrd d a b u w => Sys2Proof.Machine.execRedOrd d a b u w s
  | .redMin d a z u w => Sys2Proof.Machine.execRedMin d a z u w s
  | .redMax d a z u w => Sys2Proof.Machine.execRedMax d a z u w s
  | .rediAdd d a z u w => Sys2Proof.Machine.execRediAdd d a z u w s
  | .rediMinI d a z u w => Sys2Proof.Machine.execRediMinI d a z u w s
  | .rediMinB d a z u w => Sys2Proof.Machine.execRediMinB d a z u w s
  | .rediMaxI d a z u w => Sys2Proof.Machine.execRediMaxI d a z u w s
  | .rediMaxB d a z u w => Sys2Proof.Machine.execRediMaxB d a z u w s
  | .rediAnd d a z u w => Sys2Proof.Machine.execRediAnd d a z u w s
  | .rediOr d a z u w => Sys2Proof.Machine.execRediOr d a z u w s
  | .rediXor d a z u w => Sys2Proof.Machine.execRediXor d a z u w s
  | .cflush x a b u => Sys2Proof.Machine.execCflush x a b u s
  | .cinv x a b u => Sys2Proof.Machine.execCinv x a b u s
  | .cspan d a c k u => Sys2Proof.Machine.execCspan d a c k u s
  | .binit d a z u => Sys2Proof.Machine.execBinit d a z u s
  | .barv x a b u => Sys2Proof.Machine.execBarv x a b u s
  | .barvImm x a imm u => Sys2Proof.Machine.execBarvImm x a imm u s
  | .bexp x a b u => Sys2Proof.Machine.execBexp x a b u s
  | .bwait x a b u => Sys2Proof.Machine.execBwait x a b u s
  | .btest d a b u => Sys2Proof.Machine.execBtest d a b u s
  | .binval x a z u => Sys2Proof.Machine.execBinval x a z u s
  | .bsync x a b u => Sys2Proof.Machine.execBsync x a b u s
  | .cqry d y imm u => Sys2Proof.Machine.execCqry d y imm u s
  | .movts d a z u => Sys2Proof.Machine.execMovts d a z u s
  | .movst d a z u => Sys2Proof.Machine.execMovst d a z u s
  | .tld d a z u => Sys2Proof.Machine.execTld d a z u s
  | .tldOb d a z u => Sys2Proof.Machine.execTldOb d a z u s
  | .tst d a z u => Sys2Proof.Machine.execTst d a z u s
  | .tzero d y z u => Sys2Proof.Machine.execTzero d y z u s
  | .twr d a b u => Sys2Proof.Machine.execTwr d a b u s
  | .trd d a b u => Sys2Proof.Machine.execTrd d a b u s
  | .tring d a z u => Sys2Proof.Machine.execTring d a z u s
  | .trel d y z u => Sys2Proof.Machine.execTrel d y z u s
  | .mmai x a z u => Sys2Proof.Machine.execMmai x a z u s
  | .mmaq d y z u => Sys2Proof.Machine.execMmaq d y z u s
  | .ldmeta d a z u => Sys2Proof.Machine.execLdmeta d a z u s
  | .put d a o u => Sys2Proof.Machine.execPut d a o u s
  | .putn d a o u => Sys2Proof.Machine.execPutn d a o u s
  | .get d a o u => Sys2Proof.Machine.execGet d a o u s
  | .mput d a o u => Sys2Proof.Machine.execMput d a o u s
  | .ratom d y t o u => Sys2Proof.Machine.execRatom d y t o u s
  | .rred d y o w u => Sys2Proof.Machine.execRred d y o w u s
  | .gbarv x a z u => Sys2Proof.Machine.execGbarv x a z u s
  | .fqry d y imm u => Sys2Proof.Machine.execFqry d y imm u s
  | .illop word => Sys2Proof.Machine.execIllop word s
  | .clauseIssue => Sys2Proof.Machine.execClauseIssue s
  | .clauseEnd => Sys2Proof.Machine.execClauseEnd s
  | .llComplete => Sys2Proof.Machine.execLlComplete s
  | .rbacqGrant => Sys2Proof.Machine.execRbacqGrant s
  | .faultRecordEnqueue => Sys2Proof.Machine.execFaultRecordEnqueue s
  | .faultRecordHandling => Sys2Proof.Machine.execFaultRecordHandling s
  | .preemptionRequest => Sys2Proof.Machine.execPreemptionRequest s
  | .drainComplete => Sys2Proof.Machine.execDrainComplete s
  | .imageWritten => Sys2Proof.Machine.execImageWritten s
  | .resumeRequest => Sys2Proof.Machine.execResumeRequest s
  | .resourcesReserved => Sys2Proof.Machine.execResourcesReserved s
  | .loadComplete => Sys2Proof.Machine.execLoadComplete s
  | .storeQueueDepart => Sys2Proof.Machine.execStoreQueueDepart s
  | .homeApply => Sys2Proof.Machine.execHomeApply s
  | .storeAcknowledgement => Sys2Proof.Machine.execStoreAcknowledgement s
  | .homeRead => Sys2Proof.Machine.execHomeRead s
  | .fillComplete => Sys2Proof.Machine.execFillComplete s
  | .l1Fill => Sys2Proof.Machine.execL1Fill s
  | .releasePerform => Sys2Proof.Machine.execReleasePerform s
  | .promotion => Sys2Proof.Machine.execPromotion s
  | .mapRequest => Sys2Proof.Machine.execMapRequest s
  | .mapNotice => Sys2Proof.Machine.execMapNotice s
  | .declineNotice => Sys2Proof.Machine.execDeclineNotice s
  | .shootdown => Sys2Proof.Machine.execShootdown s
  | .shootdownAck => Sys2Proof.Machine.execShootdownAck s
  | .pageChangeStep => Sys2Proof.Machine.execPageChangeStep s
  | .contributionArrival => Sys2Proof.Machine.execContributionArrival s
  | .accopenCapacity => Sys2Proof.Machine.execAccopenCapacity s
  | .accClosePoint => Sys2Proof.Machine.execAccClosePoint s
  | .arrivalRetry => Sys2Proof.Machine.execArrivalRetry s
  | .bytesLanded => Sys2Proof.Machine.execBytesLanded s
  | .putAcknowledgement => Sys2Proof.Machine.execPutAcknowledgement s
  | .remoteArrival => Sys2Proof.Machine.execRemoteArrival s
  | .gangCompletion => Sys2Proof.Machine.execGangCompletion s
  | .gangArrival => Sys2Proof.Machine.execGangArrival s
  | .bsyncTimeout => Sys2Proof.Machine.execBsyncTimeout s
  | .waitForWalk => Sys2Proof.Machine.execWaitForWalk s
  | .copyNotify => Sys2Proof.Machine.execCopyNotify s
  | .ringRestart => Sys2Proof.Machine.execRingRestart s
  | .copyLanding => Sys2Proof.Machine.execCopyLanding s
  | .copyTileDelivery => Sys2Proof.Machine.execCopyTileDelivery s
  | .copyEntryComplete => Sys2Proof.Machine.execCopyEntryComplete s
  | .kstepFire => Sys2Proof.Machine.execKstepFire s
  | .kstepReadsComplete => Sys2Proof.Machine.execKstepReadsComplete s
  | .mmaiQueueEntry => Sys2Proof.Machine.execMmaiQueueEntry s
  | .governorWindow => Sys2Proof.Machine.execGovernorWindow s
  | .dispenserRequest => Sys2Proof.Machine.execDispenserRequest s
  | .staticExhaustRelease => Sys2Proof.Machine.execStaticExhaustRelease s
  | .fabricSlot => Sys2Proof.Machine.execFabricSlot s
  | .packetReceive => Sys2Proof.Machine.execPacketReceive s
  | .packetAck => Sys2Proof.Machine.execPacketAck s
  | .packetRetransmit => Sys2Proof.Machine.execPacketRetransmit s
  | .planeBlackout => Sys2Proof.Machine.execPlaneBlackout s
  | .blackoutEnd => Sys2Proof.Machine.execBlackoutEnd s
  | .linkStepDown => Sys2Proof.Machine.execLinkStepDown s
  | .linkStepDone => Sys2Proof.Machine.execLinkStepDone s
  | .linkProbeStart => Sys2Proof.Machine.execLinkProbeStart s
  | .linkProbePass => Sys2Proof.Machine.execLinkProbePass s
  | .linkProbeFail => Sys2Proof.Machine.execLinkProbeFail s
  | .retrainRequest => Sys2Proof.Machine.execRetrainRequest s
  | .retrainAccept => Sys2Proof.Machine.execRetrainAccept s
  | .retrainDefer => Sys2Proof.Machine.execRetrainDefer s
  | .retrainLocked => Sys2Proof.Machine.execRetrainLocked s
  | .retrainTimeout => Sys2Proof.Machine.execRetrainTimeout s
  | .slotMark => Sys2Proof.Machine.execSlotMark s
  | .toffMeasurement => Sys2Proof.Machine.execToffMeasurement s
  | .leaseRenewal => Sys2Proof.Machine.execLeaseRenewal s
  | .renewalHeard => Sys2Proof.Machine.execRenewalHeard s
  | .renewalAcknowledgement => Sys2Proof.Machine.execRenewalAcknowledgement s
  | .leaseTimeout => Sys2Proof.Machine.execLeaseTimeout s
  | .electionTimer => Sys2Proof.Machine.execElectionTimer s
  | .claimHeard => Sys2Proof.Machine.execClaimHeard s
  | .leaderLapse => Sys2Proof.Machine.execLeaderLapse s
  | .dieReset => Sys2Proof.Machine.execDieReset s
  | .selftestComplete => Sys2Proof.Machine.execSelftestComplete s
  | .imageVerify => Sys2Proof.Machine.execImageVerify s
  | .identityExchange => Sys2Proof.Machine.execIdentityExchange s
  | .partnerSilent => Sys2Proof.Machine.execPartnerSilent s
  | .panelJoin => Sys2Proof.Machine.execPanelJoin s
  | .joinTimeout => Sys2Proof.Machine.execJoinTimeout s
  | .dieFence => Sys2Proof.Machine.execDieFence s
  | .supplySag => Sys2Proof.Machine.execSupplySag s
  | .sagRecovery => Sys2Proof.Machine.execSagRecovery s
  | .powerCapUpdate => Sys2Proof.Machine.execPowerCapUpdate s
  | .eccError => Sys2Proof.Machine.execEccError s
  | .dieLinkError => Sys2Proof.Machine.execDieLinkError s
  | .hostRead => Sys2Proof.Machine.execHostRead s
  | .hostWrite => Sys2Proof.Machine.execHostWrite s
  | .queueEnable => Sys2Proof.Machine.execQueueEnable s
  | .queueDisable => Sys2Proof.Machine.execQueueDisable s
  | .registerWrite => Sys2Proof.Machine.execRegisterWrite s
  | .attestationRequest => Sys2Proof.Machine.execAttestationRequest s
  | .henezNop => Sys2Proof.Machine.execHenezNop s
  | .henezLaunch => Sys2Proof.Machine.execHenezLaunch s
  | .henezLaunchInd => Sys2Proof.Machine.execHenezLaunchInd s
  | .launchPlace => Sys2Proof.Machine.execLaunchPlace s
  | .launchRetire => Sys2Proof.Machine.execLaunchRetire s
  | .henezWait => Sys2Proof.Machine.execHenezWait s
  | .henezSignalStore => Sys2Proof.Machine.execHenezSignalStore s
  | .henezSignalAdd => Sys2Proof.Machine.execHenezSignalAdd s
  | .henezLoop => Sys2Proof.Machine.execHenezLoop s
  | .henezEndloop => Sys2Proof.Machine.execHenezEndloop s
  | .henezIf => Sys2Proof.Machine.execHenezIf s
  | .henezElse => Sys2Proof.Machine.execHenezElse s
  | .henezEndif => Sys2Proof.Machine.execHenezEndif s
  | .henezBankrole => Sys2Proof.Machine.execHenezBankrole s
  | .bankroleExecute => Sys2Proof.Machine.execBankroleExecute s
  | .henezPagemode => Sys2Proof.Machine.execHenezPagemode s
  | .henezTopo => Sys2Proof.Machine.execHenezTopo s
  | .henezPreempt => Sys2Proof.Machine.execHenezPreempt s
  | .henezPreemptResume => Sys2Proof.Machine.execHenezPreemptResume s
  | .henezPreemptAbort => Sys2Proof.Machine.execHenezPreemptAbort s
  | .henezMap => Sys2Proof.Machine.execHenezMap s
  | .henezMapDecline => Sys2Proof.Machine.execHenezMapDecline s
  | .henezXferSend => Sys2Proof.Machine.execHenezXferSend s
  | .henezXferFetch => Sys2Proof.Machine.execHenezXferFetch s
  | .henezUnassigned => Sys2Proof.Machine.execHenezUnassigned s

end Sys2Proof.Machine
end

