-- ==== Sys2Proof/Machine/Spoil.lean ====
section
/-!
DEFINITION. Spoil.lean: what an operation has already written when a source register of it is written too early: each of
those bytes, too, is an unpredictable value (R101). What it has still to write, `State.taint` deals with.
-/
namespace Sys2Proof.Machine

/-- Bytes that an operation of core c has written at a home become unpredictable, in the core's own L1 as well. With `was`
given, only those that still hold what it wrote. (DEDUCED, log 15) -/
def State.wreck (s : State) (c pa grain n key : Nat) (was : Option (List Byte)) : State :=
  if (s.rangeAt pa).isSome then s.spoil pa n
  else if (s.absentCode (dieOfPa pa)).isSome then s
  else
    let bad := s.freeBytes key n
    let bs := (s.homeBytes pa n).zipIdx.map (fun b => match was with
      | some w => if w.getD b.2 0 = b.1 then bad.getD b.2 0 else b.1
      | none => bad.getD b.2 0)
    (s.homeWriteAll pa grain bs).modCore c (fun k => k.l1Store pa bs)

/-- The same at a virtual address, as the core finds its page now. -/
def State.wreckAt (s : State) (c L va n key : Nat) : State :=
  match s.look c L none va with
  | .present t => s.wreck c (t.phys va) (grainOf t.leaf) n key none
  | .moving t => s.wreck c (t.phys va) (grainOf t.leaf) n key none
  | .absent _ _ _ _ _ => s

/-- An element of a range becomes unpredictable. -/
def State.spoilAt (s : State) (r va : Nat) : State := s.modRange r (fun r => r.spoilElem ((va - r.base) / r.size))

/-- What one access of an operation has written. -/
def State.spoilAccess (s : State) (c : Nat) (o : Op) (a : Access) : State :=
  let gone := !s.contribs.any (fun x => x.op == o.id && x.entry == a.id)
  match a.sk with
  | .plain =>
    match a.tr with
    | none => match o.kind with
      | .accOpen => s.modRange a.id (fun r => (List.range (r.len / r.size)).foldl (fun r i => r.spoilElem i) r)
      | .accClose _ =>
        if a.st = .done then (List.range (a.len / 32)).foldl (fun s i => s.wreckAt c o.launch (a.va + 32 * i) 32 (a.id + i)) s else s
      | _ => s
    | some t => match o.kind with
      | .store _ => s.wreck c (t.phys a.va) (grainOf t.leaf) a.wrote.length a.id (some a.wrote)
      | .tst _ => s.wreck c (t.phys a.va) (grainOf t.leaf) a.wrote.length a.id (some a.wrote)
      | .atom _ _ => if a.st = .served ∨ a.st = .done then s.wreck c (t.phys a.va) (grainOf t.leaf) a.len a.id none else s
      | _ => s
  | .red _ _ | .redi _ _ =>
    match a.tr with
    | some t => if a.st = .sent ∨ a.st = .done then s.wreck c (t.phys a.va) (grainOf t.leaf) a.len a.id none else s
    | none => s
  | .zero _ => (List.range (a.taken / 32)).foldl (fun s i => s.wreckAt c o.launch (a.va + 32 * i) 32 (a.id + i)) s
  | .contrib r => if gone ∧ (a.st = .sent ∨ a.st = .done) then s.spoilAt r a.va else s
  | .scale r =>
    if gone ∧ (a.st = .sent ∨ a.st = .done) then
      o.accs.foldl (fun s x => (List.range (x.len / 4)).foldl (fun s i => s.spoilAt r (x.va + 4 * i)) s) s
    else s

/-- What a matrix operation has contributed: every chunk adds to the whole of its window. -/
def State.spoilMma (s : State) (m : Mma) : State :=
  if m.accepted.isEmpty then s
  else (List.range m.rows).foldl (fun s i => (List.range m.cols).foldl (fun s j => s.spoilAt m.range (m.eltAddr i j)) s) s

/-- The parts of a fabric operation that no packet toward, or back from, an island still carries. -/
def State.landedParts (s : State) (f : FabOp) (isl : Nat) (back : Bool) : List (Nat × Nat) :=
  (cuts f.raddr f.len).filter (fun p => !s.packets.any (fun x => x.fab == f.id && decide (x.off = p.1) &&
    ((!x.resp && decide (x.dst = isl)) || (back && x.resp))))

/-- What a fabric operation has written. -/
def State.spoilFab (s : State) (c : Nat) (f : FabOp) : State :=
  match f.kind with
  | .get =>
    (f.islands.flatMap (fun i => s.landedParts f i true)).foldl (fun s p =>
      if f.local_ then s.modTeam f.launch f.team (fun t => t.write (f.laddr + p.1) (s.freeBytes (f.id + p.1) p.2))
      else match trAt f.ltrs (f.laddr + p.1) with
        | some t => s.wreck c (t.phys (f.laddr + p.1)) (grainOf t.leaf) p.2 (f.id + p.1) none
        | none => s) s
  | k =>
    f.dests.foldl (fun s d =>
      if !d.checked then s
      else (s.landedParts f d.isl false).foldl (fun s p =>
        let va := f.raddr + p.1
        if f.peer then
          match s.peerTeam f.launch d.isl with
          | none => s
          | some t => s.modTeam t.launch t.idx (fun t => t.write va (s.freeBytes (f.id + p.1) p.2))
        else if k = .rred ∧ d.ranges.any (fun r => decide (r.2.1 ≤ va) && decide (va < r.2.1 + r.2.2)) then
          (List.range (p.2 / f.elt)).foldl (fun s i => match d.ranges.find? (fun r => decide (r.2.1 ≤ va + i * f.elt) &&
              decide (va + i * f.elt < r.2.1 + r.2.2)) with
            | some r => s.spoilAt r.1 (va + i * f.elt)
            | none => s) s
        else match trAt d.trs va with
          | some t => s.wreck c (t.phys va) (grainOf t.leaf) p.2 (f.id + p.1) none
          | none => s) s) s

/-- At the end of a step: what the operations found tainted in it have written becomes unpredictable (R101).
(DEDUCED, log 15) -/
def State.spoilWritten (s : State) : State :=
  (s.ops.filter (·.due)).foldl (fun s o =>
    let c := s.coreOf o.launch o.team
    let s1 := o.accs.foldl (fun s a => s.spoilAccess c o a) s
    let s2 := (s.mmas.filter (fun m => decide (m.op = o.id))).foldl (fun s m => s.spoilMma m) s1
    let s3 := (s.fabs.filter (fun f => decide (f.op = o.id))).foldl (fun s f => s.spoilFab c f) s2
    s3.modOp o.id (fun o => { o with due := false })) s

end Sys2Proof.Machine
end

