-- ==== Sys2Proof/WellFormed.lean ====
section
/-!
DEFINITION. WellFormed.lean: which terms of Instr are instruction words that the manual accepts.
-/
namespace Sys2Proof

/-- A well-formed instruction word: a step of an engine is none; modifier subfields and B selectors are accepted (R41); a
word that stands for no instruction has an OP that is not assigned (R47). -/
def Instr.wellFormed (i : Instr) : Bool :=
  match i with
  | .illop w =>
    (decodeFields (w.extractLsb' 25 7) (w.extractLsb' 18 7) (w.extractLsb' 11 7) (w.getLsbD 10) (w.extractLsb' 0 10)).isNone
  | i => i.isWord && i.modOk

end Sys2Proof
end

