-- ==== Sys2Proof/Machine/Schedule.lean ====
section
/-!
DEFINITION. Schedule.lean: which agent acts next (log 2). The manual orders the panel's agents only where its rules say
so: a schedule held in the state names the next choices; without one, clauses run to their end, then steps of the engines
are tried in a fixed order, then time passes. What comes from outside the panel (host accesses, errors, failed checks) is
taken only from a schedule.
-/
namespace Sys2Proof.Machine

/-! ### Time -/

/-- The time counter of a die after n ns, by its own clock: what it is still to be trimmed by is stretched or made up, and it
stays between bounds, without ever standing back (R156). -/
def Die.count (x : Die) (n stray lo hi : Nat) : Die :=
  let trim : Int := if x.trim < 0 then max x.trim (-(n : Int)) else min x.trim n
  let own : Int := if stray = 0 then -1 else if stray = 1 then 1 else 0
  { x with counter := max (max x.counter lo) (min ((x.counter : Int) + n + trim + own).toNat hi), trim := x.trim - trim }

/-- The counters that run after n ns: the lease holder's advances by n, every other stays within 32 ticks of it and within 8 of
the other die of its island (R15, R156). Without a holder, the first counter that runs takes its place.
(DEDUCED, log 39) -/
def State.counters (s : State) (n : Nat) : List Die :=
  match s.leader?.orElse (fun _ => (List.range 60).find? (fun d => (s.die d).counterOn)) with
  | none => s.dies
  | some r =>
    let h := (s.die r).counter + n
    let go := fun (near : Option Nat) (d : Nat) (x : Die) =>
      let lo := max (h - 32) ((near.map (fun c => c - 8)).getD 0)
      let hi := min (h + 32) ((near.map (fun c => c + 8)).getD (h + 32))
      if d = r then { x with counter := h } else if x.counterOn then x.count n (Config.stray (s.now + n) d).toNat lo hi else x
    -- the holder's island goes by it, every other by its die 0
    let first := s.dies.zipIdx.map (fun x => go (if x.2 / 2 = r / 2 then some h else none) x.2 x.1)
    first.zipIdx.map (fun x =>
      let old := s.die x.2
      let p := first.getD (x.2 - 1) x.1
      if x.2 % 2 = 1 && decide (x.2 / 2 ≠ r / 2) && p.counterOn then go (some p.counter) x.2 old else x.1)

/-- The lease holder's measurements that are due 10 ms after the last (R156). -/
def State.measureDue (s : State) : State :=
  if s.leader?.isNone then s
  else
    let due := (List.range 60).filter (fun d => s.diePresent d && decide ((s.die d).measured + 10000000 ≤ s.now))
    if due.isEmpty then s else (due.foldl (fun s d => s.measure d) s).redraw

/-- n ns pass (R5, R156, R310, R432): time, fabric time, the counters that run, the clocks, of which 21 tenths of a cycle pass in
a nanosecond, or 19 while the supply sags, and the time-outs of groups whose team is in RUN. (DESIGN CHOICE, log 3;
DEDUCED, log 39) -/
def State.tick (s : State) (n : Nat) : State :=
  ({ s with
    now := s.now + n
    fabricTime := s.fabricTime + n
    dies := (s.counters n).map (fun x => { x with clk := x.clk + (if x.sag then 19 else 21) * n })
    groups := updWhere (fun g => ((s.team? g.launch g.team).map (fun t => decide (t.ctx = .run))).getD false) (fun g =>
      match g.wait with
      -- the record of a time-out says how things stand as it runs out (R311)
      | .bsync a p left m => { g with
          wait := .bsync a p (if left = 0 then 0 else max 1 (left - n)) m
          expired := if 1 < left ∧ left ≤ n + 1 then s.expiry g a p else g.expired }
      | _ => g) s.groups } : State).measureDue

/-! ### Engines -/

/-- Steps of long-latency operations and their accesses. -/
def State.opEvents (s : State) : List (Instr × List Nat) :=
  s.ops.flatMap (fun o =>
    [(.llComplete, [o.id]), (.releasePerform, [o.id]), (.promotion, [o.id]), (.accopenCapacity, [o.id]),
      (.dispenserRequest, [o.id]), (.staticExhaustRelease, [o.id])] ++
    o.accs.flatMap (fun a => [(.homeRead, [o.id, a.id]), (.l1Fill, [o.id, a.id])]))

/-- Steps of groups. -/
def State.groupEvents (s : State) : List (Instr × List Nat) :=
  s.groups.flatMap (fun g =>
    [(.storeQueueDepart, [g.launch, g.team, g.gnum]), (.remoteArrival, [g.launch, g.team, g.gnum]),
      (.bsyncTimeout, [g.launch, g.team, g.gnum])] ++
    (g.sq.filter (fun e => decide (e.relScope ≠ 0))).map (fun e => (.releasePerform, [e.op])) ++
    (g.stream.filter (fun e => e.rel)).map (fun e => (.releasePerform, [e.id])))

/-- Steps of cores: paths to the homes, register blocks, windows. -/
def State.coreEvents (s : State) : List (Instr × List Nat) :=
  s.cores.flatMap (fun k =>
    k.path.flatMap (fun e => [(.homeApply, [k.id, e.die]), (.storeAcknowledgement, [e.access])]) ++
    (if s.mmas.any (fun m => decide (s.coreOf m.launch m.team = k.id)) then [(.governorWindow, [k.id])] else [])) ++
  ((s.teams.map (·.core)).eraseDups).map (fun c => (.rbacqGrant, [c]))

/-- Steps of memory, translation, accumulators and the matrix engine. -/
def State.memoryEvents (s : State) : List (Instr × List Nat) :=
  s.fills.map (fun f => (.fillComplete, [f.id])) ++
  s.notices.flatMap (fun n => [(.mapNotice, [n.id]), (.declineNotice, [n.id])]) ++
  s.mapReqs.map (fun r => (.mapRequest, [r.id])) ++
  s.shoots.flatMap (fun x => x.targets.flatMap (fun t => [(.shootdown, [x.id, t]), (.shootdownAck, [x.id, t])])) ++
  s.changes.map (fun c => (.pageChangeStep, [c.id])) ++
  s.contribs.map (fun c => (.contributionArrival, [c.id])) ++
  s.ranges.map (fun r => (.accClosePoint, [r.id])) ++
  s.mmas.flatMap (fun m => [(.mmaiQueueEntry, [m.id]), (.kstepFire, [m.id]), (.kstepReadsComplete, [m.id])])

/-- Steps of the copy and fabric engines and of gangs. -/
def State.moveEvents (s : State) : List (Instr × List Nat) :=
  s.teams.flatMap (fun t => (List.range 4).flatMap (fun r =>
    [(.copyNotify, [t.launch, t.idx, r]), (.ringRestart, [t.launch, t.idx, r])])) ++
  s.copies.flatMap (fun c => [(.copyLanding, [c.id]), (.copyTileDelivery, [c.id]), (.copyEntryComplete, [c.id])]) ++
  s.gangQ.map (fun q => (.gangArrival, [q.id])) ++
  s.arrivals.flatMap (fun a => [(.bytesLanded, [a.id]), (.putAcknowledgement, [a.id]), (.gangCompletion, [a.id])]) ++
  [(.fabricSlot, [])] ++
  s.packets.flatMap (fun p => [(.packetReceive, [p.id]), (.packetAck, [p.id]), (.packetRetransmit, [p.id])]) ++
  (s.contribs.filter (·.refused)).map (fun c => (.arrivalRetry, [c.id])) ++
  (s.packets.filter (fun p => decide (p.st = .refused))).map (fun p => (.arrivalRetry, [p.id])) ++
  (s.arrivals.filter (·.refused)).map (fun a => (.arrivalRetry, [a.id]))

/-- Steps of links that are not in PAM4, and of planes. -/
def State.linkEvents (s : State) : List (Instr × List Nat) :=
  (s.links.zipIdx.filter (fun k => decide (k.1.st ≠ .pam4))).flatMap (fun k =>
    let at_ := [k.2 / 32, k.2 % 32]
    [(.linkStepDone, at_), (.linkProbeStart, at_), (.linkProbePass, at_), (.retrainAccept, at_), (.retrainLocked, at_),
      (.retrainTimeout, at_)]) ++
  (List.range s.blackout.length).flatMap (fun p => [(.planeBlackout, [p]), (.blackoutEnd, [p])])

/-- Steps of the command cores: faults, contexts, launches. -/
def State.commandEvents (s : State) : List (Instr × List Nat) :=
  (List.range s.dies.length).flatMap (fun d => [(.faultRecordEnqueue, [d]), (.faultRecordHandling, [d]), (.bankroleExecute, [d])]) ++
  s.launches.map (fun x => (.preemptionRequest, [x.num])) ++
  s.teams.flatMap (fun t =>
    let at_ := [t.launch, t.idx]
    [(.drainComplete, at_), (.imageWritten, at_), (.resourcesReserved, at_), (.loadComplete, at_)]) ++
  s.launches.flatMap (fun x => [(.launchRetire, [x.num]), (.launchPlace, [x.num])]) ++
  s.teams.map (fun t => (.resumeRequest, [t.launch, t.idx]))

/-- Packets of the queues. -/
def State.queueEvents (s : State) : List (Instr × List Nat) :=
  (s.queues.filter (fun x => s.pending x.q)).flatMap (fun x =>
    ([.henezNop, .henezLaunch, .henezLaunchInd, .henezWait, .henezSignalStore, .henezSignalAdd, .henezLoop, .henezEndloop,
      .henezIf, .henezElse, .henezEndif, .henezBankrole, .henezPagemode, .henezTopo, .henezPreempt, .henezPreemptResume,
      .henezPreemptAbort, .henezMap, .henezMapDecline, .henezXferSend, .henezXferFetch, .henezUnassigned] : List Instr).map (fun i =>
      (i, [x.q])))

/-- Steps of boot, where all checks pass, and of the lease. -/
def State.dieEvents (s : State) : List (Instr × List Nat) :=
  (List.range s.dies.length).flatMap (fun d => match (s.die d).boot with
    | .reset => [(.dieReset, [d])]
    | .selftest => [(.selftestComplete, [d, 0])]
    | .image => [(.imageVerify, [d, 0])]
    | .pair => [(.identityExchange, [d, 0]), (.partnerSilent, [d])]
    | .panel => [(.panelJoin, [d, 0]), (.joinTimeout, [d])]
    | .joined => [(.leaseRenewal, [d]), (.renewalHeard, [d]), (.renewalAcknowledgement, [d]), (.leaderLapse, [d])] ++
        (s.joinedDies.map (fun c => (.claimHeard, [d, c]))) ++ [(.leaseTimeout, [d]), (.electionTimer, [d])] ++
        (if (s.die d).sag then [(.sagRecovery, [d])] else []) ++ [(.waitForWalk, [d])]
    | .fenced => [])

/-- The cores that can issue a clause, the one whose clause has been ready longest first, so that no core keeps another
waiting. (DESIGN CHOICE, log 2) -/
def State.issueOrder (s : State) : List Nat :=
  (((s.teams.map (·.core)).eraseDups.filterMap (fun c => (s.bestGroup c).map (fun g => (g.readySince.getD s.now, c)))).foldl
    (fun l x => l.takeWhile (fun y => decide (y.1 ≤ x.1)) ++ x :: l.dropWhile (fun y => decide (y.1 ≤ x.1))) []).map (·.2)

/-- The engine steps that are tried, in order. (DESIGN CHOICE, log 2) -/
def State.events (s : State) : List (Instr × List Nat) :=
  s.opEvents ++ s.groupEvents ++ s.coreEvents ++ s.memoryEvents ++ s.moveEvents ++ s.commandEvents ++ s.queueEvents ++
    s.dieEvents ++ s.linkEvents ++ s.issueOrder.map (fun c => (.clauseIssue, [c]))

/-- An engine acts on the objects named; a lane whose BTEST waits tries again afterwards. -/
def State.act (s : State) (i : Instr) (subj : List Nat) : Out :=
  exec i { s with subj := subj, lanes := s.lanes.map (fun l => { l with stalled := false }) }

/-- The first step of a list that can be taken: one that draws on no fresh free values has changed nothing (log 66).
(DESIGN CHOICE, log 2) -/
def State.firstAct (s : State) : List (Instr × List Nat) → Option State
  | [] => none
  | e :: rest => match s.act e.1 e.2 with
    | .next t => if t.freeCtr = s.freeCtr then s.firstAct rest else some t
    | _ => s.firstAct rest

/-! ### Clauses -/

/-- The clause in front goes on: its next instruction, or its end (R45, R105). -/
def State.runLane (s : State) : Out :=
  match s.lanes with
  | [] => .fault .noLane
  | l :: _ => if l.idx < l.words.length then exec (decodeWord (l.words.getD l.idx 0)) s else exec .clauseEnd s

/-- Bring the k-th clause to the front. -/
def State.toFront (s : State) (k : Nat) : Option State :=
  match s.lanes[k]? with
  | none => none
  | some l => some { s with lanes := l :: s.lanes.eraseIdx k }

/-- The first clause that does not wait in its lane. (DESIGN CHOICE, log 2) -/
def State.nextLane (s : State) : Option State :=
  match s.lanes.findIdx? (fun l => !l.stalled) with
  | none => none
  | some k => s.toFront k

/-- What every step ends with: what an operation wrote before a source of it was written too early (R101), parameter blocks and
copy entries changed too early (R319, R354), and each group's ready time (R114). -/
def State.finish (s : State) : State := s.spoilWritten.checkBlocks.spoilCopies.refreshReady

/-- A next state with all of that. -/
def settled (o : Out) : Out :=
  match o with
  | .next t => .next t.finish
  | o => o

/-- A step without a schedule: a clause that starts lets 1 ns pass, so that a group that spins holds up nobody else.
(DESIGN CHOICE, log 2) -/
def State.autoStep (s : State) : Out :=
  match s.nextLane with
  | some t => t.runLane
  | none => match s.firstAct s.events with
    | some t => .next (if s.lanes.length < t.lanes.length then t.tick 1 else t)
    | none => .next (s.tick 1)

/-- A step that the schedule names: an engine's, a clause's, or the passing of time. A choice that names no clause in
execution, or an instruction word, which acts only in a clause, does nothing. (DESIGN CHOICE, log 2) -/
def State.choose (s : State) : Choice → Out
  | .event i subj => if i.isWord then .next s else s.act i subj
  | .lane k => match s.toFront k with
    | some t => t.runLane
    | none => .next s
  | .tick n => .next (s.tick n)

end Sys2Proof.Machine
end

