-- ==== Sys2Proof/Machine/Step.lean ====
section
/-!
DEFINITION. Step.lean: one step of the machine, and the placing of one instruction where the next step runs it.
-/
namespace Sys2Proof.Machine

/-- One step of the panel: the choice at the head of the schedule, else what acts next by itself (log 2). -/
def step (s : State) : Host.Outcome State Fault Refusal :=
  match s.sched with
  | c :: rest => settled (({ s with sched := rest } : State).choose c)
  | [] => settled s.autoStep

/-- The word is the only instruction of a clause in execution, all 32 threads issuing, on core 0 of a team with every
resource a core can reserve (log 11). -/
def State.withFetchWord (s : State) (_nbits w : Nat) : State :=
  let x : Launch := { num := 1, queue := 1, cores := [0], counts := [0], gangArr := [[]], phase := .placed, block := List.replicate 16 0 }
  let t : Team :=
    { launch := 1, idx := 0, core := 0, ngrp := 1, t := 511, budget := [511, 0, 0, 0], held := [32, 0, 0, 0], nloc := 2048
      ntile := 32, nring := 8, nmeta := 8, tiles := List.replicate 32 {}, rings := List.replicate 8 {} }
  let g : Group := { launch := 1, team := 0, gnum := 0, thr := List.replicate 32 { pc := 0 }, nblk := 32 }
  let l : Lane :=
    { core := 0, launch := 1, team := 0, gnum := 0, claddr := 0, words := [BitVec.ofNat 32 w], lits := List.replicate 7 0
      issuing := BitVec.allOnes 32 }
  { s with
    launches := [x], teams := [t], groups := [g], lanes := [l], sched := [] }

end Sys2Proof.Machine
end

