-- ==== Sys2Proof/Safety.lean ====
section
/-!
DEFINITION. Safety.lean: what claims about the machine are stated in: that it goes on, the canonical form of memory, and
what an instruction leaves unchanged.
-/
namespace Sys2Proof.Machine

/-- The machine went on to a next state. -/
def goesOn (o : Out) : Bool :=
  match o with
  | .next _ => true
  | _ => false

/-- The canonical form of memory: addresses strictly rising, and no byte equal to what an unlisted address reads as. -/
def Memory.wf (m : Cells Byte) : Bool := Cells.wf 0 m

/-! ### Values -/

/-- The signed value of the low w bits. -/
def sInt (w : Bool) (x : DWord) : Int := if w then x.toInt else (x.setWidth 32).toInt

/-- The unsigned value of the low w bits. -/
def uNat (w : Bool) (x : DWord) : Nat := if w then x.toNat else x.toNat % 2 ^ 32

/-- An operand width in bits. -/
def bitsOf (w : Bool) : Nat := if w then 64 else 32

/-- The registers of an exact integer, modulo 2^w. -/
def exactly (w : Bool) (z : Int) : List Word := words w (BitVec.ofInt 64 z)

/-- 1 where a condition holds, else 0. -/
def oneIf (p : Prop) [Decidable p] : List Word := [if p then 1 else 0]

/-- Position and effective length of the field that a field specifier names (R138). -/
def fieldPos (spec : Word) : Nat := spec.toNat % 256
def fieldWidth (w : Bool) (spec : Word) : Nat :=
  if bitsOf w ≤ fieldPos spec then 0 else min (spec.toNat / 256 % 256) (bitsOf w - fieldPos spec)

/-- The low n bits of x, sign-extended from bit n-1; 0 where n is 0. -/
def signedField (n x : Nat) : Int :=
  if n = 0 then 0 else if x % 2 ^ n < 2 ^ (n - 1) then (x % 2 ^ n : Nat) else (x % 2 ^ n : Nat) - (2 ^ n : Nat)

/-- `old` with its n bits from position pos replaced by the low n bits of x. -/
def replaceField (pos n old x : Nat) : Int :=
  ((old : Int) - (old / 2 ^ pos % 2 ^ n * 2 ^ pos : Nat)) + (x % 2 ^ n * 2 ^ pos : Nat)

/-- A byte by selector nibble: bits [2:0] choose it, bit 3 takes its sign instead (R139). -/
def selectByte (bs : List Byte) (q : Nat) : Byte :=
  let b := bs.getD (q % 8) 0
  if q < 8 then b else if b.toNat < 128 then 0 else 0xFF

/-- The class of a floating-point value: the bit of the table of R86. -/
def classBit (f : Fmt) (x : Nat) : Nat :=
  let neg := decide (2 ^ (f.width - 1) ≤ x)
  match f.decode x with
  | .nan => if x.testBit (f.mbits - 1) then 9 else 8
  | .inf _ => if neg then 0 else 7
  | .fin _ m _ =>
    if m = 0 then (if neg then 3 else 4)
    else if m < 2 ^ f.mbits then (if neg then 2 else 5)
    else if neg then 1 else 6

/-- A comparison by type: what `p` makes of 'either operand is NaN', 'A ≤ B' and 'B ≤ A' (R85). -/
def ordered (t : BitVec 2) (e : Thr) (a b : BitVec 7) (p : Bool → Bool → Bool → Bool) : Bool :=
  let on := fun (f : Fmt) (x y : Nat) =>
    p ((f.decode x).isNan || (f.decode y).isNan) ((f.decode x).le (f.decode y)) ((f.decode y).le (f.decode x))
  if t = 0 then on .f64 (e.v64 a).toNat (e.y.v64 b).toNat else on .f32 (e.v32 a).toNat (e.y.v32 b).toNat

/-- A word whose element p of k bits is replaced (R73). -/
def putElement (k p : Nat) (x : Word) (c : Nat) : Word := BitVec.ofInt 32 (replaceField (k * p) k x.toNat c)

/-- Block j of level k of the tree of R93, absent where no thread of it issues. -/
def blockOf (f : DWord → DWord → DWord) (leaves : List (Option DWord)) : Nat → Nat → Option DWord
  | 0, j => leaves.getD j none
  | k + 1, j => joinNodes f (blockOf f leaves k (2 * j)) (blockOf f leaves k (2 * j + 1))

/-- The first n positions, as the blocks that the binary digits of n give, combined left to right (R94). -/
def prefixOf (f : DWord → DWord → DWord) (leaves : List (Option DWord)) (n : Nat) : Option DWord :=
  [5, 4, 3, 2, 1, 0].foldl (fun acc k =>
    if n / 2 ^ k % 2 = 1 then joinNodes f acc (blockOf f leaves k (n / 2 ^ k - 1)) else acc) none

/-! ### Frames -/

/-- The machine without the clauses in execution, the groups, their operations in flight, and the draw of free values. -/
def State.rest (s : State) : State := { s with lanes := [], groups := [], ops := [], contribs := [], cores := [], freeCtr := 0 }

/-- A group without its registers, where it is the one named. -/
def Group.butRegs (L T G : Nat) (g : Group) : Group :=
  if g.launch == L && g.team == T && g.gnum == G then { g with regs := [] } else g

/-- A group without its registers and without the bytes that its stores in flight carry, where it is the one named. -/
def Group.butStores (L T G : Nat) (g : Group) : Group :=
  if g.launch == L && g.team == T && g.gnum == G then { g with regs := [], sq := [], stream := [] } else g

/-- A long-latency operation of the lane's group still reads register r of thread t (R101). -/
def State.stillRead (s : State) (l : Lane) (r t : Nat) : Bool :=
  s.ops.any (fun o => o.launch == l.launch && o.team == l.team && o.gnum == l.gnum && o.reads r t)

/-- Register r of thread t of a group, as it stands. -/
def Group.at_ (g : Group) (r t : Nat) : Word := Cells.get 0 g.regs (32 * r + t)

/-- The lane after the instruction at its index. -/
def Lane.after (l : Lane) : Lane :=
  { l with idx := l.idx + 1, llSeen := l.llSeen + if (decodeWord (l.words.getD l.idx 0)).isLL then 1 else 0 }

/-- What register r holds once the words `vs` are written from field d on: none where it is not written; `zr` as d
discards them (R36). -/
def fieldVal (g : Group) (d : BitVec 7) (vs : List Word) (r : Nat) : Option Word :=
  if d.toNat < 112 ∧ 16 * g.wb + d.toNat ≤ r ∧ r < 16 * g.wb + d.toNat + vs.length then
    some (vs.getD (r - (16 * g.wb + d.toNat)) 0)
  else none

/-- From s to t the clause in front, of group g, has become `now`; in each thread of Issuing() the registers for which
`new` gives a value hold it; every other register of the group is as it was, and everything else of the machine too. Only
where a register written is still to be read by an earlier long-latency operation may that operation's own bytes differ
(R101). -/
def WritesOnly (s t : State) (now l : Lane) (ls : List Lane) (g : Group) (new : Nat → Nat → Option Word) : Prop :=
  t.rest = s.rest ∧
  t.lanes = now :: ls ∧
  (∃ g', t.laneGroup? l = some g' ∧ ∀ r th, th < 32 →
    g'.at_ r th = if l.issuing.getLsbD th then (new r th).getD (g.at_ r th) else g.at_ r th) ∧
  t.groups.map (Group.butStores l.launch l.team l.gnum) = s.groups.map (Group.butStores l.launch l.team l.gnum) ∧
  ((∀ r th, l.issuing.getLsbD th = true → (new r th).isSome = true → s.stillRead l r th = false) →
    t.ops = s.ops ∧ t.contribs = s.contribs ∧ t.cores = s.cores ∧
    t.groups.map (Group.butRegs l.launch l.team l.gnum) = s.groups.map (Group.butRegs l.launch l.team l.gnum))

/-- One thread's view for an instruction of the clause in front: thread th, or with U the lowest-numbered issuing
thread (R8). -/
def viewOf (s : State) (l : Lane) (g : Group) (u : Bool) (th : Nat) : Thr :=
  { s := s, l := l, g := g, t := if u then l.lowest else th }

/-- The clause in front is `l`, of group `g`, and steps 1 to 5 of R45 find nothing against `i` as its next instruction. -/
def Runs (i : Instr) (s : State) (l : Lane) (ls : List Lane) (g : Group) : Prop :=
  s.lanes = l :: ls ∧ s.laneGroup? l = some g ∧ checkWord i s l g = none

/-- `i` completes wherever steps 1 to 5 of R45 find nothing against it, and writes `f` of each issuing thread's own
sources, or with U that of the lowest-numbered issuing thread, to the registers from field d on; it changes nothing else. -/
def Computes (i : Instr) (u : Bool) (d : BitVec 7) (f : Thr → List Word) : Prop :=
  ∀ s l ls g, Runs i s l ls g →
    ∃ t, exec i s = .next t ∧ WritesOnly s t l.after l ls g (fun r th => fieldVal g d (f (viewOf s l g u th)) r)

/-- `i` completes wherever steps 1 to 5 of R45 find nothing against it: the clause becomes `f` of itself and goes on; it
changes nothing else. -/
def OnlyLane (i : Instr) (f : State → Lane → Group → Lane) : Prop :=
  ∀ s l ls g, Runs i s l ls g →
    exec i s = .next { s with lanes := f s l g :: ls, freeCtr := s.freeCtr + 1 }

/-- What an instruction fault does (R45, R131, R164, R165): the clause stops; its record goes to the die of its core; the
group halts with its registers, PCs and thread states as they are, and the increments owed by this instruction and later
ones are withdrawn; nothing else changes, but that a team halting for pre-emption may start to drain. -/
def Raised (s t : State) (l : Lane) (ls : List Lane) (g : Group) (x : Trap) : Prop :=
  t.lanes = ls ∧
  t.dies = (s.handRecord (dieOfCore l.core)
    { code := x.code, cls := Cls.instr, launch := l.launch, team := l.team, gnum := l.gnum
      slot := ((s.team? l.launch l.team).map (·.slot)).getD 0, issuing := l.issuing, index := l.idx, claddr := l.claddr
      addr := x.addr, thread := x.thread, gtag := g.gtag, detail := l.words.getD l.idx 0, core := l.core
      time := s.timeOf (dieOfCore l.core), ptrap := l.pending.1, parg := l.pending.2 }).dies ∧
  (∃ g', t.laneGroup? l = some g' ∧
    { g' with halt := g.halt, readySince := g.readySince, fcnt := g.fcnt } = g ∧
    g'.halt = .faulted ∧ g'.readySince = none ∧
    ∀ f, g'.fcnt.getD f 0 = g.fcnt.getD f 0 - l.owedFlags.count f) ∧
  t.mem = s.mem ∧ t.ops = s.ops ∧ t.cores = s.cores ∧ t.launches = s.launches ∧ t.ranges = s.ranges ∧
  ((∀ h ∈ s.teams, h.ctx ≠ .halting) → t.teams = s.teams)

/-! ### Starting long-latency operations -/

/-- The machine without what starting an operation on global memory touches: the clauses, the operations and contributions
in flight, the store queues, the cores' caches, the walker caches, map requests, fills, and the counters of identities and
free values. Memory, the rind, local stores, tiles, registers, flags, threads and launches are all in it. -/
def State.still (s : State) : State :=
  { s with
    lanes := [], ops := [], contribs := [], cores := [], mapReqs := [], fills := [], nextId := 0, freeCtr := 0
    dies := s.dies.map (fun d => { d with walker := [] })
    groups := s.groups.map (fun g => { g with sq := [] }) }

/-- An access as its instruction asks for it, whatever has become of it since. -/
def Access.asked (a : Access) : Access :=
  { id := 0, thread := a.thread, va := a.va, len := a.len, data := a.data, opnd := a.opnd, opnd2 := a.opnd2, sk := a.sk
    unpred := a.unpred, victim := a.victim }

/-- An operation as its instruction asks for it, whatever has become of its accesses and of its ordering since. -/
def Op.asked (o : Op) : Op := { o with accs := o.accs.map Access.asked, island := false, relDone := true, acqDone := true }

/-- The operation that the lane's instruction starts: the next identity, the lane's group with its window base and blocks,
its clause and word, the flag of its place in the clause (R19), the threads of Issuing(). -/
def opOf (s : State) (l : Lane) (u : Bool) (kind : OpKind) : Op :=
  { id := s.nextId, launch := l.launch, team := l.team, gnum := l.gnum, flag := l.flagNow, claddr := l.claddr
    wb := ((s.laneGroup? l).map (·.wb)).getD 0, nblk := ((s.laneGroup? l).map (·.nblk)).getD 0
    cidx := l.idx, word := l.words.getD l.idx 0, mask := l.issuing, uni := u, kind := kind, born := s.now }

/-- The instruction has started `o`: the clause goes on, `o` is in flight with the accesses it names, beside the operations
already in flight, and what `still` keeps is unchanged: every byte of memory, every register and every flag count. -/
def Started (s t : State) (l : Lane) (ls : List Lane) (o : Op) : Prop :=
  t.lanes = l.after :: ls ∧ t.still = s.still ∧ t.ops.map Op.asked = s.ops.map Op.asked ++ [o.asked]

/-! ### Operands and checks of memory instructions -/

/-- A thread's pair and its word at a source field. -/
def pairAt (s : State) (l : Lane) (g : Group) (a : BitVec 7) (th : Nat) : Nat := ((viewOf s l g false th).v64 a).toNat
def wordAt (s : State) (l : Lane) (g : Group) (a : BitVec 7) (th : Nat) : Nat := ((viewOf s l g false th).v32 a).toNat

/-- Its word at its second source field, and its word and pair at its third: where a register is read too early, an
instruction's operands need not agree (R2, R101). -/
def yWordAt (s : State) (l : Lane) (g : Group) (b : BitVec 7) (th : Nat) : Nat := ((viewOf s l g false th).y.v32 b).toNat
def zWordAt (s : State) (l : Lane) (g : Group) (d : BitVec 7) (th : Nat) : Nat := ((viewOf s l g false th).z.v32 d).toNat
def zPairAt (s : State) (l : Lane) (g : Group) (d : BitVec 7) (th : Nat) : Nat := ((viewOf s l g false th).z.v64 d).toNat

/-- Steps 3 to 5 of R211 find nothing against an access to a present page; one to a page not present is not checked
yet. -/
def Permitted (k : AccKind) (e : Thr) (va : Nat) (t : Tr) : Prop :=
  badPermission t k va = false ∧ badMode t k (dieOfCore e.l.core) = false ∧ (t.scratch = false → e.s.absentCode t.home = none)

/-- R211 finds nothing against n bytes at va, aligned to n. -/
def Accessible (k : AccKind) (n : Nat) (e : Thr) (va : Nat) : Prop :=
  va < 2 ^ 57 ∧ va % n = 0 ∧ ∀ t, e.present va = some t → Permitted k e va t

/-- R284 finds nothing against the n bytes from va: they end at 2^57 at most, and each present page among theirs permits
the access. -/
def Spans (k : AccKind) (n : Nat) (e : Thr) (va : Nat) : Prop :=
  va < 2 ^ 57 ∧ va + n ≤ 2 ^ 57 ∧ ∀ p ∈ e.pages va n, Permitted k e p.1 p.2

/-- The local address names a byte of the team's own local store or, with bit 19, of its partner's (R194). -/
def LocalByte (s : State) (l : Lane) (a : Nat) : Prop :=
  ∃ t, s.team? l.launch l.team = some t ∧ (s.localTarget t a 1).isSome = true

/-- The machine beyond one core's own business: without teams, groups, clauses, operations in flight, caches and logs of
cores, contributions in flight, the dies, matrix operations and copies, and the counters of identities and free values.
Memory is in it, with launches, accumulator ranges, the fabric and the command queues. -/
def State.beyond (s : State) : State :=
  { s with
    teams := [], groups := [], lanes := [], ops := [], contribs := [], cores := [], dies := [], mmas := [], copies := []
    nextId := 0, freeCtr := 0 }

/-- Nothing of the group's is under way that an access to its own local store would wait for: no earlier access, no
load, atomic or acquire not performed, no store queued, and no write on which the copy engine has still to act. -/
def LocalIdle (s : State) (l : Lane) (g : Group) (t : Team) : Prop :=
  s.team? l.launch l.team = some t ∧ g.stream = [] ∧ g.sq = [] ∧ t.ringWrites = [] ∧
    (∀ o ∈ s.ops, o.id < s.nextId ∧ o.ofGroup l.launch l.team l.gnum = false)

/-- Operations in flight have identities of their own, and no local-store entry loads for operation `i`. -/
def State.loadsApart (s : State) (i : Nat) : Prop :=
  (s.ops.map (·.id)).Nodup ∧ ∀ g ∈ s.groups, ∀ e ∈ g.stream, ∀ a, e.kind ≠ .load i a

/-- A load of one address is held on a page of its launch, on core `c`, which has no side-log entry; no other access is
held, or waits for room in a side log. -/
def HeldLoad (s : State) (c launch page size : Nat) (o : Op) (t : Team) (g : Group) (a : Access) (ty : Nat) : Prop :=
  s.op? o.id = some o ∧ o.kind = .load ty ∧ o.launch = launch ∧ o.accs = [a] ∧ a.st = .held ∧ a.onPage page size = true ∧
    s.team? o.launch o.team = some t ∧ t.core = c ∧ t.slot < 4 ∧ o.gnum < 64 ∧ s.group? o.launch o.team o.gnum = some g ∧
    g.halt = .none ∧ (s.core c).sideLog = [] ∧ s.loadsApart o.id ∧ ∀ p ∈ s.ops, p.id ≠ o.id → ∀ b ∈ p.accs, b.stuck = false

/-- In `t'` the access has been declined, its group is halted, and a NOT_MAPPED record of class DEFER with the code in
DETAIL waits at its die (R242). -/
def NotMappedAt (s t' : State) (o : Op) (t : Team) (g : Group) (a : Access) (code : Nat) : Prop :=
  (∃ o' a', t'.op? o.id = some o' ∧ o'.accs.find? (fun b => b.id == a.id) = some a' ∧ a'.st = .declined) ∧
  (∃ g', t'.group? g.launch g.team g.gnum = some g' ∧ g'.halt = .faulted) ∧
  (dieOfCore t.core < s.dies.length → ∃ r ∈ (t'.die (dieOfCore t.core)).faultWait, r.code = Code.notMapped ∧ r.cls = Cls.defer ∧
    r.launch = o.launch ∧ r.team = o.team ∧ r.gnum = o.gnum ∧ r.addr = a.va ∧ r.detail = BitVec.ofNat 32 code)

/-! ### The rind cache and memory -/

/-- The rind agrees with memory: each block of a die lies within one frame and no two blocks of a kind hold one byte; a
replica has no dirty grain; another block is of a frame homed on its die, outside die scratch and the mailbox window, and
its grains that are not dirty hold what memory holds. -/
def State.RindOk (s : State) : Prop :=
  ∀ (d : Nat) (x : Die), s.dies[d]? = some x →
    x.blocks.Pairwise (fun b c => b.replica = c.replica → b.frame = c.frame →
      (b.hi + 1) * b.grain ≤ c.lo * c.grain ∨ (c.hi + 1) * c.grain ≤ b.lo * b.grain) ∧
    ∀ b ∈ x.blocks, (b.grain = 32 ∨ b.grain = 128 ∨ b.grain = 512) ∧ b.lo ≤ b.hi ∧ b.hi < 4096 / b.grain ∧
      (b.replica = true → b.dirty = []) ∧
      (∀ e ∈ b.data, b.lo * b.grain ≤ e.1 ∧ e.1 < (b.hi + 1) * b.grain) ∧
      (b.replica = false → dieOfPa (b.frame * 4096) = d ∧ b.frame * 4096 < 2 ^ 60 ∧ s.inMailbox (b.frame * 4096) = false ∧
        (∀ g ∈ b.dirty, b.lo ≤ g ∧ g ≤ b.hi) ∧
        ∀ i, b.lo * b.grain ≤ i → i < (b.hi + 1) * b.grain → i / b.grain ∉ b.dirty →
          Cells.get 0 b.data i = Cells.get 0 s.mem (b.frame * 4096 + i))

end Sys2Proof.Machine
end

