-- ==== Sys2Proof/Certificates/Slice0/Obligations.lean ====
section
/-!
DEFINITION. Obligations.lean: the statements for the provers.
-/
open Sys2Proof Sys2Proof.Machine

/-- Every well-formed instruction word has an encoding, and the decoder reads that very instruction, operands and all,
from it. (02_encoding (R35 to R62)) -/
def Obligations.EncodeThenDecode : Prop :=
  ∀ i : Instr, i.wellFormed = true → ∃ w, encode i = some w ∧ decodeWord w = i

/-- For every 32-bit word, encoding the instruction the decoder reads from it gives the word back: the decoder drops no
bit, and no two words decode alike. (02_encoding (R35 to R62)) -/
def Obligations.DecodeThenEncode : Prop :=
  ∀ w : Word, encode (decodeWord w) = some w

/-- Words that the manual gives as worked encodings decode to the instruction and the operand fields it gives.
(05_group_instructions (R139), 02_encoding (R36 to R41)) -/
def Obligations.WorkedWords : Prop :=
  decodeWord 0x0C181801 = .iaddImm 6 6 3 false false ∧
  decodeWord 0x080830F4 = .ffma 4 2 6 false 1 0 ∧
  decodeWord 0x1029F857 = .sarImm 8 10 63 false true ∧
  decodeWord 0x020B2099 = .icmpLtBImm 1 2 100 false false ∧
  decodeWord 0x14006209 = .callImm 10 0 12 false ∧
  decodeWord 0x0828C279 = .atomIncw 4 10 false 3 0 false ∧
  decodeWord 0x01E02217 = .rquota 0 120 1 0 false

/-- IADD to MOV, POPC, CLZ, CTZ, BREV, ICMP and SEL write the exact result truncated to w bits (32 for ICMP, POPC, CLZ and
CTZ), signed operands read as two's complement. Each completes wherever steps 1 to 5 of R45 find nothing against it,
in every form (register, immediate, with and without U, zr as destination), and changes nothing but its destination
registers in the threads of Issuing(). (R136) -/
def Obligations.IntegerResults : Prop :=
  (∀ (d a b : BitVec 7) (u w : Bool), Computes (.iadd d a b u w) u d (fun e => exactly w (sInt w (e.vw w a) + sInt w (e.y.vw w b)))) ∧
  (∀ (d a i : BitVec 7) (u w : Bool), Computes (.iaddImm d a i u w) u d (fun e => exactly w (sInt w (e.vw w a) + sInt w (immS i)))) ∧
  (∀ (d a b : BitVec 7) (u w : Bool), Computes (.isub d a b u w) u d (fun e => exactly w (sInt w (e.vw w a) - sInt w (e.y.vw w b)))) ∧
  (∀ (d a i : BitVec 7) (u w : Bool), Computes (.isubImm d a i u w) u d (fun e => exactly w (sInt w (e.vw w a) - sInt w (immS i)))) ∧
  (∀ (d a b : BitVec 7) (u w : Bool), Computes (.imul d a b u w) u d (fun e => exactly w (sInt w (e.vw w a) * sInt w (e.y.vw w b)))) ∧
  (∀ (d a i : BitVec 7) (u w : Bool), Computes (.imulImm d a i u w) u d (fun e => exactly w (sInt w (e.vw w a) * sInt w (immS i)))) ∧
  (∀ (d a b : BitVec 7) (u w : Bool), Computes (.imulhI d a b u w) u d (fun e => exactly w (sInt w (e.vw w a) * sInt w (e.y.vw w b) / 2 ^ bitsOf w))) ∧
  (∀ (d a i : BitVec 7) (u : Bool), Computes (.imulhIImm d a i u) u d (fun e => exactly false (sInt false (e.vw false a) * i.toInt / 2 ^ 32))) ∧
  (∀ (d a b : BitVec 7) (u w : Bool), Computes (.imulhB d a b u w) u d (fun e => exactly w (uNat w (e.vw w a) * uNat w (e.y.vw w b) / 2 ^ bitsOf w : Nat))) ∧
  (∀ (d a i : BitVec 7) (u : Bool), Computes (.imulhBImm d a i u) u d (fun e => exactly false (uNat false (e.vw false a) * i.toNat / 2 ^ 32 : Nat))) ∧
  (∀ (d a b : BitVec 7) (u w : Bool), Computes (.imad d a b u w) u d (fun e => exactly w (sInt w (e.vw w a) * sInt w (e.y.vw w b) + sInt w (e.z.vw w d)))) ∧
  (∀ (d a i : BitVec 7) (u w : Bool), Computes (.imadImm d a i u w) u d (fun e => exactly w (sInt w (e.vw w a) * sInt w (immS i) + sInt w (e.z.vw w d)))) ∧
  (∀ (d a b : BitVec 7) (u : Bool), Computes (.imadwI d a b u) u d (fun e => exactly true ((e.v32 a).toInt * (e.y.v32 b).toInt + (e.z.v64 d).toInt))) ∧
  (∀ (d a i : BitVec 7) (u : Bool), Computes (.imadwIImm d a i u) u d (fun e => exactly true ((e.v32 a).toInt * i.toInt + (e.z.v64 d).toInt))) ∧
  (∀ (d a b : BitVec 7) (u : Bool), Computes (.imadwB d a b u) u d (fun e => exactly true ((e.v32 a).toNat * (e.y.v32 b).toNat + (e.z.v64 d).toNat : Nat))) ∧
  (∀ (d a i : BitVec 7) (u : Bool), Computes (.imadwBImm d a i u) u d (fun e => exactly true ((e.v32 a).toNat * i.toNat + (e.z.v64 d).toNat : Nat))) ∧
  (∀ (d a z : BitVec 7) (u w : Bool), Computes (.ineg d a z u w) u d (fun e => exactly w (- sInt w (e.vw w a)))) ∧
  (∀ (d a z : BitVec 7) (u w : Bool), Computes (.iabs d a z u w) u d (fun e => exactly w ((Int.natAbs (sInt w (e.vw w a)) : Nat)))) ∧
  (∀ (d a b : BitVec 7) (u w : Bool), Computes (.iminI d a b u w) u d (fun e => exactly w (min (sInt w (e.vw w a)) (sInt w (e.y.vw w b))))) ∧
  (∀ (d a i : BitVec 7) (u w : Bool), Computes (.iminIImm d a i u w) u d (fun e => exactly w (min (sInt w (e.vw w a)) (sInt w (immS i))))) ∧
  (∀ (d a b : BitVec 7) (u w : Bool), Computes (.iminB d a b u w) u d (fun e => exactly w (min (uNat w (e.vw w a)) (uNat w (e.y.vw w b)) : Nat))) ∧
  (∀ (d a i : BitVec 7) (u w : Bool), Computes (.iminBImm d a i u w) u d (fun e => exactly w (min (uNat w (e.vw w a)) (uNat w (immU i)) : Nat))) ∧
  (∀ (d a b : BitVec 7) (u w : Bool), Computes (.imaxI d a b u w) u d (fun e => exactly w (max (sInt w (e.vw w a)) (sInt w (e.y.vw w b))))) ∧
  (∀ (d a i : BitVec 7) (u w : Bool), Computes (.imaxIImm d a i u w) u d (fun e => exactly w (max (sInt w (e.vw w a)) (sInt w (immS i))))) ∧
  (∀ (d a b : BitVec 7) (u w : Bool), Computes (.imaxB d a b u w) u d (fun e => exactly w (max (uNat w (e.vw w a)) (uNat w (e.y.vw w b)) : Nat))) ∧
  (∀ (d a i : BitVec 7) (u w : Bool), Computes (.imaxBImm d a i u w) u d (fun e => exactly w (max (uNat w (e.vw w a)) (uNat w (immU i)) : Nat))) ∧
  (∀ (d a b : BitVec 7) (u w : Bool), Computes (.and d a b u w) u d (fun e => words w ((e.vw w a) &&& (e.y.vw w b)))) ∧
  (∀ (d a i : BitVec 7) (u w : Bool), Computes (.andImm d a i u w) u d (fun e => words w ((e.vw w a) &&& (immS i)))) ∧
  (∀ (d a b : BitVec 7) (u w : Bool), Computes (.or d a b u w) u d (fun e => words w ((e.vw w a) ||| (e.y.vw w b)))) ∧
  (∀ (d a i : BitVec 7) (u w : Bool), Computes (.orImm d a i u w) u d (fun e => words w ((e.vw w a) ||| (immS i)))) ∧
  (∀ (d a b : BitVec 7) (u w : Bool), Computes (.xor d a b u w) u d (fun e => words w ((e.vw w a) ^^^ (e.y.vw w b)))) ∧
  (∀ (d a i : BitVec 7) (u w : Bool), Computes (.xorImm d a i u w) u d (fun e => words w ((e.vw w a) ^^^ (immS i)))) ∧
  (∀ (d a b : BitVec 7) (u w : Bool), Computes (.andn d a b u w) u d (fun e => words w ((e.vw w a) &&& ~~~(e.y.vw w b)))) ∧
  (∀ (d a i : BitVec 7) (u w : Bool), Computes (.andnImm d a i u w) u d (fun e => words w ((e.vw w a) &&& ~~~(immS i)))) ∧
  (∀ (d a z : BitVec 7) (u w : Bool), Computes (.not d a z u w) u d (fun e => words w (~~~(e.vw w a)))) ∧
  (∀ (d a z : BitVec 7) (u w : Bool), Computes (.popc d a z u w) u d (fun e => [BitVec.ofNat 32 ((List.range (bitsOf w)).countP (fun k => (e.vw w a).getLsbD k))])) ∧
  (∀ (d a z : BitVec 7) (u w : Bool), Computes (.clz d a z u w) u d (fun e => [BitVec.ofNat 32 ((List.range (bitsOf w)).findIdx (fun k => (e.vw w a).getLsbD (bitsOf w - 1 - k)))])) ∧
  (∀ (d a z : BitVec 7) (u w : Bool), Computes (.ctz d a z u w) u d (fun e => [BitVec.ofNat 32 ((List.range (bitsOf w)).findIdx (fun k => (e.vw w a).getLsbD k))])) ∧
  (∀ (d a z : BitVec 7) (u w : Bool), Computes (.brev d a z u w) u d (fun e => words w ((BitVec.ofBoolListLE ((List.range (bitsOf w)).map (fun k => (e.vw w a).getLsbD (bitsOf w - 1 - k)))).setWidth 64))) ∧
  (∀ (d a z : BitVec 7) (u w : Bool), Computes (.mov d a z u w) u d (fun e => words w (e.vw w a))) ∧
  (∀ (d y i : BitVec 7) (u w : Bool), Computes (.movImm d y i u w) u d (fun _ => exactly w i.toInt)) ∧
  (∀ (d a b : BitVec 7) (u w : Bool), Computes (.icmpEq d a b u w) u d (fun e => oneIf (sInt w (e.vw w a) = sInt w (e.y.vw w b)))) ∧
  (∀ (d a i : BitVec 7) (u w : Bool), Computes (.icmpEqImm d a i u w) u d (fun e => oneIf (sInt w (e.vw w a) = sInt w (immS i)))) ∧
  (∀ (d a b : BitVec 7) (u w : Bool), Computes (.icmpNe d a b u w) u d (fun e => oneIf (sInt w (e.vw w a) ≠ sInt w (e.y.vw w b)))) ∧
  (∀ (d a i : BitVec 7) (u w : Bool), Computes (.icmpNeImm d a i u w) u d (fun e => oneIf (sInt w (e.vw w a) ≠ sInt w (immS i)))) ∧
  (∀ (d a b : BitVec 7) (u w : Bool), Computes (.icmpLtI d a b u w) u d (fun e => oneIf (sInt w (e.vw w a) < sInt w (e.y.vw w b)))) ∧
  (∀ (d a i : BitVec 7) (u w : Bool), Computes (.icmpLtIImm d a i u w) u d (fun e => oneIf (sInt w (e.vw w a) < sInt w (immS i)))) ∧
  (∀ (d a b : BitVec 7) (u w : Bool), Computes (.icmpLeI d a b u w) u d (fun e => oneIf (sInt w (e.vw w a) ≤ sInt w (e.y.vw w b)))) ∧
  (∀ (d a i : BitVec 7) (u w : Bool), Computes (.icmpLeIImm d a i u w) u d (fun e => oneIf (sInt w (e.vw w a) ≤ sInt w (immS i)))) ∧
  (∀ (d a b : BitVec 7) (u w : Bool), Computes (.icmpGtI d a b u w) u d (fun e => oneIf (sInt w (e.vw w a) > sInt w (e.y.vw w b)))) ∧
  (∀ (d a i : BitVec 7) (u w : Bool), Computes (.icmpGtIImm d a i u w) u d (fun e => oneIf (sInt w (e.vw w a) > sInt w (immS i)))) ∧
  (∀ (d a b : BitVec 7) (u w : Bool), Computes (.icmpGeI d a b u w) u d (fun e => oneIf (sInt w (e.vw w a) ≥ sInt w (e.y.vw w b)))) ∧
  (∀ (d a i : BitVec 7) (u w : Bool), Computes (.icmpGeIImm d a i u w) u d (fun e => oneIf (sInt w (e.vw w a) ≥ sInt w (immS i)))) ∧
  (∀ (d a b : BitVec 7) (u w : Bool), Computes (.icmpLtB d a b u w) u d (fun e => oneIf (uNat w (e.vw w a) < uNat w (e.y.vw w b)))) ∧
  (∀ (d a i : BitVec 7) (u w : Bool), Computes (.icmpLtBImm d a i u w) u d (fun e => oneIf (uNat w (e.vw w a) < uNat w (immU i)))) ∧
  (∀ (d a b : BitVec 7) (u w : Bool), Computes (.icmpLeB d a b u w) u d (fun e => oneIf (uNat w (e.vw w a) ≤ uNat w (e.y.vw w b)))) ∧
  (∀ (d a i : BitVec 7) (u w : Bool), Computes (.icmpLeBImm d a i u w) u d (fun e => oneIf (uNat w (e.vw w a) ≤ uNat w (immU i)))) ∧
  (∀ (d a b : BitVec 7) (u w : Bool), Computes (.icmpGtB d a b u w) u d (fun e => oneIf (uNat w (e.vw w a) > uNat w (e.y.vw w b)))) ∧
  (∀ (d a i : BitVec 7) (u w : Bool), Computes (.icmpGtBImm d a i u w) u d (fun e => oneIf (uNat w (e.vw w a) > uNat w (immU i)))) ∧
  (∀ (d a b : BitVec 7) (u w : Bool), Computes (.icmpGeB d a b u w) u d (fun e => oneIf (uNat w (e.vw w a) ≥ uNat w (e.y.vw w b)))) ∧
  (∀ (d a i : BitVec 7) (u w : Bool), Computes (.icmpGeBImm d a i u w) u d (fun e => oneIf (uNat w (e.vw w a) ≥ uNat w (immU i)))) ∧
  (∀ (d a b : BitVec 7) (u w : Bool), Computes (.sel d a b u w) u d (fun e => (if e.z.v32 d ≠ 0 then words w (e.vw w a) else words w (e.y.vw w b))))

/-- SHL, SHR and SAR by a count not below the width give 0, 0 and copies of the sign; ROL rotates by the count modulo the
width. Each completes wherever steps 1 to 5 of R45 find nothing against it, in every form (register, immediate, with
and without U, zr as destination), and changes nothing but its destination registers in the threads of Issuing().
(R137) -/
def Obligations.ShiftResults : Prop :=
  (∀ (d a b : BitVec 7) (u w : Bool), Computes (.shl d a b u w) u d (fun e => exactly w (if uNat w (e.y.vw w b) < bitsOf w then uNat w (e.vw w a) * 2 ^ uNat w (e.y.vw w b) else 0 : Nat))) ∧
  (∀ (d a i : BitVec 7) (u w : Bool), Computes (.shlImm d a i u w) u d (fun e => exactly w (if uNat w (immU i) < bitsOf w then uNat w (e.vw w a) * 2 ^ uNat w (immU i) else 0 : Nat))) ∧
  (∀ (d a b : BitVec 7) (u w : Bool), Computes (.shr d a b u w) u d (fun e => exactly w (if uNat w (e.y.vw w b) < bitsOf w then uNat w (e.vw w a) / 2 ^ uNat w (e.y.vw w b) else 0 : Nat))) ∧
  (∀ (d a i : BitVec 7) (u w : Bool), Computes (.shrImm d a i u w) u d (fun e => exactly w (if uNat w (immU i) < bitsOf w then uNat w (e.vw w a) / 2 ^ uNat w (immU i) else 0 : Nat))) ∧
  (∀ (d a b : BitVec 7) (u w : Bool), Computes (.sar d a b u w) u d (fun e => exactly w (if uNat w (e.y.vw w b) < bitsOf w then sInt w (e.vw w a) / 2 ^ uNat w (e.y.vw w b) else if sInt w (e.vw w a) < 0 then -1 else 0))) ∧
  (∀ (d a i : BitVec 7) (u w : Bool), Computes (.sarImm d a i u w) u d (fun e => exactly w (if uNat w (immU i) < bitsOf w then sInt w (e.vw w a) / 2 ^ uNat w (immU i) else if sInt w (e.vw w a) < 0 then -1 else 0))) ∧
  (∀ (d a b : BitVec 7) (u w : Bool), Computes (.rol d a b u w) u d (fun e => exactly w (uNat w (e.vw w a) * 2 ^ (uNat w (e.y.vw w b) % bitsOf w) + uNat w (e.vw w a) / 2 ^ (bitsOf w - uNat w (e.y.vw w b) % bitsOf w) : Nat))) ∧
  (∀ (d a i : BitVec 7) (u w : Bool), Computes (.rolImm d a i u w) u d (fun e => exactly w (uNat w (e.vw w a) * 2 ^ (uNat w (immU i) % bitsOf w) + uNat w (e.vw w a) / 2 ^ (bitsOf w - uNat w (immU i) % bitsOf w) : Nat)))

/-- BFX.b, BFX.i and BFI by the position and the effective length of the field specifier. Each completes wherever steps 1
to 5 of R45 find nothing against it, in every form (register, immediate, with and without U, zr as destination), and
changes nothing but its destination registers in the threads of Issuing(). (R138) -/
def Obligations.BitFieldResults : Prop :=
  (∀ (d a b : BitVec 7) (u w : Bool), Computes (.bfxB d a b u w) u d (fun e => exactly w (uNat w (e.vw w a) / 2 ^ fieldPos (e.y.v32 b) % 2 ^ fieldWidth w (e.y.v32 b) : Nat))) ∧
  (∀ (d a b : BitVec 7) (u w : Bool), Computes (.bfxI d a b u w) u d (fun e => exactly w (signedField (fieldWidth w (e.y.v32 b)) (uNat w (e.vw w a) / 2 ^ fieldPos (e.y.v32 b))))) ∧
  (∀ (d a b : BitVec 7) (u w : Bool), Computes (.bfi d a b u w) u d (fun e => exactly w (replaceField (fieldPos (e.y.v32 b)) (fieldWidth w (e.y.v32 b)) (uNat w (e.z.vw w d)) (uNat w (e.vw w a)))))

/-- Byte k of PRMT is the byte that nibble k of the old v[D] selects from a and b, or its sign spread over the byte. Each
completes wherever steps 1 to 5 of R45 find nothing against it, in every form (register, immediate, with and without
U, zr as destination), and changes nothing but its destination registers in the threads of Issuing().
(05_group_instructions (R139)) -/
def Obligations.PermuteBytes : Prop :=
  (∀ (d a b : BitVec 7) (u : Bool), Computes (.prmt d a b u) u d (fun e => [BitVec.ofNat 32 (numOf ((List.range 4).map (fun k => selectByte (bytesOf (e.v32 a).toNat 4 ++ bytesOf (e.y.v32 b).toNat 4) ((e.z.v32 d).toNat / 16 ^ k % 16))))]))

/-- FADD, FSUB, FMUL and FFMA round the exact sum, difference, product and product plus addend once in mode m, for every
element of the type; FDIV, FSQRT, FRCP.cr, FRSQ.cr and FSCALE write the quotient, root, reciprocals and scaled value
as the model's one rounding gives them. Each completes wherever steps 1 to 5 of R45 find nothing against it, in every
form (register, immediate, with and without U, zr as destination), and changes nothing but its destination registers
in the threads of Issuing(). (03_numbers (R77, R82), 05_group_instructions (R141)) -/
def Obligations.FloatArithmetic : Prop :=
  (∀ (d a b : BitVec 7) (u : Bool) (m t : BitVec 2), Computes (.fadd d a b u m t) u d (fun e => fun2 t (fun k x y => k.round (RMode.ofBits m) ((k.decode x).add (RMode.ofBits m) (k.decode y))) e a b)) ∧
  (∀ (d a b : BitVec 7) (u : Bool) (m t : BitVec 2), Computes (.fsub d a b u m t) u d (fun e => fun2 t (fun k x y => k.round (RMode.ofBits m) ((k.decode x).add (RMode.ofBits m) (k.decode y).neg)) e a b)) ∧
  (∀ (d a b : BitVec 7) (u : Bool) (m t : BitVec 2), Computes (.fmul d a b u m t) u d (fun e => fun2 t (fun k x y => k.round (RMode.ofBits m) ((k.decode x).mul (k.decode y))) e a b)) ∧
  (∀ (d a b : BitVec 7) (u : Bool) (m t : BitVec 2), Computes (.ffma d a b u m t) u d (fun e => fun3 t (fun k x y z => k.round (RMode.ofBits m) (((k.decode x).mul (k.decode y)).add (RMode.ofBits m) (k.decode z))) e a b d)) ∧
  (∀ (d a b : BitVec 7) (u : Bool) (m t : BitVec 2), Computes (.fdiv d a b u m t) u d (fun e => fun2 t (fun k x y => k.div (RMode.ofBits m) x y) e a b)) ∧
  (∀ (d a z : BitVec 7) (u : Bool) (m t : BitVec 2), Computes (.fsqrt d a z u m t) u d (fun e => fun1 t (fun k x => k.sqrt (RMode.ofBits m) x) e a)) ∧
  (∀ (d a z : BitVec 7) (u : Bool) (m t : BitVec 2), Computes (.frcpCr d a z u m t) u d (fun e => fun1 t (fun k x => k.rcp (RMode.ofBits m) x) e a)) ∧
  (∀ (d a z : BitVec 7) (u : Bool) (m t : BitVec 2), Computes (.frsqCr d a z u m t) u d (fun e => fun1 t (fun k x => k.rsq (RMode.ofBits m) x) e a)) ∧
  (∀ (d a b : BitVec 7) (u : Bool) (m t : BitVec 2), Computes (.fscale d a b u m t) u d (fun e => fun1 t (fun k x => match k.decode x with | .fin n p q => k.round (RMode.ofBits m) (.fin n p (q + (e.y.v32 b).toInt)) | v => k.round (RMode.ofBits m) v) e a))

/-- FMIN and FMAX give NaN where either operand is NaN; FMINN and FMAXN give the other operand where exactly one is; all
order -0 below +0. Each completes wherever steps 1 to 5 of R45 find nothing against it, in every form (register,
immediate, with and without U, zr as destination), and changes nothing but its destination registers in the threads of
Issuing(). (R84) -/
def Obligations.FloatMinMax : Prop :=
  (∀ (d a b : BitVec 7) (u : Bool) (t : BitVec 2), Computes (.fmin d a b u t) u d (fun e => fun2 t (fun k x y => if (k.decode x).isNan || (k.decode y).isNan then k.nan else if (k.decode x).below (k.decode y) then x else y) e a b)) ∧
  (∀ (d a b : BitVec 7) (u : Bool) (t : BitVec 2), Computes (.fmax d a b u t) u d (fun e => fun2 t (fun k x y => if (k.decode x).isNan || (k.decode y).isNan then k.nan else if (k.decode x).below (k.decode y) then y else x) e a b)) ∧
  (∀ (d a b : BitVec 7) (u : Bool) (t : BitVec 2), Computes (.fminn d a b u t) u d (fun e => fun2 t (fun k x y => if (k.decode x).isNan then (if (k.decode y).isNan then k.nan else y) else if (k.decode y).isNan then x else if (k.decode x).below (k.decode y) then x else y) e a b)) ∧
  (∀ (d a b : BitVec 7) (u : Bool) (t : BitVec 2), Computes (.fmaxn d a b u t) u d (fun e => fun2 t (fun k x y => if (k.decode x).isNan then (if (k.decode y).isNan then k.nan else y) else if (k.decode y).isNan then x else if (k.decode x).below (k.decode y) then y else x) e a b))

/-- The eight conditions of FCMP, with -0 equal to +0 and the column for NaN operands; FCLASS writes a mask whose only set
bit is that of the class of A. Each completes wherever steps 1 to 5 of R45 find nothing against it, in every form
(register, immediate, with and without U, zr as destination), and changes nothing but its destination registers in the
threads of Issuing(). (R85, R86) -/
def Obligations.FloatCompareAndClass : Prop :=
  (∀ (d a b : BitVec 7) (u : Bool) (t : BitVec 2), Computes (.fcmpEq d a b u t) u d (fun e => oneIf (ordered t e a b (fun nan le ge => !nan && le && ge) = true))) ∧
  (∀ (d a b : BitVec 7) (u : Bool) (t : BitVec 2), Computes (.fcmpLt d a b u t) u d (fun e => oneIf (ordered t e a b (fun nan le ge => !nan && !ge) = true))) ∧
  (∀ (d a b : BitVec 7) (u : Bool) (t : BitVec 2), Computes (.fcmpLe d a b u t) u d (fun e => oneIf (ordered t e a b (fun nan le ge => !nan && le) = true))) ∧
  (∀ (d a b : BitVec 7) (u : Bool) (t : BitVec 2), Computes (.fcmpUn d a b u t) u d (fun e => oneIf (ordered t e a b (fun nan le ge => nan) = true))) ∧
  (∀ (d a b : BitVec 7) (u : Bool) (t : BitVec 2), Computes (.fcmpNe d a b u t) u d (fun e => oneIf (ordered t e a b (fun nan le ge => nan || !(le && ge)) = true))) ∧
  (∀ (d a b : BitVec 7) (u : Bool) (t : BitVec 2), Computes (.fcmpGt d a b u t) u d (fun e => oneIf (ordered t e a b (fun nan le ge => !nan && !le) = true))) ∧
  (∀ (d a b : BitVec 7) (u : Bool) (t : BitVec 2), Computes (.fcmpGe d a b u t) u d (fun e => oneIf (ordered t e a b (fun nan le ge => !nan && ge) = true))) ∧
  (∀ (d a b : BitVec 7) (u : Bool) (t : BitVec 2), Computes (.fcmpOrd d a b u t) u d (fun e => oneIf (ordered t e a b (fun nan le ge => !nan) = true))) ∧
  (∀ (d a z : BitVec 7) (u : Bool) (t : BitVec 2), Computes (.fclass d a z u t) u d (fun e => [BitVec.ofNat 32 (2 ^ (if t = 0 then classBit .f64 (e.v64 a).toNat else classBit .f32 (e.v32 a).toNat))]))

/-- FNEG inverts and FABS clears the sign bit of each element, NaN included. FRND rounds a finite A to an integral value
in direction m and keeps its sign; an infinity stays and a NaN becomes the canonical one. FFREXP writes a fraction to
D and then an exponent to v[B], which stands where the two fields meet: for a finite nonzero A the exponent is one
more than that of its leading bit and the fraction is A divided by two to it; for zeros, infinities and NaN D receives
zero, infinity (with the sign) and the canonical NaN, and v[B] 0. Each completes wherever steps 1 to 5 of R45 find
nothing against it, in every form (register, immediate, with and without U, zr as destination), and changes nothing
but its destination registers in the threads of Issuing(). (03_numbers (R80, R87), 05_group_instructions (R141)) -/
def Obligations.SignsAndIntegralValues : Prop :=
  (∀ (d a z : BitVec 7) (u : Bool) (t : BitVec 2), Computes (.fneg d a z u t) u d (fun e => fun1 t (fun k x => (x + 2 ^ (k.width - 1)) % 2 ^ k.width) e a)) ∧
  (∀ (d a z : BitVec 7) (u : Bool) (t : BitVec 2), Computes (.fabs d a z u t) u d (fun e => fun1 t (fun k x => x % 2 ^ (k.width - 1)) e a)) ∧
  (∀ (d a z : BitVec 7) (u : Bool) (m t : BitVec 2), Computes (.frnd d a z u m t) u d (fun e => fun1 t (fun k x => match k.decode x with | .fin n p q => k.round .rz (.fin n (roundToInt (RMode.ofBits m) n p q) 0) | v => k.round .rz v) e a)) ∧
  (∀ (d a b : BitVec 7) (u : Bool) (t : BitVec 2) s l ls g, Runs (.ffrexp d a b u t) s l ls g →
    ∃ t', exec (.ffrexp d a b u t) s = .next t' ∧ WritesOnly s t' l.after l ls g (fun r th =>
      match fieldVal g b [BitVec.ofInt 32 (frexpOf t (viewOf s l g u th) a).2] r with
      | some x => some x
      | none => fieldVal g d (if t = 0 then pair (BitVec.ofNat 64 (frexpOf t (viewOf s l g u th) a).1)
          else [BitVec.ofNat 32 (frexpOf t (viewOf s l g u th) a).1]) r)) ∧
  (∀ f ∈ [Fmt.f32, Fmt.f64], ∀ a, match f.decode a with
    | .nan => f.frexp a = (f.nan, 0)
    | .inf n => f.frexp a = (f.signBit n + f.infBits, 0)
    | .fin n m e => if m = 0 then f.frexp a = (f.signBit n, 0) else
        (f.frexp a).2 = e + (Nat.log2 m : Int) + 1 ∧ (f.frexp a).1 = f.round .rne (.fin n m (-(Nat.log2 m : Int) - 1)))

/-- FEXP2, FLOG2, FSIN, FCOS and FTANH write to D what the model's function of that name gives for the operand (between
two values that bracket the exact one the choice is free, log 5); FRCP and FRSQ write the exact reciprocal and
reciprocal root rounded down or rounded up. Special cases: exp2 of infinities and zeros and of every integral operand;
log2 of zeros, of negatives, of +infinity and of every power of two; sin and cos of infinities and zeros; tanh of
infinities and zeros; NaN of NaN. Each completes wherever steps 1 to 5 of R45 find nothing against it, in every form
(register, immediate, with and without U, zr as destination), and changes nothing but its destination registers in the
threads of Issuing(). (03_numbers (R83)) -/
def Obligations.FaithfulFunctions : Prop :=
  (∀ (d a z : BitVec 7) (u : Bool), Computes (.fexp2 d a z u) u d (fun e => [BitVec.ofNat 32 (Machine.fexp2 (e.v32 a).toNat)])) ∧
  (∀ (d a z : BitVec 7) (u : Bool), Computes (.flog2 d a z u) u d (fun e => [BitVec.ofNat 32 (Machine.flog2 (e.v32 a).toNat)])) ∧
  (∀ (d a z : BitVec 7) (u : Bool), Computes (.fsin d a z u) u d (fun e => [BitVec.ofNat 32 (Machine.fsin (e.v32 a).toNat)])) ∧
  (∀ (d a z : BitVec 7) (u : Bool), Computes (.fcos d a z u) u d (fun e => [BitVec.ofNat 32 (Machine.fcos (e.v32 a).toNat)])) ∧
  (∀ (d a z : BitVec 7) (u : Bool), Computes (.ftanh d a z u) u d (fun e => [BitVec.ofNat 32 (Machine.ftanh (e.v32 a).toNat)])) ∧
  (∀ (d a z : BitVec 7) (u : Bool) (t : BitVec 2), Computes (.frcp d a z u t) u d (fun e => fun1 t Fmt.rcpFaithful e a)) ∧
  (∀ (d a z : BitVec 7) (u : Bool) (t : BitVec 2), Computes (.frsq d a z u t) u d (fun e => fun1 t Fmt.rsqFaithful e a)) ∧
  (∀ x, (Fmt.f32.decode x).isNan = true → fexp2 x = 0x7FC00000 ∧ flog2 x = 0x7FC00000 ∧ fsin x = 0x7FC00000 ∧ fcos x = 0x7FC00000 ∧
    ftanh x = 0x7FC00000 ∧ Fmt.f32.rcpFaithful x = 0x7FC00000 ∧ Fmt.f32.rsqFaithful x = 0x7FC00000) ∧
  fexp2 0xFF800000 = 0 ∧ fexp2 0x7F800000 = 0x7F800000 ∧ fexp2 0 = 0x3F800000 ∧ fexp2 0x80000000 = 0x3F800000 ∧
  flog2 0 = 0xFF800000 ∧ flog2 0x80000000 = 0xFF800000 ∧ flog2 0x7F800000 = 0x7F800000 ∧ flog2 0xBF800000 = 0x7FC00000 ∧
  fsin 0x7F800000 = 0x7FC00000 ∧ fsin 0xFF800000 = 0x7FC00000 ∧ fsin 0 = 0 ∧ fsin 0x80000000 = 0x80000000 ∧
  fcos 0x7F800000 = 0x7FC00000 ∧ fcos 0xFF800000 = 0x7FC00000 ∧ fcos 0 = 0x3F800000 ∧ fcos 0x80000000 = 0x3F800000 ∧
  (∀ (f : Fmt) (x : Nat), (f.rcpFaithful x = f.rcp .rd x ∨ f.rcpFaithful x = f.rcp .ru x) ∧
    (f.rsqFaithful x = f.rsq .rd x ∨ f.rsqFaithful x = f.rsq .ru x)) ∧
  (∀ (a : Nat) (n : Bool) (m : Nat) (e k : Int), Fmt.f32.decode a = .fin n m e → m ≠ 0 →
    (if n then -(m : Int) else m) * 2 ^ (e + 149).toNat = k * 2 ^ 149 → fexp2 a = Fmt.f32.round .rne (.fin false 1 k)) ∧
  (∀ (a m : Nat) (e : Int), Fmt.f32.decode a = .fin false (2 ^ m) e →
    flog2 a = Fmt.f32.round .rne (.fin (decide (e + m < 0)) (e + m).natAbs 0)) ∧
  (∀ (a m : Nat) (e : Int), Fmt.f32.decode a = .fin true m e → m ≠ 0 → flog2 a = 0x7FC00000) ∧
  ftanh 0x7F800000 = 0x3F800000 ∧ ftanh 0xFF800000 = 0xBF800000 ∧ ftanh 0 = 0 ∧ ftanh 0x80000000 = 0x80000000

/-- CVT writes the conversion of its typed source; CVTPK replaces element p of D and keeps the other bits; CVTUPK widens
element p; CVTSC.mul rounds A times two to the scale once, NaN for scale 0xFF; CVTSC.exp writes the scale code. Each
completes wherever steps 1 to 5 of R45 find nothing against it, in every form (register, immediate, with and without
U, zr as destination), and changes nothing but its destination registers in the threads of Issuing(). (03_numbers
(R88, R89, R92), 05_group_instructions (R142 to R144)) -/
def Obligations.Conversions : Prop :=
  (∀ (d a : BitVec 7) (q : Bool) (m : BitVec 2) (f : BitVec 4) (u : Bool) (t : BitVec 4), Computes (.cvt d a q m f u t) u d (fun e => typedWords t (cvtBits f t (RMode.ofBits m) q (e.typed f a)))) ∧
  (∀ (d a : BitVec 7) (p : BitVec 4) (q : Bool) (m : BitVec 2) (u : Bool) (n : BitVec 4), Computes (.cvtpk d a p q m u n) u d (fun e => [putElement (narrowWidth n) p.toNat (e.z.v32 d) (packElt n (RMode.ofBits m) q (e.v32 a))])) ∧
  (∀ (d a : BitVec 7) (p : BitVec 4) (u : Bool) (n : BitVec 4), Computes (.cvtupk d a p u n) u d (fun e => [unpackElt n ((e.v32 a).toNat / 2 ^ (narrowWidth n * p.toNat) % 2 ^ narrowWidth n)])) ∧
  (∀ (d a b : BitVec 7) (u : Bool), Computes (.cvtscMul d a b u) u d (fun e => [BitVec.ofNat 32 (Fmt.f32.round .rne ((Fmt.f32.decode (e.v32 a).toNat).mul (if (e.y.v32 b).toNat % 256 = 255 then .nan else .fin false 1 (((e.y.v32 b).toNat % 256 : Nat) - 127))))])) ∧
  (∀ (d a : BitVec 7) (n : BitVec 4) (u : Bool), Computes (.cvtscExp d a n u) u d (fun e => [BitVec.ofNat 32 (scaleExp n (e.v32 a))]))

/-- SHFL.idx, .up, .down and .xor write v[A] of the source thread that the selector and the form give, whether or not that
thread issues. VOTE.any, VOTE.all and VOTE.ballot judge the issuing threads by whether v[A] is nonzero; ELECT writes 1
to the lowest-numbered issuing thread and 0 to the others. Each completes wherever steps 1 to 5 of R45 find nothing
against it, in every form (register, immediate, with and without U, zr as destination), and changes nothing but its
destination registers in the threads of Issuing(). (R145, R146) -/
def Obligations.ShuffleAndVoteResults : Prop :=
  (∀ (d a b : BitVec 7), Computes (.shflIdx d a b) false d (fun e => [({ e with t := (e.y.v32 b).toNat % 32 } : Thr).v32 a])) ∧
  (∀ (d a b : BitVec 7), Computes (.shflUp d a b) false d (fun e => [({ e with t := if (e.y.v32 b).toNat ≤ e.t then e.t - (e.y.v32 b).toNat else e.t } : Thr).v32 a])) ∧
  (∀ (d a b : BitVec 7), Computes (.shflDown d a b) false d (fun e => [({ e with t := if e.t + (e.y.v32 b).toNat ≤ 31 then e.t + (e.y.v32 b).toNat else e.t } : Thr).v32 a])) ∧
  (∀ (d a b : BitVec 7), Computes (.shflXor d a b) false d (fun e => [({ e with t := e.t ^^^ ((e.y.v32 b).toNat % 32) } : Thr).v32 a])) ∧
  (∀ (d a z : BitVec 7), Computes (.voteAny d a z) false d (fun e => oneIf ((threadsOf e.l.issuing).any (fun th => decide (({ e with t := th } : Thr).v32 a ≠ 0)) = true))) ∧
  (∀ (d a z : BitVec 7), Computes (.voteAll d a z) false d (fun e => oneIf ((threadsOf e.l.issuing).all (fun th => decide (({ e with t := th } : Thr).v32 a ≠ 0)) = true))) ∧
  (∀ (d a z : BitVec 7), Computes (.voteBallot d a z) false d (fun e => [maskOf ((threadsOf e.l.issuing).filter (fun th => decide (({ e with t := th } : Thr).v32 a ≠ 0)))])) ∧
  (∀ (d y z : BitVec 7), Computes (.elect d y z) false d (fun e => oneIf ((threadsOf e.l.issuing).head? = some e.t)))

/-- REDG writes the root of the tree over the 32 positions to every issuing thread; SCANG.incl combines the blocks that
the binary digits of i + 1 give, left to right; SCANG.excl is the inclusive result of the highest issuing thread
below, or the identity. Each completes wherever steps 1 to 5 of R45 find nothing against it, in every form (register,
immediate, with and without U, zr as destination), and changes nothing but its destination registers in the threads of
Issuing(). (03_numbers (R93, R94), 05_group_instructions (R147)) -/
def Obligations.ReduceAndScan : Prop :=
  (∀ (d a : BitVec 7) (o : BitVec 3) (t : BitVec 4), Computes (.redg d a o t) false d (fun e => typedWords t ((blockOf (crossOp o t) (crossLeaves e t a) 5 0).getD 0))) ∧
  (∀ (d a : BitVec 7) (o : BitVec 3) (t : BitVec 4), Computes (.scangIncl d a o t) false d (fun e => typedWords t ((prefixOf (crossOp o t) (crossLeaves e t a) (e.t + 1)).getD 0))) ∧
  (∀ (d a : BitVec 7) (o : BitVec 3) (t : BitVec 4), Computes (.scangExcl d a o t) false d (fun e => typedWords t (match ((threadsOf e.l.issuing).filter (fun j => decide (j < e.t))).getLast? with | none => crossId o t | some j => (prefixOf (crossOp o t) (crossLeaves e t a) (j + 1)).getD 0)))

/-- In every format and every mode, a finite value that the format represents rounds to its own bits. Where rounding a
finite value toward zero does not overflow, the magnitude is at most the exact one, and the next magnitude, if finite,
is above it. inf - inf, 0 times inf (in FFMA whatever the addend), 0/0, inf/inf and the square root of a value below
-0 give the canonical NaN. (03_numbers (R71, R72, R77, R78, R80, R82)) -/
def Obligations.RoundingRules : Prop :=
  (∀ (f : Fmt) (mode : RMode) (x : Nat) (n : Bool) (m : Nat) (e : Int), x < 2 ^ f.width → f.decode x = .fin n m e →
    f.round mode (.fin n m e) = x) ∧
  (∀ (f : Fmt) (neg : Bool) (m : Nat) (e : Int) (s : Bool) (mag : Nat), f.roundMag .rz neg m e false = .bits s mag →
    s = neg ∧ mag ≤ f.maxBits ∧
    (∃ p q, f.decode mag = .fin false p q ∧ leScaled p q m e = true) ∧
    (mag < f.maxBits → ∃ p q, f.decode (mag + 1) = .fin false p q ∧ leScaled p q m e = false)) ∧
  (∀ (f : Fmt) (mode : RMode) (x y : Nat),
    (∀ n, f.decode x = .inf n → f.decode y = .inf (!n) → f.add mode x y = f.nan) ∧
    (∀ n, f.decode x = .inf n → f.decode y = .inf n → f.sub mode x y = f.nan ∧ f.div mode x y = f.nan) ∧
    (∀ n k e, f.decode x = .fin n 0 e → f.decode y = .inf k → f.mul mode x y = f.nan ∧ f.mul mode y x = f.nan ∧
      ∀ z, f.fma mode x y z = f.nan ∧ f.fma mode y x z = f.nan) ∧
    (∀ n k e e', f.decode x = .fin n 0 e → f.decode y = .fin k 0 e' → f.div mode x y = f.nan) ∧
    (∀ m e, f.decode x = .fin true (m + 1) e → f.sqrt mode x = f.nan ∧ f.rsq mode x = f.nan))

/-- With no choice scheduled and a clause in front that does not wait in its lane and has words left, a step is exec of
the instruction decoded from the word at its index, followed by what every step ends with (State.finish: the bytes of
operations whose source was written early, and the ready times of the groups). (00_scope (R8), 02_encoding (R45),
04_group_execution (R101, R114)) -/
def Obligations.StepRunsWord : Prop :=
  ∀ (s : State) (l : Lane) (ls : List Lane), s.sched = [] → s.lanes = l :: ls → l.stalled = false → l.idx < l.words.length →
    step s = settled (exec (decodeWord (l.words.getD l.idx 0)) s)

/-- After its last word a clause ends (CLAUSE_END). A scheduled engine step is exec of that step on its objects; a
scheduled clause goes on; scheduled time passes; a choice that names an instruction word or no clause does nothing.
With no schedule and no clause that can go on, the first engine step that acts is taken (where it starts a clause, 1
ns passes); with none, 1 ns passes. Passing time moves on the time and the counter of the lease holder, sets no
running counter back, and leaves memory, clauses and teams. The schedule and the order of the engines are the model's
choice (log 2). (04_group_execution (R105), 05_group_instructions (R156)) -/
def Obligations.StepOtherwise : Prop :=
  (∀ (s : State) (l : Lane) (ls : List Lane), s.sched = [] → s.lanes = l :: ls → l.stalled = false → l.words.length ≤ l.idx →
    step s = settled (exec .clauseEnd s)) ∧
  (∀ (s : State) (i : Instr) (subj : List Nat) (rest : List Choice), s.sched = .event i subj :: rest → i.isWord = false →
    step s = settled (exec i { s with sched := rest, subj := subj, lanes := s.lanes.map (fun l => { l with stalled := false }) })) ∧
  (∀ (s : State) (i : Instr) (subj : List Nat) (rest : List Choice), s.sched = .event i subj :: rest → i.isWord = true →
    step s = settled (.next { s with sched := rest })) ∧
  (∀ (s : State) (k : Nat) (l : Lane) (rest : List Choice), s.sched = .lane k :: rest → s.lanes[k]? = some l → l.idx < l.words.length →
    step s = settled (exec (decodeWord (l.words.getD l.idx 0)) { s with sched := rest, lanes := l :: s.lanes.eraseIdx k })) ∧
  (∀ (s : State) (k : Nat) (rest : List Choice), s.sched = .lane k :: rest → s.lanes[k]? = none →
    step s = settled (.next { s with sched := rest })) ∧
  (∀ (s : State) (n : Nat) (rest : List Choice), s.sched = .tick n :: rest →
    step s = settled (.next (({ s with sched := rest } : State).tick n))) ∧
  (∀ (s : State) (n : Nat), (s.tick n).now = s.now + n ∧ (s.tick n).mem = s.mem ∧ (s.tick n).lanes = s.lanes ∧ (s.tick n).teams = s.teams ∧
    (∀ d, s.leader? = some d → d < s.dies.length → (s.tick n).timeOf d = s.timeOf d + n) ∧
    ∀ d, d < s.dies.length → s.timeOf d ≤ (s.tick n).timeOf d) ∧
  (∀ (s t : State), s.sched = [] → (∀ l ∈ s.lanes, l.stalled = true) → s.firstAct s.events = some t →
    step s = settled (.next (if s.lanes.length < t.lanes.length then t.tick 1 else t))) ∧
  (∀ (s : State), s.sched = [] → (∀ l ∈ s.lanes, l.stalled = true) → s.firstAct s.events = none →
    step s = settled (.next (s.tick 1)))

/-- Every die is in RESET with its time counter stopped at 0 and in lease state OUT; DIEMASK is clear; each bank-role
register has ROLE 0, ACCQ 3072 and AUSED 0; TOFF of the reading die is 0 and of every die clear in DIEMASK
0x8000000000000000; no launch, team, group, clause or queue exists; the attestation counter is 0. That a die is in OUT
before it joins and that unlisted memory reads 0 are the model's choices (logs 10 and 1). (05_group_instructions
(R156), 09_near_cache_engine (R255), 16_system (R429), 15_command_engine (R422)) -/
def Obligations.ResetState : Prop :=
  State.reset.dies.length = 60 ∧
  (∀ d < 60, (State.reset.die d).boot = .reset ∧ (State.reset.die d).counterOn = false ∧ State.reset.timeOf d = 0 ∧
    (State.reset.die d).lease.st = .out ∧ (State.reset.die d).incar = 0 ∧
    (∀ b < 32, ((State.reset.die d).brole.getD b { role := 9 }) = { role := 0, accq := 3072, aused := 0 }) ∧
    ∀ m < 60, (State.reset.die d).toff.getD m 1 = if m = d then 0 else 0x8000000000000000) ∧
  State.reset.dieMask = 0 ∧ State.reset.launches = [] ∧ State.reset.teams = [] ∧ State.reset.groups = [] ∧
  State.reset.lanes = [] ∧ State.reset.queues = [] ∧ State.reset.attest = 0 ∧ State.reset.mem = [] ∧ Memory.wf State.reset.mem = true

/-- In every state that a step leaves, from any state whatever, a group holds a ready time if and only if its next clause
is ready. (04_group_execution (R113, R114)) -/
def Obligations.ReadyTimesKept : Prop :=
  ∀ (s t : State), step s = .next t → ∀ g ∈ t.groups, g.readySince.isSome = t.ready g

/-- Bringing the ready times up to date keeps the ready time of a group that stays ready, gives now (with the clock count
of its die, from which its spin time is counted) to one that has become ready, and takes it from one that is not
ready; of the groups nothing else changes. (04_group_execution (R114)) -/
def Obligations.ReadyTimeIsWhenItBecameReady : Prop :=
  ∀ (s : State), s.refreshReady.groups = s.groups.map (fun g => { g with
      readySince := if s.ready g then some (g.readySince.getD s.now) else none
      readyClk := if s.ready g ∧ g.readySince = none then s.clkOf g else g.readyClk }) ∧
    { s.refreshReady with groups := s.groups } = s

/-- In every state RBACQ_GRANT has a next state, in which every group is as it was, or has got one block or more: then
each register of the granted blocks reads zero for every thread, those the group held before read as they did, its
request is over, and the rest of it is as before. (04_group_execution (R120, R121)) -/
def Obligations.GrantedRegistersReadZero : Prop :=
  ∀ (s : State), ∃ t', exec .rbacqGrant s = .next t' ∧ t'.groups.length = s.groups.length ∧
    ∀ (i : Nat) (g h : Group), s.groups[i]? = some g → t'.groups[i]? = some h → h = g ∨
      ∃ n, 0 < n ∧ h.nblk = g.nblk + n ∧ h.rbreq = 0 ∧ { h with regs := g.regs, nblk := g.nblk, rbreq := g.rbreq, emrg := g.emrg } = g ∧
        ∀ r th, th < 32 → h.at_ r th = if r < 16 * g.nblk then g.at_ r th else 0

/-- For every instruction word, and for a word of no instruction, a failed check of steps 1 to 5 takes the instruction
fault it names: the clause stops, the record goes to the die, the group halts with registers, PCs and thread states as
they are, the increments owed by this and later instructions are withdrawn, and nothing else changes.
(01_device_overview (R19), 02_encoding (R45, R47), 04_group_execution (R131), 06_traps_and_context (R165)) -/
def Obligations.FailedChecksRaise : Prop :=
  ∀ (i : Instr) (s : State) (l : Lane) (ls : List Lane) (g : Group) (x : Trap), i.isWord = true → s.lanes = l :: ls →
    s.laneGroup? l = some g → checkWord i s l g = some x → ∃ t, exec i s = .next t ∧ Raised s t l ls g x

/-- ILLOP for an unassigned OP, a rejected modifier or selector, or a misplaced clause-end instruction comes before ILLREG
for operand codes, and that before REGFAULT for the window. A single source accepts v0 to v111, zr, tix and the
clause's literals; a single destination v0 to v111 and zr; a pair starts at an even register, or is zr, tix as a
source, or an even literal whose successor is in the clause. (02_encoding (R36, R37, R38, R43, R45),
04_group_execution (R117)) -/
def Obligations.CheckOrder : Prop :=
  (∀ (i : Instr) (s : State) (l : Lane) (g : Group),
    let tiles := ((s.team? l.launch l.team).map Team.wideTiles).getD 0
    checkWord i s l g =
      if i.modOk = false ∨ (i.isClauseEnd = true ∧ l.idx + 1 ≠ l.words.length) then some { code := 0x0001, addr := 0, thread := l.lowest }
      else if ∃ o ∈ i.operands, illregOperand l.lits.length l.wide o = true then some { code := 0x0002, addr := 0, thread := l.lowest }
      else if ∃ o ∈ i.operands, regfaultOperand g tiles o = true then some { code := 0x0004, addr := 0, thread := l.lowest }
      else none) ∧
  (∀ (w : Word), (Instr.illop w).modOk = false) ∧
  (∀ (L : Nat) (c : BitVec 7),
    (srcBad L 1 c = false ↔ c.toNat ≤ 113 ∨ (120 ≤ c.toNat ∧ c.toNat ≤ 126 ∧ c.toNat - 120 < L)) ∧
    (dstBad 1 c = false ↔ c.toNat ≤ 112) ∧
    (srcBad L 2 c = false ↔ (c.toNat < 112 ∧ c.toNat % 2 = 0) ∨ c.toNat = 112 ∨ c.toNat = 113 ∨
      (120 ≤ c.toNat ∧ c.toNat ≤ 126 ∧ c.toNat % 2 = 0 ∧ c.toNat - 120 + 1 < L)) ∧
    (∀ n ∈ [2, 4, 8], dstBad n c = false ↔ (c.toNat < 112 ∧ c.toNat % n = 0) ∨ c.toNat = 112) ∧
    (∀ n ∈ [4, 8], srcBad L n c = false ↔ (c.toNat < 112 ∧ c.toNat % n = 0) ∨ c.toNat = 112)) ∧
  (∀ (g : Group) (n : Nat) (c : BitVec 7), beyond g n c = false ↔ (c.toNat < 112 → 16 * g.wb + c.toNat + n ≤ 16 * g.nblk))

/-- BRA, BRZ and BRNZ in both forms: a thread (with U every issuing thread, by the lowest) that takes the branch gets the
clause start plus 4 times the signed offset, modulo 2^57; one that does not goes to the next clause. Nothing but the
clause in front changes. (R148) -/
def Obligations.BranchTargets : Prop :=
  (∀ (x y b : BitVec 7) (u : Bool), OnlyLane (.bra x y b u) (fun s l g => { l.after with newPc := (threadsOf l.issuing).filterMap (fun th =>
      if True then some (th, ((l.claddr + 4 * ((viewOf s l g u th).v32 b).toInt) % 2 ^ 57).toNat) else none) })) ∧
  (∀ (x y i : BitVec 7) (u : Bool), OnlyLane (.braImm x y i u) (fun _ l _ => { l.after with newPc := (threadsOf l.issuing).filterMap (fun th =>
      if True then some (th, ((l.claddr + 4 * i.toInt) % 2 ^ 57).toNat) else none) })) ∧
  (∀ (x a b : BitVec 7) (u : Bool), OnlyLane (.brz x a b u) (fun s l g => { l.after with newPc := (threadsOf l.issuing).filterMap (fun th =>
      if (viewOf s l g u th).v32 a = 0 then some (th, ((l.claddr + 4 * ((viewOf s l g u th).y.v32 b).toInt) % 2 ^ 57).toNat) else none) })) ∧
  (∀ (x a i : BitVec 7) (u : Bool), OnlyLane (.brzImm x a i u) (fun s l g => { l.after with newPc := (threadsOf l.issuing).filterMap (fun th =>
      if (viewOf s l g u th).v32 a = 0 then some (th, ((l.claddr + 4 * i.toInt) % 2 ^ 57).toNat) else none) })) ∧
  (∀ (x a b : BitVec 7) (u : Bool), OnlyLane (.brnz x a b u) (fun s l g => { l.after with newPc := (threadsOf l.issuing).filterMap (fun th =>
      if (viewOf s l g u th).v32 a ≠ 0 then some (th, ((l.claddr + 4 * ((viewOf s l g u th).y.v32 b).toInt) % 2 ^ 57).toNat) else none) })) ∧
  (∀ (x a i : BitVec 7) (u : Bool), OnlyLane (.brnzImm x a i u) (fun s l g => { l.after with newPc := (threadsOf l.issuing).filterMap (fun th =>
      if (viewOf s l g u th).v32 a ≠ 0 then some (th, ((l.claddr + 4 * i.toInt) % 2 ^ 57).toNat) else none) }))

/-- JMPR, RET and CALLR go to the pair v[A] with bits [1:0] cleared, CALL to the clause start plus 4 times its offset
modulo 2^57; CALL and CALLR write the next-clause address to the pair D after the target is read, and change nothing
else. A target with bits [63:57] nonzero in a thread that the instruction executes for raises FETCH_FAULT, naming it.
(R149) -/
def Obligations.CallsAndJumps : Prop :=
  (∀ (x a z : BitVec 7) (u : Bool) s l ls g, Runs (.jmpr x a z u) s l ls g →
    ((∀ th ∈ l.execThreads u, ((viewOf s l g false th).v64 a).toNat < 2 ^ 57) →
      exec (.jmpr x a z u) s = .next { s with
        lanes := { l.after with newPc := (threadsOf l.issuing).map (fun th => (th, ((viewOf s l g u th).v64 a).toNat / 4 * 4)) } :: ls
        freeCtr := s.freeCtr + 1 }) ∧
    (∀ th, (l.execThreads u).find? (fun th => decide (2 ^ 57 ≤ ((viewOf s l g false th).v64 a).toNat)) = some th →
      ∃ t, exec (.jmpr x a z u) s = .next t ∧
        Raised s t l ls g { code := 0x0005, addr := ((viewOf s l g false th).v64 a).toNat, thread := th })) ∧
  (∀ (x a z : BitVec 7) (u : Bool) s l ls g, Runs (.ret x a z u) s l ls g →
    ((∀ th ∈ l.execThreads u, ((viewOf s l g false th).v64 a).toNat < 2 ^ 57) →
      exec (.ret x a z u) s = .next { s with
        lanes := { l.after with newPc := (threadsOf l.issuing).map (fun th => (th, ((viewOf s l g u th).v64 a).toNat / 4 * 4)) } :: ls
        freeCtr := s.freeCtr + 1 }) ∧
    (∀ th, (l.execThreads u).find? (fun th => decide (2 ^ 57 ≤ ((viewOf s l g false th).v64 a).toNat)) = some th →
      ∃ t, exec (.ret x a z u) s = .next t ∧
        Raised s t l ls g { code := 0x0005, addr := ((viewOf s l g false th).v64 a).toNat, thread := th })) ∧
  (∀ (d a z : BitVec 7) (u : Bool) s l ls g, Runs (.callr d a z u) s l ls g →
    ((∀ th ∈ l.execThreads u, ((viewOf s l g false th).v64 a).toNat < 2 ^ 57) →
      ∃ t, exec (.callr d a z u) s = .next t ∧ WritesOnly s t
        { l.after with newPc := (threadsOf l.issuing).map (fun th => (th, ((viewOf s l g u th).v64 a).toNat / 4 * 4)) } l ls g
        (fun r _ => fieldVal g d (pair (BitVec.ofNat 64 ((l.claddr + 4 * (1 + l.words.length + l.lits.length)) % 2 ^ 57))) r)) ∧
    (∀ th, (l.execThreads u).find? (fun th => decide (2 ^ 57 ≤ ((viewOf s l g false th).v64 a).toNat)) = some th →
      ∃ t, exec (.callr d a z u) s = .next t ∧
        Raised s t l ls g { code := 0x0005, addr := ((viewOf s l g false th).v64 a).toNat, thread := th })) ∧
  (∀ (d a z : BitVec 7) (u : Bool) s l ls g, Runs (.call d a z u) s l ls g →
    ∃ t, exec (.call d a z u) s = .next t ∧ WritesOnly s t
      { l.after with newPc := (threadsOf l.issuing).map (fun th =>
        (th, ((l.claddr + 4 * ((viewOf s l g u th).v32 a).toInt) % 2 ^ 57).toNat)) } l ls g
      (fun r _ => fieldVal g d (pair (BitVec.ofNat 64 ((l.claddr + 4 * (1 + l.words.length + l.lits.length)) % 2 ^ 57))) r)) ∧
  (∀ (d y i : BitVec 7) (u : Bool) s l ls g, Runs (.callImm d y i u) s l ls g →
    ∃ t, exec (.callImm d y i u) s = .next t ∧ WritesOnly s t
      { l.after with newPc := (threadsOf l.issuing).map (fun th => (th, ((l.claddr + 4 * i.toInt) % 2 ^ 57).toNat)) } l ls g
      (fun r _ => fieldVal g d (pair (BitVec.ofNat 64 ((l.claddr + 4 * (1 + l.words.length + l.lits.length)) % 2 ^ 57))) r))

/-- NOP has no effect; YIELD, WSYNC (with the mask v[A] of each issuing thread) and EXIT are noted for the end of the
clause; TRAP notes a pending USER_TRAP with its argument, and BKPT a pending BREAK where its bit of BKEN is set,
unless the clause holds a pending trap already. Nothing else changes. (05_group_instructions (R150, R161)) -/
def Obligations.ClauseEndsAndTraps : Prop :=
  (∀ (x y z : BitVec 7) (u : Bool), OnlyLane (.nop x y z u) (fun _ l _ => l.after)) ∧
  (∀ (x y z : BitVec 7), OnlyLane (.yield x y z) (fun _ l _ => { l.after with fin := some .yield })) ∧
  (∀ (x a z : BitVec 7), OnlyLane (.wsync x a z) (fun s l g => { l.after with
    fin := some .wsync, masks := (threadsOf l.issuing).map (fun th => (th, (viewOf s l g false th).v32 a)) })) ∧
  (∀ (x y z : BitVec 7), OnlyLane (.exit x y z) (fun _ l _ => { l.after with fin := some .exit })) ∧
  (∀ (x y i : BitVec 7) (u : Bool), OnlyLane (.trap x y i u) (fun _ l _ => { l.after with
    trap := match l.trap with | some p => some p | none => some (0x0007, i.toNat) })) ∧
  (∀ (x y i : BitVec 7) (u : Bool) s l ls g t, Runs (.bkpt x y i u) s l ls g → s.team? l.launch l.team = some t →
    exec (.bkpt x y i u) s = .next { s with freeCtr := s.freeCtr + 1, lanes := { l.after with
      trap := match l.trap with | some p => some p | none => if t.bken.getLsbD (i.toNat / 4) then some (0x0008, i.toNat) else none } :: ls })

/-- WBASE with an operand (of the lowest-numbered issuing thread) below the blocks held sets WB for the whole group; any
other operand raises REGFAULT and leaves WB unchanged. RBACQ notes its request for the end of the clause, or raises
REGFAULT where it could never be granted; RBREL removes the last blocks at once and keeps the registers that remain,
or raises REGFAULT where none or the window would not remain; RQUOTA moves budget between two roles of the team, or
raises REGFAULT for an undeclared role or more than the source role's budget, also where both roles are the same (the
model's reading, log 71). (04_group_execution (R118, R119, R120, R122, R124)) -/
def Obligations.WindowAndRegisterBlocks : Prop :=
  (∀ (x a z : BitVec 7) (u : Bool) s l ls g, Runs (.wbase x a z u) s l ls g →
    (((viewOf s l g false l.lowest).v32 a).toNat < g.nblk → exec (.wbase x a z u) s = .next { s.modGroup l.launch l.team l.gnum (fun g => { g with wb := ((viewOf s l g false l.lowest).v32 a).toNat }) with
      lanes := l.after :: ls, freeCtr := s.freeCtr + 1 }) ∧
    (g.nblk ≤ ((viewOf s l g false l.lowest).v32 a).toNat → ∃ t, exec (.wbase x a z u) s = .next t ∧ Raised s t l ls g { code := 0x0004, thread := l.lowest })) ∧
  (∀ (x y i : BitVec 7) (u : Bool) s l ls g, Runs (.wbaseImm x y i u) s l ls g →
    (i.toNat < g.nblk → exec (.wbaseImm x y i u) s = .next { s.modGroup l.launch l.team l.gnum (fun g => { g with wb := i.toNat }) with
      lanes := l.after :: ls, freeCtr := s.freeCtr + 1 }) ∧
    (g.nblk ≤ i.toNat → ∃ t, exec (.wbaseImm x y i u) s = .next t ∧ Raised s t l ls g { code := 0x0004, thread := l.lowest })) ∧
  (∀ (x a z : BitVec 7) (u : Bool) s l ls g t, Runs (.rbacq x a z u) s l ls g → s.team? l.launch l.team = some t →
    (((viewOf s l g false l.lowest).v32 a).toNat = 0 ∨ (g.nblk + ((viewOf s l g false l.lowest).v32 a).toNat ≤ 32 ∧ g.nblk + ((viewOf s l g false l.lowest).v32 a).toNat ≤ t.t) → exec (.rbacq x a z u) s = .next { s with
      lanes := { l.after with rbacq := ((viewOf s l g false l.lowest).v32 a).toNat } :: ls, freeCtr := s.freeCtr + 1 }) ∧
    (((viewOf s l g false l.lowest).v32 a).toNat ≠ 0 → (32 < g.nblk + ((viewOf s l g false l.lowest).v32 a).toNat ∨ t.t < g.nblk + ((viewOf s l g false l.lowest).v32 a).toNat) →
      ∃ t, exec (.rbacq x a z u) s = .next t ∧ Raised s t l ls g { code := 0x0004, thread := l.lowest })) ∧
  (∀ (x y i : BitVec 7) (u : Bool) s l ls g t, Runs (.rbacqImm x y i u) s l ls g → s.team? l.launch l.team = some t →
    (i.toNat = 0 ∨ (g.nblk + i.toNat ≤ 32 ∧ g.nblk + i.toNat ≤ t.t) → exec (.rbacqImm x y i u) s = .next { s with
      lanes := { l.after with rbacq := i.toNat } :: ls, freeCtr := s.freeCtr + 1 }) ∧
    (i.toNat ≠ 0 → (32 < g.nblk + i.toNat ∨ t.t < g.nblk + i.toNat) →
      ∃ t, exec (.rbacqImm x y i u) s = .next t ∧ Raised s t l ls g { code := 0x0004, thread := l.lowest })) ∧
  (∀ (x a z : BitVec 7) (u : Bool) s l ls g, Runs (.rbrel x a z u) s l ls g → g.exited = false →
    (((viewOf s l g false l.lowest).v32 a).toNat ≠ 0 → g.nblk ≤ ((viewOf s l g false l.lowest).v32 a).toNat ∨ g.nblk - ((viewOf s l g false l.lowest).v32 a).toNat ≤ g.wb → ∃ t, exec (.rbrel x a z u) s = .next t ∧ Raised s t l ls g { code := 0x0004, thread := l.lowest }) ∧
    (((viewOf s l g false l.lowest).v32 a).toNat = 0 → exec (.rbrel x a z u) s = .next { s with lanes := l.after :: ls, freeCtr := s.freeCtr + 1 }) ∧
    (((viewOf s l g false l.lowest).v32 a).toNat ≠ 0 → g.wb + ((viewOf s l g false l.lowest).v32 a).toNat < g.nblk →
      ∃ t, exec (.rbrel x a z u) s = .next t ∧ t.lanes = l.after :: ls ∧ t.mem = s.mem ∧ t.dies = s.dies ∧ t.launches = s.launches ∧
        ∃ g', t.laneGroup? l = some g' ∧ g'.nblk = g.nblk - ((viewOf s l g false l.lowest).v32 a).toNat ∧ g'.wb = g.wb ∧ g'.thr = g.thr ∧ g'.fcnt = g.fcnt ∧
          ∀ r th, r < 16 * (g.nblk - ((viewOf s l g false l.lowest).v32 a).toNat) → th < 32 → g'.at_ r th = g.at_ r th)) ∧
  (∀ (x y i : BitVec 7) (u : Bool) s l ls g, Runs (.rbrelImm x y i u) s l ls g → g.exited = false →
    (i.toNat ≠ 0 → g.nblk ≤ i.toNat ∨ g.nblk - i.toNat ≤ g.wb → ∃ t, exec (.rbrelImm x y i u) s = .next t ∧ Raised s t l ls g { code := 0x0004, thread := l.lowest }) ∧
    (i.toNat = 0 → exec (.rbrelImm x y i u) s = .next { s with lanes := l.after :: ls, freeCtr := s.freeCtr + 1 }) ∧
    (i.toNat ≠ 0 → g.wb + i.toNat < g.nblk →
      ∃ t, exec (.rbrelImm x y i u) s = .next t ∧ t.lanes = l.after :: ls ∧ t.mem = s.mem ∧ t.dies = s.dies ∧ t.launches = s.launches ∧
        ∃ g', t.laneGroup? l = some g' ∧ g'.nblk = g.nblk - i.toNat ∧ g'.wb = g.wb ∧ g'.thr = g.thr ∧ g'.fcnt = g.fcnt ∧
          ∀ r th, r < 16 * (g.nblk - i.toNat) → th < 32 → g'.at_ r th = g.at_ r th)) ∧
  (∀ (x a : BitVec 7) (k f : BitVec 2) (u : Bool) s l ls g t, Runs (.rquota x a k f u) s l ls g → s.team? l.launch l.team = some t →
    (f.toNat < t.nrole → k.toNat < t.nrole → t.nrole ≤ 4 → t.budget.length = 4 → ((viewOf s l g false l.lowest).v32 a).toNat ≤ t.budget.getD f.toNat 0 →
      ∃ t', exec (.rquota x a k f u) s = .next t' ∧ t'.lanes = l.after :: ls ∧ t'.groups = s.groups ∧ t'.mem = s.mem ∧ t'.dies = s.dies ∧
        ∃ v, t'.team? l.launch l.team = some v ∧ v.held = t.held ∧ v.t = t.t ∧ ∀ r < 4, v.budget.getD r 0 =
          if f = k then t.budget.getD r 0
          else if r = f.toNat then t.budget.getD r 0 - ((viewOf s l g false l.lowest).v32 a).toNat
          else if r = k.toNat then t.budget.getD r 0 + ((viewOf s l g false l.lowest).v32 a).toNat else t.budget.getD r 0) ∧
    (t.nrole ≤ f.toNat ∨ t.nrole ≤ k.toNat ∨ t.budget.getD f.toNat 0 < ((viewOf s l g false l.lowest).v32 a).toNat →
      ∃ t', exec (.rquota x a k f u) s = .next t' ∧ Raised s t' l ls g { code := 0x0004, thread := l.lowest }))

/-- MOVS and MOVS.64 write the special register of their number to D, MOVC the control register; by number: GNUM, GROLE,
TSLOT, TEAM, CORE, NBLK, WIN, FLAGS (bit n while flag n is set), PAIR, LAUNCH and ISLMASK; TIME and DIEMASK; TOFF 0
for the reading die and 0x8000000000000000 for an absent one; GTAG, LASTF, BKEN, RBFREE, RBBUD and RBHELD. MOVC.w
writes BKEN of the team or GTAG of the group from the highest-numbered issuing thread (with U the lowest) and changes
nothing else. (05_group_instructions (R153, R154, R156, R158)) -/
def Obligations.SpecialRegisters : Prop :=
  (∀ (d y n : BitVec 7) (u : Bool), Computes (.movs d y n u) u d (fun e => [special32Value e.s e.l e.g n.toNat])) ∧
  (∀ (d y : BitVec 7) (u : Bool), Computes (.movs d y 0 u) u d (fun e => [BitVec.ofNat 32 e.g.gnum])) ∧
  (∀ (d y : BitVec 7) (u : Bool), Computes (.movs d y 1 u) u d (fun e => [BitVec.ofNat 32 e.g.role])) ∧
  (∀ (d y : BitVec 7) (u : Bool), Computes (.movs d y 2 u) u d (fun e => [BitVec.ofNat 32 (((e.s.team? e.l.launch e.l.team).map Team.slot).getD 0)])) ∧
  (∀ (d y : BitVec 7) (u : Bool), Computes (.movs d y 3 u) u d (fun e => [BitVec.ofNat 32 e.l.team])) ∧
  (∀ (d y : BitVec 7) (u : Bool), Computes (.movs d y 5 u) u d (fun e => [BitVec.ofNat 32 (e.l.core % 8192)])) ∧
  (∀ (d y : BitVec 7) (u : Bool), Computes (.movs d y 6 u) u d (fun e => [BitVec.ofNat 32 e.g.nblk])) ∧
  (∀ (d y : BitVec 7) (u : Bool), Computes (.movs d y 7 u) u d (fun e => [BitVec.ofNat 32 e.g.wb])) ∧
  (∀ (d y : BitVec 7) (u : Bool), Computes (.movs d y 8 u) u d (fun e => [maskOf ((List.range 12).filter (fun f => decide (e.g.fcnt.getD f 0 = 0)))])) ∧
  (∀ (d y : BitVec 7) (u : Bool), Computes (.movs d y 9 u) u d (fun e => [if ((e.s.team? e.l.launch e.l.team).bind Team.partner).isSome then 1 else 0])) ∧
  (∀ (d y : BitVec 7) (u : Bool), Computes (.movs d y 12 u) u d (fun e => [BitVec.ofNat 32 e.l.launch])) ∧
  (∀ (d y : BitVec 7) (u : Bool), Computes (.movs d y 14 u) u d (fun e => [e.s.islMask.setWidth 32])) ∧
  (∀ (d y n : BitVec 7) (u : Bool), Computes (.movs64 d y n u) u d (fun e => pair (special64Value e.s e.l n.toNat))) ∧
  (∀ (d y : BitVec 7) (u : Bool), Computes (.movs64 d y 0x10 u) u d (fun e => pair (BitVec.ofNat 64 (e.s.timeOf (e.l.core / 128 % 64))))) ∧
  (∀ (d y : BitVec 7) (u : Bool), Computes (.movs64 d y 0x11 u) u d (fun e => pair (e.s.dieMask.setWidth 64))) ∧
  (∀ (d y n : BitVec 7) (u : Bool), 0x40 ≤ n.toNat → n.toNat ≤ 0x7B → Computes (.movs64 d y n u) u d (fun e => pair (
      if n.toNat - 0x40 = e.l.core / 128 % 64 then 0 else if e.s.dieMask.getLsbD (n.toNat - 0x40) then
        (e.s.die (e.l.core / 128 % 64)).toff.getD (n.toNat - 0x40) 0x8000000000000000 else 0x8000000000000000))) ∧
  (∀ (d y n : BitVec 7) (u : Bool), Computes (.movc d y n u) u d (fun e => [controlValue e.s e.l e.g n.toNat])) ∧
  (∀ (d y : BitVec 7) (u : Bool), Computes (.movc d y 0 u) u d (fun e => [((e.s.team? e.l.launch e.l.team).map Team.bken).getD 0])) ∧
  (∀ (d y : BitVec 7) (u : Bool), Computes (.movc d y 1 u) u d (fun e => [e.g.gtag])) ∧
  (∀ (d y : BitVec 7) (u : Bool), Computes (.movc d y 2 u) u d (fun e => [e.g.lastf])) ∧
  (∀ (d y : BitVec 7) (u : Bool), Computes (.movc d y 3 u) u d (fun e => [BitVec.ofNat 32 (((e.s.team? e.l.launch e.l.team).map (fun t => t.t - t.held.foldl (· + ·) 0)).getD 0)])) ∧
  (∀ (d y : BitVec 7) (u : Bool), Computes (.movc d y 4 u) u d (fun e => [BitVec.ofNat 32 (((e.s.team? e.l.launch e.l.team).map (fun t => t.budget.getD e.g.role 0)).getD 0)])) ∧
  (∀ (d y : BitVec 7) (u : Bool), Computes (.movc d y 5 u) u d (fun e => [BitVec.ofNat 32 (((e.s.team? e.l.launch e.l.team).map (fun t => t.held.getD e.g.role 0)).getD 0)])) ∧
  (∀ (x a : BitVec 7) (u : Bool) s l ls g, Runs (.movcW x a 0 u) s l ls g →
    exec (.movcW x a 0 u) s = .next { s.modTeam l.launch l.team (fun t => { t with bken := (viewOf s l g false ((l.execThreads u).getLastD 0)).v32 a }) with
      lanes := l.after :: ls, freeCtr := s.freeCtr + 1 }) ∧
  (∀ (x a : BitVec 7) (u : Bool) s l ls g, Runs (.movcW x a 1 u) s l ls g →
    exec (.movcW x a 1 u) s = .next { s.modGroup l.launch l.team l.gnum (fun h => { h with gtag := (viewOf s l g false ((l.execThreads u).getLastD 0)).v32 a }) with
      lanes := l.after :: ls, freeCtr := s.freeCtr + 1 })

/-- Where R211 finds nothing against any executing thread, LD and LD.span put a load, ST a store, in flight with one
access for each executing thread: its address the pair v[A], its length that of the type, for ST the bytes of v[D] in
that type; LD with its acquire or no-cache option, ST with its release. The clause goes on; every byte of memory,
every register, every flag count and every local store is as before. (07_memory_engine (R211, R212, R213, R214, R215)) -/
def Obligations.LoadsAndStoresStart : Prop :=
  (∀ (d a : BitVec 7) (o : BitVec 2) (t : BitVec 4) (u : Bool) s l ls g, Runs (.ld d a o t u) s l ls g →
    (∀ th ∈ l.execThreads u, Accessible .load (memSize t) (viewOf s l g false th) (pairAt s l g a th)) →
    ∃ t', exec (.ld d a o t u) s = .next t' ∧ Started s t' l ls { opOf s l u (.load t.toNat) with dst := dstOf g d (tySize t), acq := decide (o = 1), nc := decide (o = 2), accs := ((l.execThreads u).map (fun th => ({ id := 0, thread := th, va := pairAt s l g a th, len := memSize t } : Access))) }) ∧
  (∀ (d a : BitVec 7) (k : BitVec 3) (t : BitVec 4) (u : Bool) s l ls g, Runs (.ldSpan d a k t u) s l ls g →
    (∀ th ∈ l.execThreads u, Accessible .load (memSize t) (viewOf s l g false th) (pairAt s l g a th)) →
    ∃ t', exec (.ldSpan d a k t u) s = .next t' ∧ Started s t' l ls { opOf s l u (.span t.toNat k.toNat) with dst := dstOf g d (tySize t), accs := ((l.execThreads u).map (fun th => ({ id := 0, thread := th, va := pairAt s l g a th, len := memSize t } : Access))) }) ∧
  (∀ (d a : BitVec 7) (r : Bool) (t : BitVec 4) (u : Bool) s l ls g, Runs (.st d a r t u) s l ls g →
    (∀ th ∈ l.execThreads u, Accessible .store (memSize t) (viewOf s l g false th) (pairAt s l g a th)) →
    ∃ t', exec (.st d a r t u) s = .next t' ∧ Started s t' l ls { opOf s l u (.store t.toNat) with srcs := srcOf g d (tySize t) ++ srcOf g a 2, rel := r, accs := ((l.execThreads u).map (fun th => ({ id := 0, thread := th, va := pairAt s l g a th, len := memSize t, data := storeBytes t ((viewOf s l g false th).z.typed t d) } : Access))) })

/-- Where R211 (and for a promotion R224: a core below 96 on a die that is present) finds nothing against any executing
thread, each ATOM instruction puts an atomic in flight with one access for each executing thread: its address v[A],
the first operand group of v[D] and, where the operation has two, the second; with its acquire and release, and with
the victim core of a promotion. The clause goes on and what is in memory, registers and flags is as before.
(07_memory_engine (R211, R219, R220, R221, R224)) -/
def Obligations.AtomicsStart : Prop :=
  ∀ c ∈ [(Instr.atomAdd, 0), (Instr.atomSub, 1), (Instr.atomMin, 2), (Instr.atomMax, 3), (Instr.atomAnd, 4), (Instr.atomOr, 5), (Instr.atomXor, 6), (Instr.atomSwap, 7), (Instr.atomCas, 8), (Instr.atomIncw, 9), (Instr.atomAddb, 10), (Instr.atomFadd, 11)], ∀ (d a : BitVec 7) (p : Bool) (o : BitVec 2) (t : BitVec 3) (u : Bool) s l ls g,
    Runs (c.1 d a p o t u) s l ls g →
    let adr := fun (th : Nat) => if p then numOfWords (((viewOf s l g false th).vN 4 a).take 2) else pairAt s l g a th
    let word := fun (th : Nat) => ((viewOf s l g false th).vN 4 a).getD 2 0
    let grp := fun (th : Nat) => (viewOf s l g false th).z.vN (atomGroup c.2 t) d
    (∀ th ∈ l.execThreads u, Accessible .atomic (4 * atomRegs t) (viewOf s l g false th) (adr th)) →
    (p = true → ∀ th ∈ l.execThreads u, (word th).toNat % 128 < 96 ∧ s.absentCode (dieOfCore (victimCore l.core (word th))) = none) →
    ∃ t', exec (c.1 d a p o t u) s = .next t' ∧ Started s t' l ls { opOf s l u (.atom c.2 t.toNat) with
      dst := dstOf g d (atomRegs t), srcs := srcOf g d (atomGroup c.2 t) ++ srcOf g a (if p then 4 else 2)
      acq := o.getLsbD 0, rel := o.getLsbD 1
      accs := (l.execThreads u).map (fun th => ({
        id := 0, thread := th, va := adr th, len := 4 * atomRegs t, opnd := numOfWords ((grp th).take (atomRegs t))
        opnd2 := numOfWords ((grp th).drop (atomRegs t)), victim := if p then some (victimCore l.core (word th)) else none } : Access)) }

/-- LD, LD.span and ST: where an executing thread's address has bits [63:57] nonzero, ADDR_RANGE is raised for the first
such thread; else where one is not a multiple of the width, ALIGN_FAULT. LDL and STL: LOCAL_RANGE where the local
address names no byte, else ALIGN_FAULT. Each is taken as an instruction fault that names the address and the thread,
and nothing else changes. (07_memory_engine (R194, R211, R216), 06_traps_and_context (R164)) -/
def Obligations.AddressFaults : Prop :=
  (∀ (d a : BitVec 7) (o : BitVec 2) (t : BitVec 4) (u : Bool) s l ls g, Runs (.ld d a o t u) s l ls g →
    (∀ th, (l.execThreads u).find? (fun th => decide (2 ^ 57 ≤ pairAt s l g a th)) = some th →
      ∃ t', exec (.ld d a o t u) s = .next t' ∧ Raised s t' l ls g { code := 0x0014, addr := pairAt s l g a th, thread := th }) ∧
    ((∀ th ∈ l.execThreads u, pairAt s l g a th < 2 ^ 57) → (∀ th, (l.execThreads u).find? (fun th => decide (pairAt s l g a th % memSize t ≠ 0)) = some th →
      ∃ t', exec (.ld d a o t u) s = .next t' ∧ Raised s t' l ls g { code := 0x0012, addr := pairAt s l g a th, thread := th }))) ∧
  (∀ (d a : BitVec 7) (k : BitVec 3) (t : BitVec 4) (u : Bool) s l ls g, Runs (.ldSpan d a k t u) s l ls g →
    (∀ th, (l.execThreads u).find? (fun th => decide (2 ^ 57 ≤ pairAt s l g a th)) = some th →
      ∃ t', exec (.ldSpan d a k t u) s = .next t' ∧ Raised s t' l ls g { code := 0x0014, addr := pairAt s l g a th, thread := th }) ∧
    ((∀ th ∈ l.execThreads u, pairAt s l g a th < 2 ^ 57) → (∀ th, (l.execThreads u).find? (fun th => decide (pairAt s l g a th % memSize t ≠ 0)) = some th →
      ∃ t', exec (.ldSpan d a k t u) s = .next t' ∧ Raised s t' l ls g { code := 0x0012, addr := pairAt s l g a th, thread := th }))) ∧
  (∀ (d a : BitVec 7) (r : Bool) (t : BitVec 4) (u : Bool) s l ls g, Runs (.st d a r t u) s l ls g →
    (∀ th, (l.execThreads u).find? (fun th => decide (2 ^ 57 ≤ pairAt s l g a th)) = some th →
      ∃ t', exec (.st d a r t u) s = .next t' ∧ Raised s t' l ls g { code := 0x0014, addr := pairAt s l g a th, thread := th }) ∧
    ((∀ th ∈ l.execThreads u, pairAt s l g a th < 2 ^ 57) → (∀ th, (l.execThreads u).find? (fun th => decide (pairAt s l g a th % memSize t ≠ 0)) = some th →
      ∃ t', exec (.st d a r t u) s = .next t' ∧ Raised s t' l ls g { code := 0x0012, addr := pairAt s l g a th, thread := th }))) ∧
  (∀ (d a : BitVec 7) (r : Bool) (t : BitVec 4) (u : Bool) s l ls g tm, Runs (.ldl d a r t u) s l ls g → s.team? l.launch l.team = some tm →
    (∀ th, (l.execThreads u).find? (fun th => decide ((s.localTarget tm (wordAt s l g a th) 1).isNone = true)) = some th →
      ∃ t', exec (.ldl d a r t u) s = .next t' ∧ Raised s t' l ls g { code := 0x0013, addr := wordAt s l g a th, thread := th }) ∧
    ((∀ th ∈ l.execThreads u, (s.localTarget tm (wordAt s l g a th) 1).isSome = true) → (∀ th, (l.execThreads u).find? (fun th => decide (wordAt s l g a th % memSize t ≠ 0)) = some th →
      ∃ t', exec (.ldl d a r t u) s = .next t' ∧ Raised s t' l ls g { code := 0x0012, addr := wordAt s l g a th, thread := th }))) ∧
  (∀ (d a : BitVec 7) (r : Bool) (t : BitVec 4) (u : Bool) s l ls g tm, Runs (.stl d a r t u) s l ls g → s.team? l.launch l.team = some tm →
    (∀ th, (l.execThreads u).find? (fun th => decide ((s.localTarget tm (wordAt s l g a th) 1).isNone = true)) = some th →
      ∃ t', exec (.stl d a r t u) s = .next t' ∧ Raised s t' l ls g { code := 0x0013, addr := wordAt s l g a th, thread := th }) ∧
    ((∀ th ∈ l.execThreads u, (s.localTarget tm (wordAt s l g a th) 1).isSome = true) → (∀ th, (l.execThreads u).find? (fun th => decide (wordAt s l g a th % memSize t ≠ 0)) = some th →
      ∃ t', exec (.stl d a r t u) s = .next t' ∧ Raised s t' l ls g { code := 0x0012, addr := wordAt s l g a th, thread := th })))

/-- Where R194 and the alignment find nothing against any executing thread, LDL and STL complete and leave memory as it
was. Where nothing of the group's is under way and the addresses name the team's own local store, LDL has its bytes
from there at once, and STL's accesses stand in the group's stream with the bytes of v[D], local store unchanged until
the flag falls (the model's choice of moment, log 9). (07_memory_engine (R194, R208, R216)) -/
def Obligations.LocalLoadsAndStores : Prop :=
  (∀ (d a : BitVec 7) (q : Bool) (t : BitVec 4) (u : Bool) s l ls g, Runs (.ldl d a q t u) s l ls g →
    (∀ th ∈ l.execThreads u, LocalByte s l (wordAt s l g a th) ∧ wordAt s l g a th % memSize t = 0) →
    ∃ t', exec (.ldl d a q t u) s = .next t' ∧ t'.lanes = l.after :: ls ∧ t'.beyond = s.beyond ∧
      ∀ tm, LocalIdle s l g tm → (∀ th ∈ l.execThreads u, wordAt s l g a th < 2 ^ 19) →
        t'.teams = s.teams ∧ t'.dies = s.dies ∧
        ∃ o ∈ t'.ops, o.id = s.nextId ∧ o.dst = dstOf g d (tySize t) ∧ o.flag = l.flagNow ∧ o.mask = l.issuing ∧
          o.kind = .localLoad t.toNat ∧ o.accs.map (fun x => (x.thread, x.data)) =
            (l.execThreads u).map (fun th => (th, tm.read (wordAt s l g a th) (memSize t)))) ∧
  (∀ (d a : BitVec 7) (r : Bool) (t : BitVec 4) (u : Bool) s l ls g, Runs (.stl d a r t u) s l ls g →
    (∀ th ∈ l.execThreads u, LocalByte s l (wordAt s l g a th) ∧ wordAt s l g a th % memSize t = 0) →
    ∃ t', exec (.stl d a r t u) s = .next t' ∧ t'.lanes = l.after :: ls ∧ t'.beyond = s.beyond ∧
      ∀ tm, LocalIdle s l g tm →
        t'.teams = s.teams ∧ t'.dies = s.dies ∧
        (∃ o ∈ t'.ops, o.id = s.nextId ∧ o.flag = l.flagNow ∧ o.mask = l.issuing ∧ o.kind = .localStore t.toNat) ∧
        ∃ g', t'.laneGroup? l = some g' ∧ g'.stream.map (fun e => (e.addr, e.rel)) =
            (l.execThreads u).zipIdx.map (fun x => (wordAt s l g a x.1, r && decide (x.2 = 0))) ∧
          g'.stream.map (fun e => match e.kind with
            | .store _ _ bs => bs
            | _ => []) = (l.execThreads u).map (fun th => storeBytes t ((viewOf s l g false th).z.typed t d)))

/-- FETCHT and PQRY put their request in flight and change nothing else. PREF, whatever its addresses, raises nothing and
leaves memory, registers, flags and local stores as they were. CQRY, FQRY and MMAQ write their word to D: of CQRY the
state, entries taken, entries published and stop reason of the ring, of FQRY the item, of MMAQ the stalled k-steps,
the cap, the sag and the group's queued operations. (05_group_instructions (R152), 07_memory_engine (R217, R218),
11_copy_engine (R338), 12_matrix_engine (R365), 14_fabric_engine (R398)) -/
def Obligations.QueriesAndHints : Prop :=
  (∀ (d y z : BitVec 7) (u : Bool) s l ls g, Runs (.fetcht d y z u) s l ls g →
    exec (.fetcht d y z u) s = .next { s with
      lanes := l.after :: ls, freeCtr := s.freeCtr + 1, nextId := s.nextId + 1
      ops := s.ops ++ [{ opOf s l u .fetcht with dst := dstOf g d 3, wants := l.execThreads u }] }) ∧
  (∀ (d a z : BitVec 7) (u : Bool) s l ls g, Runs (.pqry d a z u) s l ls g →
    exec (.pqry d a z u) s = .next { s with
      lanes := l.after :: ls, freeCtr := s.freeCtr + 1, nextId := s.nextId + 1
      ops := s.ops ++ [{ opOf s l u .pqry with dst := dstOf g d 2, accs := (l.execThreads u).map (fun th =>
        ({ id := 0, thread := th, va := pairAt s l g a th, len := 8, st := .done } : Access)) }] }) ∧
  (∀ (x a : BitVec 7) (k : BitVec 3) (v : BitVec 2) (u : Bool) s l ls g, Runs (.pref x a k v u) s l ls g →
    ∃ t', exec (.pref x a k v u) s = .next t' ∧ t'.lanes = l.after :: ls ∧ t'.still = s.still) ∧
  (∀ (d y i : BitVec 7) (u : Bool), Computes (.cqry d y i u) u d (fun e => [match e.s.ringArea e.l.launch with
    | none => 0xC0000000
    | some _ =>
      let L := e.l.launch
      let T := e.l.team
      let r := i.toNat
      BitVec.ofNat 32 (e.s.ringState L T r * 2 ^ 30 + min (ahead (e.s.cons L T r) (e.s.done L T r)) 4 * 2 ^ 27 +
        min (ahead (e.s.notify L T r) (e.s.cons L T r)) 2047 * 2 ^ 16 + e.s.hdr L T r 1 16 8 * 256 + e.s.hdr L T r 1 0 8)])) ∧
  (∀ (d y i : BitVec 7) (u : Bool), Computes (.fqry d y i u) u d (fun e => [fqryValue e.s e.l i.toNat])) ∧
  (∀ (d y z : BitVec 7) (u : Bool), Computes (.mmaq d y z u) u d (fun e => [BitVec.ofNat 32 (
    e.team.gstall % 65536 * 65536 + (e.s.core e.l.core).kcap.toNat * 256 + (if (e.s.die (dieOfCore e.l.core)).sag then 128 else 0) +
      min (e.s.mmas.filter (fun m => m.launch == e.l.launch && m.team == e.l.team && m.gnum == e.l.gnum && m.issued)).length 15)]))

/-- RED fast, min and max and the eight REDI: for each executing thread whose address lies in no accumulator range, a
reduction at memory of its kind; for RED fast in a FAST range of its format, a contribution to that range. RED ord: a
contribution to an ORDERED range of its format, with its sequence number. Each access has the element of v[D] and the
address v[A]; the clause goes on and everything else is as before. RED min, RED max and REDI in a range, RED fast in a
range of another format or an ORDERED one, and RED ord in a range of another format, in a FAST one or outside every
range, raise ACC_FORMAT. (09_near_cache_engine (R284, R289, R290, R274)) -/
def Obligations.ReductionsStart : Prop :=
  (∀ c ∈ [(Instr.redFast, true, 0), (Instr.redMin, true, 2), (Instr.redMax, true, 3), (Instr.rediAdd, false, 0), (Instr.rediMinI, false, 1), (Instr.rediMinB, false, 2), (Instr.rediMaxI, false, 3), (Instr.rediMaxB, false, 4), (Instr.rediAnd, false, 5), (Instr.rediOr, false, 6), (Instr.rediXor, false, 7)], ∀ (d a z : BitVec 7) (u w : Bool) s l ls g, Runs (c.1 d a z u w) s l ls g →
    (∀ th ∈ l.execThreads u, pairAt s l g a th + bitsOf w / 8 ≤ 2 ^ 57 ∧ pairAt s l g a th % (bitsOf w / 8) = 0 ∧
      match (viewOf s l g false th).rangeOf (pairAt s l g a th) with
      | some r => c.2.1 = true ∧ c.2.2 = 0 ∧ r.fmt64 = w ∧ r.ord = false
      | none => ∀ p ∈ (viewOf s l g false th).pages (pairAt s l g a th) (bitsOf w / 8), Permitted .store (viewOf s l g false th) p.1 p.2) →
    ∃ t', exec (c.1 d a z u w) s = .next t' ∧ Started s t' l ls { opOf s l u .red with
      srcs := srcOf g d (wd w) ++ srcOf g a 2 ++ []
      accs := (l.execThreads u).map (fun th => ({
        id := 0, thread := th, va := pairAt s l g a th, len := bitsOf w / 8
        data := bytesOf ((viewOf s l g false th).z.vw w d).toNat (bitsOf w / 8), opnd := 0
        sk := match (viewOf s l g false th).rangeOf (pairAt s l g a th) with
          | some r => .contrib r.id
          | none => (if c.2.1 then .red c.2.2 w else .redi c.2.2 w) } : Access)) }) ∧
  (∀ (d a b : BitVec 7) (u w : Bool) s l ls g, Runs (.redOrd d a b u w) s l ls g →
    (∀ th ∈ l.execThreads u, pairAt s l g a th + bitsOf w / 8 ≤ 2 ^ 57 ∧ pairAt s l g a th % (bitsOf w / 8) = 0 ∧
      match (viewOf s l g false th).rangeOf (pairAt s l g a th) with
      | some r => r.fmt64 = w ∧ r.ord = true
      | none => False) →
    ∃ t', exec (.redOrd d a b u w) s = .next t' ∧ Started s t' l ls { opOf s l u .red with
      srcs := srcOf g d (wd w) ++ srcOf g a 2 ++ srcOf g b 1
      accs := (l.execThreads u).map (fun th => ({
        id := 0, thread := th, va := pairAt s l g a th, len := bitsOf w / 8
        data := bytesOf ((viewOf s l g false th).z.vw w d).toNat (bitsOf w / 8), opnd := yWordAt s l g b th % 65536
        sk := match (viewOf s l g false th).rangeOf (pairAt s l g a th) with
          | some r => .contrib r.id
          | none => .red 1 w } : Access)) }) ∧
  (∀ c ∈ [(Instr.redFast, true, 0), (Instr.redMin, true, 2), (Instr.redMax, true, 3), (Instr.rediAdd, false, 0), (Instr.rediMinI, false, 1), (Instr.rediMinB, false, 2), (Instr.rediMaxI, false, 3), (Instr.rediMaxB, false, 4), (Instr.rediAnd, false, 5), (Instr.rediOr, false, 6), (Instr.rediXor, false, 7)], ∀ (d a z : BitVec 7) (u w : Bool) s l ls g th r, Runs (c.1 d a z u w) s l ls g →
    (∀ i ∈ l.execThreads u, pairAt s l g a i + bitsOf w / 8 ≤ 2 ^ 57 ∧ pairAt s l g a i % (bitsOf w / 8) = 0) →
    th ∈ l.execThreads u → (viewOf s l g false th).rangeOf (pairAt s l g a th) = some r → (c.2.1 = true → c.2.2 = 0 → r.fmt64 ≠ w ∨ r.ord = true) →
    ∃ t' x, exec (c.1 d a z u w) s = .next t' ∧ x.code = 0x0021 ∧ x.thread ∈ l.execThreads u ∧ Raised s t' l ls g x) ∧
  (∀ (d a b : BitVec 7) (u w : Bool) s l ls g th, Runs (.redOrd d a b u w) s l ls g →
    (∀ i ∈ l.execThreads u, pairAt s l g a i + bitsOf w / 8 ≤ 2 ^ 57 ∧ pairAt s l g a i % (bitsOf w / 8) = 0) →
    th ∈ l.execThreads u → (∀ r, (viewOf s l g false th).rangeOf (pairAt s l g a th) = some r → r.fmt64 ≠ w ∨ r.ord = false) →
    ∃ t' x, exec (.redOrd d a b u w) s = .next t' ∧ x.code = 0x0021 ∧ x.thread ∈ l.execThreads u ∧ Raised s t' l ls g x)

/-- Where the checks of R285 to R288 find nothing, ACCOPEN puts one access with its range and descriptor in flight for
each executing thread; ACCCLOSE marks the ranges that start at its addresses as being closed by it; ACCSCALE puts its
rows with their factors and its sequence number in flight as one contribution to the range of the lowest-numbered
thread's address; ACCZERO puts its byte ranges in flight. Nothing else changes: memory, registers and flags among it.
(09_near_cache_engine (R284, R285, R286, R287, R288)) -/
def Obligations.AccumulatorWordsStart : Prop :=
  (∀ (d a b : BitVec 7) (u : Bool) s l ls g, Runs (.accopen d a b u) s l ls g →
    (∀ th ∈ l.execThreads u, ∀ c ∈ accOpenChecks (fun e => e.adr a) (fun e => (e.y.v32 b).toNat) (fun e => (e.z.v64 d).toNat)
      (fun e => ((l.execThreads u).filter (· ≠ e.t)).map (fun t => (pairAt s l g a t, yWordAt s l g b t))), c (viewOf s l g false th) = none) →
    ∃ t', exec (.accopen d a b u) s = .next t' ∧ Started s t' l ls { opOf s l u .accOpen with
      srcs := srcOf g d 2 ++ srcOf g a 2 ++ srcOf g b 1
      accs := (l.execThreads u).map (fun th =>
        ({ id := 0, thread := th, va := pairAt s l g a th, len := yWordAt s l g b th, opnd := zPairAt s l g d th } : Access)) }) ∧
  (∀ (x a z : BitVec 7) (u : Bool) s l ls g, Runs (.accclose x a z u) s l ls g →
    (∀ th ∈ l.execThreads u, pairAt s l g a th < 2 ^ 57 ∧
      (∃ r, s.ranges.find? (fun r => decide (r.isl = l.core / 256) && decide (r.launch = l.launch) && decide (r.base = pairAt s l g a th)) = some r ∧
        r.st ≠ .closing ∧ r.closer = 0) ∧
      ∀ t ∈ l.execThreads u, pairAt s l g a t = pairAt s l g a th → t = th) →
    ∃ t', exec (.accclose x a z u) s = .next t' ∧ t'.lanes = l.after :: ls ∧
      { t' with lanes := [], ops := [], ranges := [], nextId := 0, freeCtr := 0 } =
        { s with lanes := [], ops := [], ranges := [], nextId := 0, freeCtr := 0 } ∧
      t'.ranges = s.ranges.map (fun r => if r.isl = l.core / 256 ∧ r.launch = l.launch ∧ (∃ th ∈ l.execThreads u, pairAt s l g a th = r.base)
        then { r with closer := s.nextId } else r) ∧
      t'.ops.map Op.asked = s.ops.map Op.asked ++ [({ opOf s l u (.accClose 0) with
        srcs := srcOf g a 2
        accs := (l.execThreads u).map (fun th => ({ id := 0, thread := th, va := pairAt s l g a th, len := 1 } : Access)) } : Op).asked]) ∧
  (∀ (d a b : BitVec 7) (u : Bool) s l ls g r, Runs (.accscale d a b u) s l ls g →
    (viewOf s l g false l.lowest).rangeOf (pairAt s l g a l.lowest) = some r →
    (∀ th ∈ l.execThreads u, pairAt s l g a th < 2 ^ 57 ∧ pairAt s l g a th + zPairAt s l g d th / 2 ^ 32 ≤ 2 ^ 57 ∧
      r.base ≤ pairAt s l g a th ∧ pairAt s l g a th + zPairAt s l g d th / 2 ^ 32 ≤ r.base + r.len ∧
      zPairAt s l g d th / 2 ^ 32 ≠ 0 ∧ pairAt s l g a th % r.size = 0 ∧ zPairAt s l g d th / 2 ^ 32 % r.size = 0) →
    ∃ t', exec (.accscale d a b u) s = .next t' ∧ Started s t' l ls { opOf s l u (.accScale r.id) with
      srcs := srcOf g d 2 ++ srcOf g a 2 ++ srcOf g b 1
      accs := (l.execThreads u).map (fun th =>
        ({ id := 0, thread := th, va := pairAt s l g a th, len := zPairAt s l g d th / 2 ^ 32, opnd := zPairAt s l g d th % 2 ^ 32
           opnd2 := yWordAt s l g b l.lowest % 65536, sk := .scale r.id } : Access)) }) ∧
  (∀ (x a b : BitVec 7) (u : Bool) s l ls g, Runs (.acczero x a b u) s l ls g →
    (∀ th ∈ l.execThreads u, Spans .store (yWordAt s l g b th) (viewOf s l g false th) (pairAt s l g a th) ∧
      pairAt s l g a th % 32 = 0 ∧ yWordAt s l g b th % 32 = 0 ∧
      (∀ p ∈ (viewOf s l g false th).pages (pairAt s l g a th) (yWordAt s l g b th),
        pairAt s l g a th % grainOf p.2.leaf = 0 ∧ yWordAt s l g b th % grainOf p.2.leaf = 0) ∧
      (∀ r, (viewOf s l g false th).rangeMeets (pairAt s l g a th) (yWordAt s l g b th) = some r →
        r.base ≤ pairAt s l g a th ∧ pairAt s l g a th + yWordAt s l g b th ≤ r.base + r.len)) →
    ∃ t', exec (.acczero x a b u) s = .next t' ∧ Started s t' l ls { opOf s l u .accZero with
      srcs := srcOf g a 2 ++ srcOf g b 1
      accs := (l.execThreads u).map (fun th =>
        ({ id := 0, thread := th, va := pairAt s l g a th, len := yWordAt s l g b th, sk := .zero 0 } : Access)) })

/-- CFLUSH and CINV, where R284 finds nothing against the bytes they name, put their request in flight and leave memory,
registers, flags and local stores as they were. CSPAN completes whatever its addresses and of these, and of the rind,
changes nothing but predictor entries; it starts an operation only where a page is in transition, which holds the
group. For a byte count that stays in one 4 KiB frame of a present page outside die scratch (one thread), the entry of
that frame's key is pinned to the length k, or loses its pin. (08_translation (R240), 09_near_cache_engine (R268,
R284, R291, R292)) -/
def Obligations.CacheControl : Prop :=
  (∀ (x a b : BitVec 7) (u : Bool) s l ls g, Runs (.cflush x a b u) s l ls g →
    (∀ th ∈ l.execThreads u, Spans .load (yWordAt s l g b th) (viewOf s l g false th) (pairAt s l g a th)) →
    ∃ t', exec (.cflush x a b u) s = .next t' ∧ Started s t' l ls { opOf s l u (.flush false) with
      accs := (l.execThreads u).map (fun th => ({ id := 0, thread := th, va := pairAt s l g a th, len := yWordAt s l g b th } : Access)) }) ∧
  (∀ (x a b : BitVec 7) (u : Bool) s l ls g, Runs (.cinv x a b u) s l ls g →
    (∀ th ∈ l.execThreads u, Spans .load (yWordAt s l g b th) (viewOf s l g false th) (pairAt s l g a th)) →
    ∃ t', exec (.cinv x a b u) s = .next t' ∧ Started s t' l ls { opOf s l u (.flush true) with
      accs := (l.execThreads u).map (fun th => ({ id := 0, thread := th, va := pairAt s l g a th, len := yWordAt s l g b th } : Access)) }) ∧
  (∀ (d a : BitVec 7) (c : Bool) (k : BitVec 3) (u : Bool) s l ls g, Runs (.cspan d a c k u) s l ls g →
    ∃ t', exec (.cspan d a c k u) s = .next t' ∧ t'.lanes = l.after :: ls ∧
      { t'.still with dies := [] } = { s.still with dies := [] } ∧
      t'.dies.map (fun (x : Die) => { x with predictor := [], walker := [] }) = s.dies.map (fun (x : Die) => { x with predictor := [], walker := [] }) ∧
      ((∀ th ∈ l.execThreads u, (viewOf s l g false th).anyMoving (pairAt s l g a th) (zWordAt s l g d th) = false) → t'.ops = s.ops) ∧
      ∀ t, u = true → (viewOf s l g true 0).anyMoving (pairAt s l g a l.lowest) (zWordAt s l g d l.lowest) = false →
        (viewOf s l g true 0).present (pairAt s l g a l.lowest / 4096 * 4096) = some t → t.scratch = false → t.home < s.dies.length →
        pairAt s l g a l.lowest < 2 ^ 57 → 0 < zWordAt s l g d l.lowest → pairAt s l g a l.lowest % 4096 + zWordAt s l g d l.lowest ≤ 4096 →
        let key := predKey (s.die t.home) (t.phys (pairAt s l g a l.lowest / 4096 * 4096) / 4096)
        Cells.get 0 (t'.die t.home).predictor key =
          if c then Cells.get 0 (s.die t.home).predictor key &&& 7#4 else 8#4 ||| k.setWidth 4)

/-- Where R304 finds nothing, BINIT, BINVAL, both forms of BARV and BEXP complete and change nothing beyond their core;
where nothing of the group's is under way, one of one thread on its own object takes effect at once (the model's
choice of moment, log 9): BINIT and BINVAL on the object, BARV as an arrival of its count, BEXP as expected bytes.
BWAIT and BSYNC note their wait for the end of the clause, BSYNC with its count of threads, its time-out and mask.
BTEST writes to D whether the phase asked for is over, and V; while the group's stream still holds an operation on the
object it waits in its lane. (10_barrier_engine (R304, R305, R306, R307, R308, R309, R310)) -/
def Obligations.BarrierWords : Prop :=
  (∀ (d a z : BitVec 7) (u : Bool) s l ls g, Runs (.binit d a z u) s l ls g →
    (∀ th ∈ l.execThreads u, LocalByte s l (wordAt s l g a th) ∧ wordAt s l g a th % 32 = 0 ∧ wordAt s l g a th / 2 ^ 19 % 2 = 0) →
    ∃ t', exec (.binit d a z u) s = .next t' ∧ t'.lanes = l.after :: ls ∧ t'.beyond = s.beyond ∧
      ∀ tm, LocalIdle s l g tm → u = true → wordAt s l g a l.lowest < 2 ^ 19 →
        t'.teams = (s.barInit l.launch l.team (wordAt s l g a l.lowest) ((viewOf s l g true 0).z.v64 d)).teams) ∧
  (∀ (x a z : BitVec 7) (u : Bool) s l ls g, Runs (.binval x a z u) s l ls g →
    (∀ th ∈ l.execThreads u, LocalByte s l (wordAt s l g a th) ∧ wordAt s l g a th % 32 = 0 ∧ wordAt s l g a th / 2 ^ 19 % 2 = 0) →
    ∃ t', exec (.binval x a z u) s = .next t' ∧ t'.lanes = l.after :: ls ∧ t'.beyond = s.beyond ∧
      ∀ tm, LocalIdle s l g tm → u = true → wordAt s l g a l.lowest < 2 ^ 19 →
        t'.teams = (s.barInval l.launch l.team (wordAt s l g a l.lowest)).teams) ∧
  (∀ (x a b : BitVec 7) (u : Bool) s l ls g, Runs (.barv x a b u) s l ls g →
    (∀ th ∈ l.execThreads u, LocalByte s l (wordAt s l g a th) ∧ wordAt s l g a th % 32 = 0) →
    ∃ t', exec (.barv x a b u) s = .next t' ∧ t'.lanes = l.after :: ls ∧ t'.beyond = s.beyond ∧
      ∀ tm, LocalIdle s l g tm → u = true → wordAt s l g a l.lowest < 2 ^ 19 →
        t'.teams = (s.barEvent l.launch l.team (wordAt s l g a l.lowest) (.arrive (yWordAt s l g b l.lowest % 65536))).teams) ∧
  (∀ (x a i : BitVec 7) (u : Bool) s l ls g, Runs (.barvImm x a i u) s l ls g →
    (∀ th ∈ l.execThreads u, LocalByte s l (wordAt s l g a th) ∧ wordAt s l g a th % 32 = 0) →
    ∃ t', exec (.barvImm x a i u) s = .next t' ∧ t'.lanes = l.after :: ls ∧ t'.beyond = s.beyond ∧
      ∀ tm, LocalIdle s l g tm → u = true → wordAt s l g a l.lowest < 2 ^ 19 →
        t'.teams = (s.barEvent l.launch l.team (wordAt s l g a l.lowest) (.arrive i.toNat)).teams) ∧
  (∀ (x a b : BitVec 7) (u : Bool) s l ls g, Runs (.bexp x a b u) s l ls g →
    (∀ th ∈ l.execThreads u, LocalByte s l (wordAt s l g a th) ∧ wordAt s l g a th % 32 = 0 ∧ wordAt s l g a th / 2 ^ 19 % 2 = 0) →
    ∃ t', exec (.bexp x a b u) s = .next t' ∧ t'.lanes = l.after :: ls ∧ t'.beyond = s.beyond ∧
      ∀ tm, LocalIdle s l g tm → u = true → wordAt s l g a l.lowest < 2 ^ 19 →
        t'.teams = (s.barEvent l.launch l.team (wordAt s l g a l.lowest) (.expect (yWordAt s l g b l.lowest))).teams) ∧
  (∀ (x a b : BitVec 7) (u : Bool) s l ls g, Runs (.bwait x a b u) s l ls g →
    LocalByte s l (wordAt s l g a l.lowest) → wordAt s l g a l.lowest / 2 ^ 19 % 2 = 0 → wordAt s l g a l.lowest % 32 = 0 →
    exec (.bwait x a b u) s = .next { s with freeCtr := s.freeCtr + 1, lanes := { l.after with bwait := some (wordAt s l g a l.lowest, .bwait (((viewOf s l g true 0).y.v32 b).getLsbD 16) (yWordAt s l g b l.lowest % 65536)) } :: ls }) ∧
  (∀ (x a b : BitVec 7) (u : Bool) s l ls g, Runs (.bsync x a b u) s l ls g →
    LocalByte s l (wordAt s l g a l.lowest) → wordAt s l g a l.lowest / 2 ^ 19 % 2 = 0 → wordAt s l g a l.lowest % 32 = 0 →
    exec (.bsync x a b u) s = .next { s with freeCtr := s.freeCtr + 1, lanes := { l.after with bwait := some (wordAt s l g a l.lowest, .bsync (if u then 1 else (threadsOf l.issuing).length) (yWordAt s l g b l.lowest) l.issuing) } :: ls }) ∧
  (∀ (d a b : BitVec 7) (u : Bool) s l ls g, Runs (.btest d a b u) s l ls g →
    (∀ th ∈ l.execThreads u, LocalByte s l (wordAt s l g a th) ∧ wordAt s l g a th / 2 ^ 19 % 2 = 0 ∧ wordAt s l g a th % 32 = 0) →
    ((∃ th ∈ l.execThreads u, g.pendingOn (wordAt s l g a th % 2 ^ 19) = true) →
      exec (.btest d a b u) s = .next { s with lanes := { l with stalled := true } :: ls }) ∧
    (∀ tm, (∀ th ∈ l.execThreads u, g.pendingOn (wordAt s l g a th % 2 ^ 19) = false) → s.team? l.launch l.team = some tm → tm.loose = [] →
      ∃ t' g', exec (.btest d a b u) s = .next t' ∧ t'.lanes = l.after :: ls ∧ t'.beyond = s.beyond ∧ t'.laneGroup? l = some g' ∧
        ∀ r th, th < 32 → g'.at_ r th = if l.issuing.getLsbD th then
          (fieldVal g d [let e := viewOf s l g u th
            (if decide (tm.barPhase ((e.v32 a).toNat % 2 ^ 19) ((e.y.v32 b).getLsbD 16) % 2 = 1) = (e.y.v32 b).getLsbD 0 then 0#32 else 1#32) |||
              (if tm.barValid ((e.v32 a).toNat % 2 ^ 19) then 2#32 else 0#32)] r).getD (g.at_ r th)
          else g.at_ r th))

/-- On a valid object: an arrival raises the pending count by its number, at most to 65535; expected bytes, landed bytes
and acknowledgements are added modulo 2^32; a remote arrival raises the remote pending count. Where the local pending
count reaches the expected one and the byte counts are equal, the phase advances by one, and the pending and byte
counts return to zero; a remote section with a nonzero expected count completes likewise. BINIT sets the Reset values:
V 1, phase 0, counts 0, the expected counts and signallers of its operand, every group of the team as a signaller. No
byte outside the object changes. (10_barrier_engine (R294, R296, R297, R305)) -/
def Obligations.BarrierEvents : Prop :=
  (∀ (s : State) (L T off : Nat) (e : BarEvent) (t : Team), s.team? L T = some t → t.barValid off = true → t.loose = [] →
    let P := t.bar off 0 48 16
    let R := t.bar off 2 48 16
    let P' := match e with
      | .arrive n => min (P + n) 0xFFFF
      | .gang => min (P + 1) 0xFFFF
      | _ => P
    let R' := match e with
      | .remote n => min (R + n) 0xFFFF
      | _ => R
    let X' := match e with
      | .expect n => (t.bar off 1 32 32 + n) % 2 ^ 32
      | _ => t.bar off 1 32 32
    let B' := match e with
      | .landed n _ => (t.bar off 1 0 32 + n) % 2 ^ 32
      | .ack n => (t.bar off 1 0 32 + n) % 2 ^ 32
      | _ => t.bar off 1 0 32
    let full_ := e.isRemote = false ∧ t.bar off 0 32 16 ≤ P' ∧ B' = X'
    let roam := e.isRemote = true ∧ t.bar off 2 32 16 ≠ 0 ∧ t.bar off 2 32 16 ≤ R'
    ∃ v, (s.barEvent L T off e).team? L T = some v ∧
      v.bar off 0 48 16 = (if full_ then 0 else P') ∧ v.bar off 2 48 16 = (if roam then 0 else R') ∧
      v.bar off 1 32 32 = (if full_ then 0 else X') ∧ v.bar off 1 0 32 = (if full_ then 0 else B') ∧
      v.bar off 0 16 16 = (if full_ then (t.bar off 0 16 16 + 1) % 2 ^ 16 else t.bar off 0 16 16) ∧
      v.bar off 2 16 16 = (if roam then (t.bar off 2 16 16 + 1) % 2 ^ 16 else t.bar off 2 16 16) ∧
      v.bar off 0 32 16 = t.bar off 0 32 16 ∧ v.bar off 2 32 16 = t.bar off 2 32 16 ∧ v.barValid off = true ∧
      ∀ o, o < off ∨ off + 24 ≤ o → Cells.get 0 v.loc o = Cells.get 0 t.loc o) ∧
  (∀ (s : State) (L T off : Nat) (x : DWord) (t : Team), s.team? L T = some t → t.ngrp ≤ 64 →
    ∃ v, (s.barInit L T off x).team? L T = some v ∧
      v.readNum off 8 = x.toNat % 65536 * 2 ^ 32 + 1 ∧ v.readNum (off + 8) 8 = 0 ∧
      v.readNum (off + 16) 8 = x.toNat / 65536 % 65536 * 2 ^ 32 + x.toNat / 2 ^ 32 % 64 ∧ v.readNum (off + 24) 8 = 2 ^ t.ngrp - 1 ∧
      ∀ o, o < off ∨ off + 32 ≤ o → Cells.get 0 v.loc o = Cells.get 0 t.loc o)

/-- On a tile of the team, for MOVTS, TZERO and TWR a standalone one: MOVTS gives it the valid shape of the
highest-numbered thread (with U the lowest) and keeps its bytes; MOVST writes its shape to D; TZERO leaves every byte
zero and the shape as it was; TWR writes one element, of the shape's width, and leaves the others; TRD writes the
element at v[B] to D, as a pair where elements have 8 bytes (a free value where the tile is not ready). Other tiles
are as before. A tile number at or above NTILE, a ring member for a writer, a bad shape for MOVTS, or for TWR and TRD
an index past the tile raises TILE_STATE. (12_matrix_engine (R339, R340, R341, R343, R362)) -/
def Obligations.TileElements : Prop :=
  (∀ (d a z : BitVec 7) (u : Bool) s l ls g tm, Runs (.movts d a z u) s l ls g → s.team? l.launch l.team = some tm → tm.tiles.length = tm.ntile →
    d.toNat < tm.ntile → tm.member d.toNat = false → (∀ th ∈ l.execThreads u, shapeOk ((viewOf s l g false th).v32 a) = true) → l.execThreads u ≠ [] →
    ∃ t' v, exec (.movts d a z u) s = .next t' ∧ t'.lanes = l.after :: ls ∧ t'.beyond = s.beyond ∧ t'.team? l.launch l.team = some v ∧
      (v.tile d.toNat).shape = (viewOf s l g false ((l.execThreads u).getLastD 0)).v32 a ∧ (v.tile d.toNat).data = (tm.tile d.toNat).data ∧
      (v.tile d.toNat).st = (tm.tile d.toNat).st ∧ ∀ n, n ≠ d.toNat → v.tile n = tm.tile n) ∧
  (∀ (d a z : BitVec 7) (u : Bool) s l ls g tm, Runs (.movst d a z u) s l ls g → s.team? l.launch l.team = some tm → tm.tiles.length = tm.ntile →
    a.toNat < tm.ntile →
    ∃ t', exec (.movst d a z u) s = .next t' ∧ WritesOnly s t' l.after l ls g (fun r _ => fieldVal g d [(tm.tile a.toNat).shape] r)) ∧
  (∀ (d y z : BitVec 7) (u : Bool) s l ls g tm, Runs (.tzero d y z u) s l ls g → s.team? l.launch l.team = some tm → tm.tiles.length = tm.ntile →
    d.toNat < tm.ntile → tm.member d.toNat = false →
    ∃ t' v, exec (.tzero d y z u) s = .next t' ∧ t'.lanes = l.after :: ls ∧ t'.beyond = s.beyond ∧ t'.team? l.launch l.team = some v ∧
      (v.tile d.toNat).shape = (tm.tile d.toNat).shape ∧ (∀ i, (v.tile d.toNat).elem i = 0) ∧ (v.tile d.toNat).st = (tm.tile d.toNat).st ∧ ∀ n, n ≠ d.toNat → v.tile n = tm.tile n) ∧
  (∀ (d a b : BitVec 7) (u : Bool) s l ls g tm, Runs (.twr d a b u) s l ls g → s.team? l.launch l.team = some tm → tm.tiles.length = tm.ntile →
    d.toNat < tm.ntile → tm.member d.toNat = false → (∀ th ∈ l.execThreads u, yWordAt s l g b th < shapeRows (tm.tile d.toNat).shape * shapeCols (tm.tile d.toNat).shape) →
    ∃ t' v, exec (.twr d a b u) s = .next t' ∧ t'.lanes = l.after :: ls ∧ t'.beyond = s.beyond ∧ t'.team? l.launch l.team = some v ∧
      (v.tile d.toNat).shape = (tm.tile d.toNat).shape ∧ (∀ n, n ≠ d.toNat → v.tile n = tm.tile n) ∧
      (u = true → ∀ i, (v.tile d.toNat).elem i = if i = yWordAt s l g b l.lowest then
        (if shapeElt (tm.tile d.toNat).shape = 8 then pairAt s l g a l.lowest else wordAt s l g a l.lowest % 2 ^ (8 * shapeElt (tm.tile d.toNat).shape))
        else (tm.tile d.toNat).elem i)) ∧
  (∀ (d a b : BitVec 7) (u : Bool) s l ls g tm, Runs (.trd d a b u) s l ls g → s.team? l.launch l.team = some tm → tm.tiles.length = tm.ntile →
    a.toNat < tm.ntile →
    (∀ th ∈ l.execThreads u, yWordAt s l g b th < shapeRows (tm.tile a.toNat).shape * shapeCols (tm.tile a.toNat).shape) →
    ∃ t', ∃ vs : Nat → List Word, exec (.trd d a b u) s = .next t' ∧ WritesOnly s t' l.after l ls g (fun r th => fieldVal g d (vs th) r) ∧
      (∀ th, (vs th).length = if shapeElt (tm.tile a.toNat).shape = 8 then 2 else 1) ∧
      ((tm.tile a.toNat).st = .ready → ∀ th, vs th =
        let x := (tm.tile a.toNat).elem ((viewOf s l g u th).y.v32 b).toNat
        if shapeElt (tm.tile a.toNat).shape = 8 then pair (BitVec.ofNat 64 x) else [BitVec.ofNat 32 x])) ∧
  (∀ (d a z : BitVec 7) (u : Bool) s l ls g tm, Runs (.movts d a z u) s l ls g → s.team? l.launch l.team = some tm →
    tm.ntile ≤ d.toNat ∨ tm.member d.toNat = true ∨ (∃ th ∈ l.execThreads u, shapeOk ((viewOf s l g false th).v32 a) = false) → l.execThreads u ≠ [] →
    ∃ t' x, exec (.movts d a z u) s = .next t' ∧ x.code = 0x0030 ∧ Raised s t' l ls g x) ∧
  (∀ (d a z : BitVec 7) (u : Bool) s l ls g tm, Runs (.movst d a z u) s l ls g → s.team? l.launch l.team = some tm →
    tm.ntile ≤ a.toNat → l.execThreads u ≠ [] →
    ∃ t' x, exec (.movst d a z u) s = .next t' ∧ x.code = 0x0030 ∧ Raised s t' l ls g x) ∧
  (∀ (d y z : BitVec 7) (u : Bool) s l ls g tm, Runs (.tzero d y z u) s l ls g → s.team? l.launch l.team = some tm →
    tm.ntile ≤ d.toNat ∨ tm.member d.toNat = true → l.execThreads u ≠ [] →
    ∃ t' x, exec (.tzero d y z u) s = .next t' ∧ x.code = 0x0030 ∧ Raised s t' l ls g x) ∧
  (∀ (d a b : BitVec 7) (u : Bool) s l ls g tm, Runs (.twr d a b u) s l ls g → s.team? l.launch l.team = some tm →
    tm.ntile ≤ d.toNat ∨ tm.member d.toNat = true ∨ (∃ th ∈ l.execThreads u, shapeRows (tm.tile d.toNat).shape * shapeCols (tm.tile d.toNat).shape ≤ yWordAt s l g b th) → l.execThreads u ≠ [] →
    ∃ t' x, exec (.twr d a b u) s = .next t' ∧ x.code = 0x0030 ∧ Raised s t' l ls g x) ∧
  (∀ (d a b : BitVec 7) (u : Bool) s l ls g tm, Runs (.trd d a b u) s l ls g → s.team? l.launch l.team = some tm →
    tm.ntile ≤ a.toNat ∨ (∃ th ∈ l.execThreads u, shapeRows (tm.tile a.toNat).shape * shapeCols (tm.tile a.toNat).shape ≤ yWordAt s l g b th) → l.execThreads u ≠ [] →
    ∃ t' x, exec (.trd d a b u) s = .next t' ∧ x.code = 0x0030 ∧ Raised s t' l ls g x)

/-- Where R361 finds nothing: TLD and TLD.ob make a standalone tile filling; TLD puts a load of the shape size from v[A]
in flight, in accesses of 32 bytes, TLD.ob a read of the operand-buffer slot v[A] below NOB. TST counts as a reader of
the tile and puts a store of its bytes (free ones where it is not ready) in flight, LDMETA a load of 2048 bytes for a
metadata slot below NMETA. Memory, registers and flags are as before. (09_near_cache_engine (R284), 12_matrix_engine
(R343, R358, R361)) -/
def Obligations.TileTransfers : Prop :=
  (∀ (d a z : BitVec 7) (u : Bool) s l ls g tm, Runs (.tld d a z u) s l ls g → s.team? l.launch l.team = some tm → tm.tiles.length = tm.ntile →
    d.toNat < tm.ntile → tm.member d.toNat = false → (∀ th ∈ l.execThreads u, Spans .load (shapeSize (tm.tile d.toNat).shape) (viewOf s l g false th) (pairAt s l g a th) ∧ pairAt s l g a th % 32 = 0) →
    ∃ t' v g', exec (.tld d a z u) s = .next t' ∧ t'.lanes = l.after :: ls ∧ t'.mem = s.mem ∧ t'.launches = s.launches ∧ t'.ranges = s.ranges ∧
      t'.team? l.launch l.team = some v ∧ t'.laneGroup? l = some g' ∧ g'.regs = g.regs ∧ g'.fcnt = g.fcnt ∧
      (∃ o ∈ t'.ops, o.asked = ({ opOf s l u (.tld d.toNat) with srcs := srcOf g a 2, accs := ((l.execThreads u).flatMap (fun th => (List.range ((shapeSize (tm.tile d.toNat).shape + 31) / 32)).map (fun k =>
        ({ id := 0, thread := th, va := pairAt s l g a th + 32 * k, len := min 32 (shapeSize (tm.tile d.toNat).shape - 32 * k), opnd := 32 * k } : Access)))) } : Op).asked) ∧
      (v.tile d.toNat).st = .filling ∧ (v.tile d.toNat).loads = (tm.tile d.toNat).loads + 1 ∧
      (v.tile d.toNat).shape = (tm.tile d.toNat).shape ∧ ∀ n, n ≠ d.toNat → v.tile n = tm.tile n) ∧
  (∀ (d a z : BitVec 7) (u : Bool) s l ls g tm, Runs (.tldOb d a z u) s l ls g → s.team? l.launch l.team = some tm → tm.tiles.length = tm.ntile →
    d.toNat < tm.ntile → tm.member d.toNat = false → (∀ th ∈ l.execThreads u, wordAt s l g a th < ((s.launch? l.launch).map (fun x => x.bits 3 32 32)).getD 0) →
    ∃ t' v g', exec (.tldOb d a z u) s = .next t' ∧ t'.lanes = l.after :: ls ∧ t'.beyond = s.beyond ∧
      t'.team? l.launch l.team = some v ∧ t'.laneGroup? l = some g' ∧ g'.regs = g.regs ∧ g'.fcnt = g.fcnt ∧
      (∃ o ∈ t'.ops, o.asked = ({ opOf s l u (.tldOb d.toNat) with
        srcs := srcOf g a 1
        accs := (l.execThreads u).map (fun th => ({ id := 0, thread := th, va := wordAt s l g a th, len := shapeSize (tm.tile d.toNat).shape } : Access)) } : Op).asked) ∧
      (v.tile d.toNat).st = .filling ∧ (v.tile d.toNat).loads = (tm.tile d.toNat).loads + 1 ∧
      (v.tile d.toNat).shape = (tm.tile d.toNat).shape ∧ ∀ n, n ≠ d.toNat → v.tile n = tm.tile n) ∧
  (∀ (d a z : BitVec 7) (u : Bool) s l ls g tm, Runs (.tst d a z u) s l ls g → s.team? l.launch l.team = some tm → tm.tiles.length = tm.ntile →
    d.toNat < tm.ntile → (∀ th ∈ l.execThreads u, Spans .store (shapeSize (tm.tile d.toNat).shape) (viewOf s l g false th) (pairAt s l g a th) ∧ pairAt s l g a th % 32 = 0) →
    ∃ t', ∃ bs : List Byte, exec (.tst d a z u) s = .next t' ∧ bs.length = shapeSize (tm.tile d.toNat).shape ∧
      ((tm.tile d.toNat).st = .ready → bs = (tm.tile d.toNat).read 0 (shapeSize (tm.tile d.toNat).shape)) ∧
      Started (s.modTile l.launch l.team d.toNat (fun x => { x with readers := x.readers + 1 })) t' l ls
        { opOf s l u (.tst d.toNat) with srcs := srcOf g a 2, accs := ((l.execThreads u).flatMap (fun th => (List.range ((shapeSize (tm.tile d.toNat).shape + 31) / 32)).map (fun k =>
        ({ id := 0, thread := th, va := pairAt s l g a th + 32 * k, len := min 32 (shapeSize (tm.tile d.toNat).shape - 32 * k), opnd := 32 * k, data := (bs.drop (32 * k)).take 32 } : Access)))) }) ∧
  (∀ (d a z : BitVec 7) (u : Bool) s l ls g tm, Runs (.ldmeta d a z u) s l ls g → s.team? l.launch l.team = some tm → tm.tiles.length = tm.ntile →
    d.toNat < tm.nmeta → (∀ th ∈ l.execThreads u, Spans .load (2048) (viewOf s l g false th) (pairAt s l g a th) ∧ pairAt s l g a th % 32 = 0) →
    ∃ t' m, exec (.ldmeta d a z u) s = .next t' ∧ t' = { m with mmas := t'.mmas } ∧ t'.mmas.length = s.mmas.length ∧
      Started s m l ls { opOf s l u (.ldmeta d.toNat) with srcs := srcOf g a 2, accs := ((l.execThreads u).flatMap (fun th => (List.range ((2048 + 31) / 32)).map (fun k =>
        ({ id := 0, thread := th, va := pairAt s l g a th + 32 * k, len := min 32 (2048 - 32 * k), opnd := 32 * k } : Access)))) })

/-- TRING, by the lowest-numbered issuing thread, with EN 1 on a ring that is not enabled, whose members exist, are not
filling and belong to no ring, and which no copy entry feeds: the ring takes the descriptor with both pointers 0 and
its members become empty. With EN 0 an enabled ring that nothing uses takes the descriptor and its members become
ready; on a disabled ring nothing happens. TREL on an enabled ring that holds a tile moves the consumer pointer on by
one modulo 2^16; the tile becomes empty, or draining while something reads it. On a ring at or above NRING both raise
TILE_STATE, TRING also with a reserved bit or to enable an enabled ring, TREL on an empty or disabled ring.
(12_matrix_engine (R343, R345, R346, R347, R348, R363)) -/
def Obligations.TileRings : Prop :=
  (∀ (d a z : BitVec 7) (u : Bool) s l ls g tm, Runs (.tring d a z u) s l ls g → s.team? l.launch l.team = some tm →
    tm.tiles.length = tm.ntile → tm.rings.length = tm.nring → d.toNat < tm.nring →
    let w := (viewOf s l g true 0).v32 a
    let r : Ring := { desc := w }
    w.toNat / 2 ^ 10 % 2 ^ 21 = 0 →
    (r.en = true → (tm.ring d.toNat).en = false →
      (∀ k ∈ r.members, k < tm.ntile ∧ (tm.tile k).st ≠ .filling ∧ tm.member k = false) →
      (∀ c ∈ s.copies, ¬(c.launch = l.launch ∧ c.team = l.team ∧ c.tileRing = some d.toNat ∧ c.complete = false)) →
      ∃ t' v, exec (.tring d a z u) s = .next t' ∧ t'.lanes = l.after :: ls ∧ t'.beyond = s.beyond ∧ t'.team? l.launch l.team = some v ∧
        v.ring d.toNat = { desc := w, p := 0, c := 0 } ∧ (∀ k ∈ r.members, (v.tile k).st = .empty) ∧
        (∀ k, k ∉ r.members → v.tile k = tm.tile k) ∧ ∀ n, n ≠ d.toNat → v.ring n = tm.ring n) ∧
    (r.en = false → (tm.ring d.toNat).en = true →
      (∀ k ∈ (tm.ring d.toNat).members, k < tm.ntile ∧ (tm.tile k).st ≠ .filling ∧ (tm.tile k).st ≠ .draining) →
      (∀ m ∈ s.mmas, ¬(m.launch = l.launch ∧ m.team = l.team ∧ m.readsRing d.toNat = true)) →
      (∀ c ∈ s.copies, ¬(c.launch = l.launch ∧ c.team = l.team ∧ c.tileRing = some d.toNat ∧ c.complete = false)) →
      ∃ t' v, exec (.tring d a z u) s = .next t' ∧ t'.lanes = l.after :: ls ∧ t'.beyond = s.beyond ∧ t'.team? l.launch l.team = some v ∧
        (v.ring d.toNat).desc = w ∧ (∀ k ∈ (tm.ring d.toNat).members, (v.tile k).st = .ready) ∧
        ∀ n, n ≠ d.toNat → v.ring n = tm.ring n) ∧
    (r.en = false → (tm.ring d.toNat).en = false →
      exec (.tring d a z u) s = .next { s with lanes := l.after :: ls, freeCtr := s.freeCtr + 1 })) ∧
  (∀ (d a z : BitVec 7) (u : Bool) s l ls g tm, Runs (.tring d a z u) s l ls g → s.team? l.launch l.team = some tm →
    let w := (viewOf s l g true 0).v32 a
    tm.nring ≤ d.toNat ∨ w.toNat / 2 ^ 10 % 2 ^ 21 ≠ 0 ∨ (({ desc := w } : Ring).en = true ∧ (tm.ring d.toNat).en = true) →
      ∃ t', exec (.tring d a z u) s = .next t' ∧ Raised s t' l ls g { code := 0x0030, addr := 0, thread := l.lowest }) ∧
  (∀ (d y z : BitVec 7) (u : Bool) s l ls g tm, Runs (.trel d y z u) s l ls g → s.team? l.launch l.team = some tm →
    tm.tiles.length = tm.ntile → tm.rings.length = tm.nring →
    (d.toNat < tm.nring → (tm.ring d.toNat).en = true → (tm.ring d.toNat).p % 65536 ≠ (tm.ring d.toNat).c % 65536 →
      (tm.ring d.toNat).p < 65536 → (tm.ring d.toNat).c < 65536 →
      ∃ t' v, exec (.trel d y z u) s = .next t' ∧ t'.lanes = l.after :: ls ∧ t'.beyond = s.beyond ∧ t'.team? l.launch l.team = some v ∧
        (v.ring d.toNat).c = ((tm.ring d.toNat).c + 1) % 65536 ∧ (v.ring d.toNat).p = (tm.ring d.toNat).p ∧ (v.ring d.toNat).desc = (tm.ring d.toNat).desc ∧
        ((tm.ring d.toNat).tileAt (tm.ring d.toNat).c < tm.ntile → (v.tile ((tm.ring d.toNat).tileAt (tm.ring d.toNat).c)).st =
          if (tm.tile ((tm.ring d.toNat).tileAt (tm.ring d.toNat).c)).readers = 0 then .empty else .draining)) ∧
    (tm.nring ≤ d.toNat ∨ (tm.ring d.toNat).en = false ∨ (tm.ring d.toNat).p = (tm.ring d.toNat).c → ∃ t', exec (.trel d y z u) s = .next t' ∧
      Raised s t' l ls g { code := 0x0030, addr := 0, thread := l.lowest }))

/-- While an earlier local load, atomic or acquire of the group holds up the read of its parameter block, MMAI waits in
its lane (the model's reading, log 76). Else, where R364 finds nothing against any executing thread's block and
nothing is in the group's local stream, MMAI puts one operation for each executing thread in ascending order behind
those of its group: with the eight words of its block as they stand in local store; with no matrix operation in
flight, up to eight of at least one step are in the queue at once. They are one operation, under one flag. Nothing
else changes. A block address of the partner raises LOCAL_RANGE. (12_matrix_engine (R349, R350, R354, R364),
13_matrix_programs (R369)) -/
def Obligations.MatrixStart : Prop :=
  ∀ (x a z : BitVec 7) (u : Bool) s l ls g tm, Runs (.mmai x a z u) s l ls g → s.team? l.launch l.team = some tm →
    (s.blockWaits g = true → exec (.mmai x a z u) s = .next { s with lanes := { l with stalled := true } :: ls }) ∧
    (s.blockWaits g = false → mmaChecks u a s l g = none → g.stream = [] →
      ∃ t', exec (.mmai x a z u) s = .next t' ∧ t'.lanes = l.after :: ls ∧
        { t' with lanes := [], ops := [], mmas := [], nextId := 0, freeCtr := 0 } = { s with lanes := [], ops := [], mmas := [], nextId := 0, freeCtr := 0 } ∧
        t'.ops = s.ops ++ [{ opOf s l u .mmai with srcs := srcOf g a 1 }] ∧
        ∃ ms, t'.mmas = s.mmas ++ ms ∧
          ms.map (fun m => (m.thread, m.op, m.launch, m.team, m.gnum, m.words, m.fired)) =
            (l.execThreads u).map (fun th => (th, s.nextId, l.launch, l.team, l.gnum,
              (List.range 8).map (fun i => BitVec.ofNat 64 (tm.readNum (wordAt s l g a th % 2 ^ 19 + 8 * i) 8)), 0)) ∧
          (s.mmas = [] → (l.execThreads u).length ≤ 8 → (∀ m ∈ ms, 0 < m.steps) → ∀ m ∈ ms, m.issued = true)) ∧
    (∀ th, s.blockWaits g = false → (l.execThreads u).head? = some th → wordAt s l g a th / 2 ^ 19 % 2 = 1 → ∃ t', exec (.mmai x a z u) s = .next t' ∧
      Raised s t' l ls g { code := 0x0013, addr := wordAt s l g a th, thread := th })

/-- Where R381 finds nothing against any executing thread, PUT, PUTN, GET, MPUT, RATOM and RRED put one operation for each
executing thread on the fabric, in ascending order, with the four words of v[D], the barrier of v[A] (none for RATOM
and RRED), the order of its suffix and for RATOM its operation and type; with .rel it is a release. GBARV notes the
arrival of its group at the gang barrier named by the lowest-numbered issuing thread. Memory is as before. The model's
cut of n bytes from an address gives pieces that add up to n and lie each within one 512-byte block. (14_fabric_engine
(R374, R379, R380, R381, R382, R384, R385, R394)) -/
def Obligations.FabricWordsStart : Prop :=
  (∀ (d a : BitVec 7) (o : BitVec 2) (u : Bool) s l ls g, Runs (.put d a o u) s l ls g → fabChecks u (fun e => e.fabOp .put d a o.toNat 0 0) s l g = none →
    ∃ t', exec (.put d a o u) s = .next t' ∧ t'.lanes = l.after :: ls ∧ t'.mem = s.mem ∧ t'.launches = s.launches ∧ t'.ranges = s.ranges ∧
      (∃ p ∈ t'.ops, p.id = s.nextId ∧ p.flag = l.flagNow ∧ p.mask = l.issuing ∧ p.kind = .fabric ∧ p.dst = none ∧ p.rel = decide (o.toNat = 2)) ∧
      t'.fabs.map (fun f => (f.op, f.thread, f.kind, f.w0, f.w1, f.bar, f.order, f.o, f.ty)) =
        s.fabs.map (fun f => (f.op, f.thread, f.kind, f.w0, f.w1, f.bar, f.order, f.o, f.ty)) ++
          (l.execThreads u).map (fun th =>
            let ws := (viewOf s l g false th).z.vN 4 d
            (s.nextId, th, .put, ws.getD 1 0 ++ ws.getD 0 0, ws.getD 3 0 ++ ws.getD 2 0, wordAt s l g a th, o.toNat, 0, 0))) ∧
  (∀ (d a : BitVec 7) (o : BitVec 2) (u : Bool) s l ls g, Runs (.putn d a o u) s l ls g → fabChecks u (fun e => e.fabOp .putn d a o.toNat 0 0) s l g = none →
    ∃ t', exec (.putn d a o u) s = .next t' ∧ t'.lanes = l.after :: ls ∧ t'.mem = s.mem ∧ t'.launches = s.launches ∧ t'.ranges = s.ranges ∧
      (∃ p ∈ t'.ops, p.id = s.nextId ∧ p.flag = l.flagNow ∧ p.mask = l.issuing ∧ p.kind = .fabric ∧ p.dst = none ∧ p.rel = decide (o.toNat = 2)) ∧
      t'.fabs.map (fun f => (f.op, f.thread, f.kind, f.w0, f.w1, f.bar, f.order, f.o, f.ty)) =
        s.fabs.map (fun f => (f.op, f.thread, f.kind, f.w0, f.w1, f.bar, f.order, f.o, f.ty)) ++
          (l.execThreads u).map (fun th =>
            let ws := (viewOf s l g false th).z.vN 4 d
            (s.nextId, th, .putn, ws.getD 1 0 ++ ws.getD 0 0, ws.getD 3 0 ++ ws.getD 2 0, wordAt s l g a th, o.toNat, 0, 0))) ∧
  (∀ (d a : BitVec 7) (o : BitVec 2) (u : Bool) s l ls g, Runs (.get d a o u) s l ls g → fabChecks u (fun e => e.fabOp .get d a o.toNat 0 0) s l g = none →
    ∃ t', exec (.get d a o u) s = .next t' ∧ t'.lanes = l.after :: ls ∧ t'.mem = s.mem ∧ t'.launches = s.launches ∧ t'.ranges = s.ranges ∧
      (∃ p ∈ t'.ops, p.id = s.nextId ∧ p.flag = l.flagNow ∧ p.mask = l.issuing ∧ p.kind = .fabric ∧ p.dst = none ∧ p.rel = decide (o.toNat = 2)) ∧
      t'.fabs.map (fun f => (f.op, f.thread, f.kind, f.w0, f.w1, f.bar, f.order, f.o, f.ty)) =
        s.fabs.map (fun f => (f.op, f.thread, f.kind, f.w0, f.w1, f.bar, f.order, f.o, f.ty)) ++
          (l.execThreads u).map (fun th =>
            let ws := (viewOf s l g false th).z.vN 4 d
            (s.nextId, th, .get, ws.getD 1 0 ++ ws.getD 0 0, ws.getD 3 0 ++ ws.getD 2 0, wordAt s l g a th, o.toNat, 0, 0))) ∧
  (∀ (d a : BitVec 7) (o : BitVec 2) (u : Bool) s l ls g, Runs (.mput d a o u) s l ls g → fabChecks u (fun e => e.fabOp .mput d a o.toNat 0 0) s l g = none →
    ∃ t', exec (.mput d a o u) s = .next t' ∧ t'.lanes = l.after :: ls ∧ t'.mem = s.mem ∧ t'.launches = s.launches ∧ t'.ranges = s.ranges ∧
      (∃ p ∈ t'.ops, p.id = s.nextId ∧ p.flag = l.flagNow ∧ p.mask = l.issuing ∧ p.kind = .fabric ∧ p.dst = none ∧ p.rel = decide (o.toNat = 2)) ∧
      t'.fabs.map (fun f => (f.op, f.thread, f.kind, f.w0, f.w1, f.bar, f.order, f.o, f.ty)) =
        s.fabs.map (fun f => (f.op, f.thread, f.kind, f.w0, f.w1, f.bar, f.order, f.o, f.ty)) ++
          (l.execThreads u).map (fun th =>
            let ws := (viewOf s l g false th).z.vN 4 d
            (s.nextId, th, .mput, ws.getD 1 0 ++ ws.getD 0 0, ws.getD 3 0 ++ ws.getD 2 0, wordAt s l g a th, o.toNat, 0, 0))) ∧
  (∀ (d a : BitVec 7) (t : BitVec 3) (o : BitVec 4) (u : Bool) s l ls g, Runs (.ratom d a t o u) s l ls g → fabChecks u (fun e => e.fabOp .ratom d a 0 o.toNat t.toNat) s l g = none →
    ∃ t', exec (.ratom d a t o u) s = .next t' ∧ t'.lanes = l.after :: ls ∧ t'.mem = s.mem ∧ t'.launches = s.launches ∧ t'.ranges = s.ranges ∧
      (∃ p ∈ t'.ops, p.id = s.nextId ∧ p.flag = l.flagNow ∧ p.mask = l.issuing ∧ p.kind = .fabric ∧ p.dst = dstOf g d 2 ∧ p.rel = decide (0 = 2)) ∧
      t'.fabs.map (fun f => (f.op, f.thread, f.kind, f.w0, f.w1, f.bar, f.order, f.o, f.ty)) =
        s.fabs.map (fun f => (f.op, f.thread, f.kind, f.w0, f.w1, f.bar, f.order, f.o, f.ty)) ++
          (l.execThreads u).map (fun th =>
            let ws := (viewOf s l g false th).z.vN 4 d
            (s.nextId, th, .ratom, ws.getD 1 0 ++ ws.getD 0 0, ws.getD 3 0 ++ ws.getD 2 0, 0xFFFFFFFF, 0, o.toNat, t.toNat))) ∧
  (∀ (d a : BitVec 7) (o w u : Bool) s l ls g, Runs (.rred d a o w u) s l ls g → fabChecks u (fun e => e.fabOp .rred d a o.toNat 0 w.toNat) s l g = none →
    ∃ t', exec (.rred d a o w u) s = .next t' ∧ t'.lanes = l.after :: ls ∧ t'.mem = s.mem ∧ t'.launches = s.launches ∧ t'.ranges = s.ranges ∧
      (∃ p ∈ t'.ops, p.id = s.nextId ∧ p.flag = l.flagNow ∧ p.mask = l.issuing ∧ p.kind = .fabric ∧ p.dst = none ∧ p.rel = decide (o.toNat = 2)) ∧
      t'.fabs.map (fun f => (f.op, f.thread, f.kind, f.w0, f.w1, f.bar, f.order, f.o, f.ty)) =
        s.fabs.map (fun f => (f.op, f.thread, f.kind, f.w0, f.w1, f.bar, f.order, f.o, f.ty)) ++
          (l.execThreads u).map (fun th =>
            let ws := (viewOf s l g false th).z.vN 4 d
            (s.nextId, th, .rred, ws.getD 1 0 ++ ws.getD 0 0, ws.getD 3 0 ++ ws.getD 2 0, 0xFFFFFFFF, o.toNat, 0, w.toNat))) ∧
  (∀ (x a z : BitVec 7) (u : Bool) s l ls g, Runs (.gbarv x a z u) s l ls g →
    LocalByte s l (wordAt s l g a l.lowest) → wordAt s l g a l.lowest / 2 ^ 19 % 2 = 0 → wordAt s l g a l.lowest % 32 = 0 →
    exec (.gbarv x a z u) s = .next { s with
      lanes := l.after :: ls, freeCtr := s.freeCtr + 1, nextId := s.nextId + 1
      gangQ := s.gangQ ++ [{ id := s.nextId, launch := l.launch, team := l.team, gnum := l.gnum, addr := wordAt s l g a l.lowest, before := s.nextId }] }) ∧
  (∀ (va n : Nat), 0 < n → ((cuts va n).map (·.2)).sum = n ∧
    ∀ p ∈ cuts va n, 0 < p.2 ∧ p.1 + p.2 ≤ n ∧ (va + p.1) / 512 = (va + p.1 + p.2 - 1) / 512)

/-- The group that issues is one of the ready groups of its core that none ranks above; its clause enters execution with
Issuing(), the flags of its header are raised by its long-latency instructions, and nothing else changes but
translations that the core keeps and fill requests of its table walk. A clause that cannot be fetched or whose header
is bad raises FETCH_FAULT or ILLHDR in class ISSUE instead. At the end of a clause each issuing thread takes its
branch target or the next-clause address, YIELD, WSYNC and EXIT leave it parked, waiting or done, starvation counts go
on, a group whose threads are all done exits, and a pending trap halts its group. A completed operation leaves the
operations in flight, its flag falls by one, its results are in its destination registers. A team's oldest request,
within its budget and the free blocks, is granted; one for one block of the only team that runs on the core takes the
emergency block when no block is free and it is not lent. (01_device_overview (R19), 02_encoding (R31, R33),
04_group_execution (R103, R104, R105, R107, R112, R114, R120, R121)) -/
def Obligations.ClausesIssueAndEnd : Prop :=
  (∀ (s : State) (g h : Group), s.bestGroup (s.sub 0) = some g → h ∈ s.groups → (s.team? h.launch h.team).map (·.core) = some (s.sub 0) → s.ready h = true →
    rankAbove (s.rank h) (s.rank g) = false) ∧
  (∀ (s : State) g t pc x, (s.lanes.filter (fun l => decide (l.core = s.sub 0))).length < 128 → s.bestGroup (s.sub 0) = some g →
    s.group? g.launch g.team g.gnum = some g → s.team? g.launch g.team = some t → g.issueAddr = some pc →
    s.fetchClause (s.sub 0) g.launch pc = .ok x →
    ∃ t', exec .clauseIssue s = .next t' ∧
      t'.lanes = s.lanes ++ [{ core := s.sub 0, launch := g.launch, team := g.team, gnum := g.gnum, claddr := pc, wait := x.hdr.wait.toNat
                               seta := x.hdr.seta, setb := x.hdr.setb, words := x.words, lits := x.lits, issuing := g.issuing pc
                               wide := t.wideTiles }] ∧
      (∃ g', t'.group? g.launch g.team g.gnum = some g' ∧ { g' with fcnt := g.fcnt, readySince := g.readySince } = g ∧ g'.readySince = none ∧
        (g.fcnt.length = 12 → ∀ f < 12, g'.fcnt.getD f 0 = g.fcnt.getD f 0 +
          (if f = x.hdr.seta ∧ 1 ≤ llCount x.words then 1 else 0) + (if f = x.hdr.setb ∧ 2 ≤ llCount x.words then 1 else 0))) ∧
      { t' with lanes := [], groups := [], cores := [], dies := [], fills := [], nextId := 0, freeCtr := 0 } =
        { s with lanes := [], groups := [], cores := [], dies := [], fills := [], nextId := 0, freeCtr := 0 } ∧
      t'.dies.map (fun (d : Die) => { d with walker := [] }) = s.dies.map (fun (d : Die) => { d with walker := [] }) ∧
      (∀ c, { t'.core c with tlb := [], lastPage := [] } = { s.core c with tlb := [], lastPage := [] }) ∧
      (∀ h ∈ s.groups, ¬(h.launch = g.launch ∧ h.team = g.team ∧ h.gnum = g.gnum) → h ∈ t'.groups)) ∧
  (∀ (s : State) g t pc, (s.lanes.filter (fun l => decide (l.core = s.sub 0))).length < 128 → s.bestGroup (s.sub 0) = some g →
    s.group? g.launch g.team g.gnum = some g → s.team? g.launch g.team = some t → g.issueAddr = some pc → dieOfCore t.core < s.dies.length →
    (∀ a code h, s.fetchClause (s.sub 0) g.launch pc = .badFetch a code h →
      ∃ t' g' r, exec .clauseIssue s = .next t' ∧ t'.lanes = s.lanes ∧ t'.mem = s.mem ∧ t'.ops = s.ops ∧
        t'.group? g.launch g.team g.gnum = some g' ∧ { g' with halt := g.halt, wait := g.wait, readySince := g.readySince } = g ∧ g'.halt = .faulted ∧
        (t'.die (dieOfCore t.core)).faultWait = (s.die (dieOfCore t.core)).faultWait ++ [r] ∧
        r.code = 0x0005 ∧ r.cls = 1 ∧ r.addr = a ∧ r.detail = BitVec.ofNat 32 (code * 65536) ∧ r.claddr = pc ∧ r.issuing = g.issuing pc) ∧
    (∀ w, s.fetchClause (s.sub 0) g.launch pc = .badHeader w →
      ∃ t' g' r, exec .clauseIssue s = .next t' ∧ t'.lanes = s.lanes ∧ t'.mem = s.mem ∧ t'.ops = s.ops ∧
        t'.group? g.launch g.team g.gnum = some g' ∧ { g' with halt := g.halt, wait := g.wait, readySince := g.readySince } = g ∧ g'.halt = .faulted ∧
        (t'.die (dieOfCore t.core)).faultWait = (s.die (dieOfCore t.core)).faultWait ++ [r] ∧
        r.code = 0x0003 ∧ r.cls = 1 ∧ r.detail = w ∧ r.claddr = pc ∧ r.issuing = g.issuing pc)) ∧
  (∀ (s : State) l ls g t, s.lanes = l :: ls → l.words.length ≤ l.idx → s.laneGroup? l = some g → s.team? l.launch l.team = some t →
    (∃ t', exec .clauseEnd s = .next t' ∧ t'.lanes = ls ∧ t'.mem = s.mem ∧ t'.launches = s.launches) ∧
    (l.bwait = none → g.stream = [] → g.exited = false →
      ∃ t' g', exec .clauseEnd s = .next t' ∧ t'.laneGroup? l = some g' ∧ t'.ops = s.ops ∧ g'.thr.length = g.thr.length ∧
        (∀ i th, g.thr[i]? = some th → ∃ th', g'.thr[i]? = some th' ∧
          th'.pc = (if l.issuing.getLsbD i then BitVec.ofNat 57 (((l.newPc.find? (fun p => p.1 == i)).map (·.2)).getD l.nextClause) else th.pc) ∧
          (l.issuing.getLsbD i = true → th.st = .run → th'.starve = 0 ∧
            (l.fin = none → th'.st = .run) ∧ (l.fin = some .yield → th'.st = .park ∨ th'.st = .run) ∧
            (l.fin = some .wsync → (th'.st = .wait ∨ th'.st = .run) ∧ th'.wmask = ((l.masks.find? (fun m => m.1 == i)).map (·.2)).getD 0) ∧
            (l.fin = some .exit → th'.st = .done)) ∧
          (l.issuing.getLsbD i = false → (th.st = .run ∨ th.st = .park → th'.st = .run ∧ th'.starve = min (th.starve + 1) 4096) ∧
            (th.st = .done → th'.st = .done))) ∧
        ((∀ th ∈ g'.thr, th.st = .done) → l.trap = none → g'.exited = true) ∧
        ((∃ th ∈ g'.thr, th.st ≠ .done) → g'.exited = false ∧ g'.regs = g.regs ∧ g'.nblk = g.nblk) ∧
        ((∃ th ∈ g'.thr, th.st = .run ∨ th.st = .park) → l.trap = none → g'.halt = g.halt) ∧
        (∀ c n, l.trap = some (c, n) → (∀ th ∈ g'.thr, th.st ≠ .wait) → g'.halt = .trapped ∧
          (dieOfCore l.core < s.dies.length → ∃ r, (t'.die (dieOfCore l.core)).faultWait = (s.die (dieOfCore l.core)).faultWait ++ [r] ∧
            r.code = c ∧ r.cls = 2 ∧ r.arg = n ∧ r.claddr = l.claddr ∧ r.issuing = l.issuing)) ∧
        ((∃ th ∈ g'.thr, th.st = .wait) → (∀ th ∈ g'.thr, th.st ≠ .run ∧ th.st ≠ .park) → g'.halt = .faulted ∧
          (dieOfCore l.core < s.dies.length → ∃ r, (t'.die (dieOfCore l.core)).faultWait = (s.die (dieOfCore l.core)).faultWait ++ [r] ∧
            r.code = 0x0006 ∧ r.cls = 2 ∧ r.claddr = l.claddr)))) ∧
  (∀ (s : State) o, s.op? (s.sub 0) = some o → s.llReady o = true →
    (∃ t', exec .llComplete s = .next t' ∧ t'.lanes = s.lanes ∧ (∀ p ∈ t'.ops, p.id ≠ o.id) ∧
      ((∀ b, o.kind ≠ .flush b) → t'.mem = s.mem)) ∧
    (∀ g, s.group? o.launch o.team o.gnum = some g → g.exited = false → g.released = [] → o.limit = 512 → g.fcnt.length = 12 →
      (∀ p ∈ s.ops, p.id ≠ o.id → p.srcs = []) →
      ∃ t' g', exec .llComplete s = .next t' ∧ t'.group? o.launch o.team o.gnum = some g' ∧
        (∀ f < 12, g'.fcnt.getD f 0 = if f = o.flag then g.fcnt.getD f 0 - 1 else g.fcnt.getD f 0) ∧
        (∀ r th, th < 32 → g'.at_ r th = match o.dst with
          | none => g.at_ r th
          | some (b, n) => if o.mask.getLsbD th ∧ b ≤ r ∧ r < b + min n (s.llWords o th).length ∧ r < 512 then (s.llWords o th).getD (r - b) 0
              else g.at_ r th))) ∧
  (∀ (s : State) (t : Team) rest g, s.teams.filter (fun t => decide (t.core = s.sub 0) && decide (t.ctx = .run)) = t :: rest → g ∈ s.requests t.launch t.idx →
    (∀ h ∈ s.requests t.launch t.idx, h ≠ g → g.rbAge < h.rbAge) → t.held.getD g.role 0 + g.rbreq ≤ t.budget.getD g.role 0 →
    (g.rbreq ≤ t.free → exec .rbacqGrant s = .next ((s.modGroup g.launch g.team g.gnum (fun h => { h with
        regs := h.regs.keep (fun k => decide (k < 512 * h.nblk)), nblk := h.nblk + g.rbreq, rbreq := 0 })).modTeam
      g.launch g.team (fun u => { u with held := setNth u.held g.role (u.held.getD g.role 0 + g.rbreq) })).redraw) ∧
    (rest = [] → s.team? t.launch t.idx = some t → g.rbreq = 1 → t.free = 0 → (s.core (s.sub 0)).emLent = false →
      exec .rbacqGrant s = .next (((s.modGroup g.launch g.team g.gnum (fun h => { h with
        regs := h.regs.keep (fun k => decide (k < 512 * h.nblk)), nblk := h.nblk + 1, rbreq := 0, emrg := true })).modTeam
        g.launch g.team (fun u => { u with held := setNth u.held g.role (u.held.getD g.role 0 + 1), emlent := true })).modCore t.core
          (fun k => { k with emLent := true })).redraw))

/-- The oldest waiting record enters its die's fault queue. A record taken from it resumes its group (BAR_INVAL, and a
trap or break without debug), stops its launch, whose FIRST is the first such record (MACHINE_CHECK also fails its
teams), or stops it with debug set and keeps it; an ASYNC record is logged. A launch that is to be pre-empted has its
running teams halt (and drain at once where no clause of theirs is in execution), and teams that wait for resources or
load go back to SAVED. Once its unit has drained, a team is SAVING; it writes its image (State.imageBytes; the model's
readings of its fields are logs 40, 41 and 44) to its save area and is SAVED, or FAILED where the area cannot take it;
of an area on one page that its die has in its table cache, the home then reads as the image but for bytes of
accumulating blocks, and every other byte stays. A resume request is remembered while the team, or another of its
unit, is on its way to SAVED; with the whole unit SAVED it puts the team in WAITING, or in FAILED where the image is
refused; with the unit's resources reserved it is LOADING (FAILED where its die or core can no longer hold it), and
with its image loaded in RUN. (06_traps_and_context (R167, R168, R169, R170, R171, R172, R175, R184, R185, R186),
08_translation (R246)) -/
def Obligations.FaultQueueAndContexts : Prop :=
  (∀ (s : State) r rest, (s.die (s.sub 0)).faultWait = r :: rest → (s.die (s.sub 0)).faultQ.length < 1024 →
    exec .faultRecordEnqueue s = .next (s.modDie (s.sub 0) (fun d => { d with faultQ := d.faultQ ++ [r], faultWait := rest })).redraw) ∧
  (∀ (s : State) r rest, (s.die (s.sub 0)).faultQ = r :: rest →
    (∃ t', exec .faultRecordHandling s = .next t') ∧
    (s.launch? r.launch = none → exec .faultRecordHandling s = .next (s.modDie (s.sub 0) (fun d => { d with faultQ := rest })).redraw) ∧
    (∀ x, s.launch? r.launch = some x → x.phase ≠ .over → x.stopping = false → (∀ t, s.team? r.launch r.team = some t → t.ctx = .run) →
      (r.cls < 5 → (r.code = 0x0040 ∨ (r.code = 0x0007 ∨ r.code = 0x0008) ∧ x.debug = false) → ∀ g, s.group? r.launch r.team r.gnum = some g →
        g.exitDue = false → g.wait = .none → (∀ h ∈ s.groups, h.stream = []) →
        ∃ t' g', exec .faultRecordHandling s = .next t' ∧ t'.group? r.launch r.team r.gnum = some g' ∧ g'.halt = .none ∧ g'.thr = g.thr ∧
          g'.regs = g.regs ∧ g'.fcnt = g.fcnt ∧ g'.lastf = BitVec.ofNat 32 (r.arg % 128 * 65536 + r.code % 65536) ∧ t'.launch? r.launch =
            some { x with traps := if r.code = 0x0040 then x.traps else x.traps + 1
                          tovf := if r.code ≠ 0x0040 ∧ 256 ≤ x.traps then x.tovf + 1 else x.tovf }) ∧
      ((r.cls = 6 ∧ r.code ≠ Code.machineCheck ∨ r.cls < 5 ∧ r.code ≠ 0x0040 ∧ x.debug = false ∧ r.code ≠ 0x0007 ∧ r.code ≠ 0x0008) →
        exec .faultRecordHandling s = .next ((s.modDie (s.sub 0) (fun d => { d with faultQ := rest })).modLaunch r.launch (fun x => { x with
          stopping := true, kept := false, held := false, first := x.first.orElse (fun _ => some r) })).redraw) ∧
      (r.cls = 6 → r.code = Code.machineCheck →
        exec .faultRecordHandling s = .next (((s.modDie (s.sub 0) (fun d => { d with faultQ := rest })).modLaunch r.launch (fun x => { x with
          stopping := true, kept := false, held := false, first := x.first.orElse (fun _ => some r) })).modAlive r.launch
            (fun t => { t with ctx := .failed })).redraw) ∧
      (r.cls < 5 → r.code ≠ 0x0040 → x.debug = true →
        exec .faultRecordHandling s = .next (((s.modDie (s.sub 0) (fun d => { d with faultQ := rest })).modLaunch r.launch (fun x => { x with
          stopping := true, kept := true, first := x.first.orElse (fun _ => some r) })).modTeam r.launch r.team
            (fun t => { t with faults := t.faults ++ [r], acted := t.acted ++ [r.gnum] })).redraw) ∧
      (r.cls = 5 → ∃ t' x', exec .faultRecordHandling s = .next t' ∧ t'.launch? r.launch = some x' ∧ x'.async = true ∧ x'.traps = x.traps + 1 ∧
        x'.stopping = false ∧ t'.groups = s.groups))) ∧
  (∀ (s : State) x t, s.launch? (s.sub 0) = some x → (x.held || x.stopping || x.victim) = true → t ∈ s.teams → t.launch = x.num → t.exited = false →
    t.ctx = .run ∨ t.ctx = .waiting ∨ t.ctx = .loading →
    ∃ t', exec .preemptionRequest s = .next t' ∧ t'.mem = s.mem ∧ t'.groups = s.groups ∧ t'.lanes = s.lanes ∧ t'.ops = s.ops ∧
      ∀ T u, s.team? x.num T = some u → u.exited = false → ∃ u', t'.team? x.num T = some u' ∧ { u' with ctx := u.ctx, frozen := u.frozen, wild := u.wild } = u ∧
        u'.ctx = (match u.ctx with
          | .run | .halting => if s.lanes.any (fun l => l.launch == x.num && l.team == T) then Ctx.halting else .draining
          | .waiting | .loading => .saved
          | c => c)) ∧
  (∀ (s : State) t, s.team? (s.sub 0) (s.sub 1) = some t → t.ctx = .draining → t.exited = false →
    (∀ u ∈ s.unitOf t, u.ctx = .saving ∨ u.ctx = .saved ∨ u.ctx = .waiting ∨ (u.ctx = .draining ∧ s.drained u = true)) →
    ∃ t' u, exec .drainComplete s = .next t' ∧ t'.team? t.launch t.idx = some u ∧ u.ctx = .saving ∧ u.loc = t.loc ∧ t'.mem = s.mem ∧
      t'.lanes = s.lanes ∧ t'.launches = s.launches ∧
      (∀ r ∈ t'.ranges, r.launch = t.launch → r.team = t.idx → r.st = .saved)) ∧
  (∀ (s : State) x t, s.launch? (s.sub 0) = some x → s.team? (s.sub 0) (s.sub 1) = some t → t.ctx = .saving →
    let s1 := s.collectFaults t
    ∀ u, s1.team? t.launch t.idx = some u →
      (s1.saveAreaOk x u = true → (s1.imageBytes u).length ≤ x.saveSize →
        ∃ t' u', exec .imageWritten s = .next t' ∧ t'.team? t.launch t.idx = some u' ∧ u'.ctx = .saved ∧ u'.image = true ∧ t'.lanes = s.lanes ∧
          (∀ o ∈ t'.ops, ¬(o.launch = t.launch ∧ o.team = t.idx))) ∧
      (∀ e, s1.saveAreaOk x u = true → (s1.imageBytes u).length ≤ x.saveSize → s1.RindOk → x.saveBase u.idx + x.saveSize ≤ windowBase →
        (∀ a, x.saveBase u.idx ≤ a → a < x.saveBase u.idx + x.saveSize →
          (s1.die (dieOfCore u.core)).engineTlb.find? (fun c => c.maps x.num a) = some e) →
        ∀ t', exec .imageWritten s = .next t' → let at_ := (e.tr s1 (dieOfCore u.core / 2)).phys
          (∀ i < (s1.imageBytes u).length, s1.rangeAt (at_ (x.saveBase u.idx + i)) = none →
            t'.homeByte (at_ (x.saveBase u.idx + i)) = (s1.imageBytes u).getD i 0) ∧
          ∀ p, ¬(at_ (x.saveBase u.idx) ≤ p ∧ p < at_ (x.saveBase u.idx) + (s1.imageBytes u).length) → t'.homeByte p = s1.homeByte p) ∧
      (x.stopping = false → s1.mem = s.mem ∧ ∀ p, s1.homeByte p = s.homeByte p) ∧
      ((s1.saveAreaOk x u = false ∨ x.saveSize < (s1.imageBytes u).length) →
        ∃ t' u', exec .imageWritten s = .next t' ∧ t'.team? t.launch t.idx = some u' ∧ u'.ctx = .failed ∧ t'.mem = s1.mem ∧ t'.groups = s.groups ∧
          t'.ops = s.ops)) ∧
  (∀ (s : State) x t, s.launch? (s.sub 0) = some x → s.team? (s.sub 0) (s.sub 1) = some t → x.held = false → x.stopping = false → t.exited = false →
    ((t.ctx = .halting ∨ t.ctx = .draining ∨ t.ctx = .saving) → x.victim = false → t.resume = false →
      exec .resumeRequest s = .next (s.modTeam t.launch t.idx (fun t => { t with resume := true })).redraw) ∧
    (t.ctx = .saved → t.resume = false → (∃ u ∈ s.unitOf t, u.ctx ≠ .saved ∧ u.ctx ≠ .waiting) →
      exec .resumeRequest s = .next (s.modTeam t.launch t.idx (fun t => { t with resume := true })).redraw) ∧
    (t.ctx = .saved → (∀ u ∈ s.unitOf t, u.ctx = .saved ∨ u.ctx = .waiting) → s.restoreFault x t = none →
      exec .resumeRequest s = .next ((s.modLaunch x.num (fun x => { x with victim := false })).modTeam t.launch t.idx (fun t => { t with
        ctx := .waiting, resume := false, frozen := some (s.imageCells x t) })).redraw) ∧
    (∀ code, t.ctx = .saved → (∀ u ∈ s.unitOf t, u.ctx = .saved ∨ u.ctx = .waiting) → s.restoreFault x t = some code → ∃ t' u, exec .resumeRequest s = .next t' ∧ t'.team? t.launch t.idx = some u ∧
      u.ctx = .failed ∧ t'.mem = s.mem ∧ t'.groups = s.groups)) ∧
  (∀ (s : State) x t, s.launch? (s.sub 0) = some x → s.team? (s.sub 0) (s.sub 1) = some t → t.ctx = .waiting → t.exited = false →
    (∀ code, s.restoreLate x t = some code → ∃ t' u, exec .resourcesReserved s = .next t' ∧ t'.team? t.launch t.idx = some u ∧
      u.ctx = .failed ∧ t'.mem = s.mem ∧ t'.groups = s.groups) ∧
    (s.restoreLate x t = none → (∀ u ∈ s.unitOf t, u.ctx = .waiting ∧ s.canReserve x u = true) → s.mayTake x.num = true →
    ∃ t', exec .resourcesReserved s = .next t' ∧ t'.mem = s.mem ∧ t'.groups = s.groups ∧
      ∀ u ∈ s.unitOf t, ∃ u', t'.team? u.launch u.idx = some u' ∧ u'.ctx = .loading)) ∧
  (∀ (s : State) x t, s.launch? (s.sub 0) = some x → s.team? (s.sub 0) (s.sub 1) = some t → t.ctx = .loading →
    let rd := s.image x t
    s.roomForAll ((accItems rd).1.zipIdx.map (fun o => s.rangeIn rd t o.2 o.1)) = true →
    (s.core t.core).sideLog.length + (itemsAt rd 13 32).length ≤ 512 →
    ∃ t' u, exec .loadComplete s = .next t' ∧ t'.team? t.launch t.idx = some u ∧ u.ctx = .run ∧ u.image = false ∧ u.core = t.core ∧ u.slot = t.slot)

/-- While the rind agrees with memory: writing bytes of one grain at their home (allocating, evicting and writing back
blocks as R262, R264, R266 and R439 say, or going straight to die scratch or the mailbox window) makes those of them
that no accumulating block holds read as written and leaves every byte outside reading as before; a fill, and dropping
any blocks of a die, change no byte. Each keeps the rind in agreement with memory, and memory in its canonical form.
(07_memory_engine (R188), 09_near_cache_engine (R262, R264, R266, R439)) -/
def Obligations.HomeWriteThenRead : Prop :=
  (∀ (s : State) (pa grain : Nat) (bs : List Byte), s.RindOk → grain = 32 ∨ grain = 128 ∨ grain = 512 → pa % grain + bs.length ≤ grain →
    (s.homeWrite pa grain bs).RindOk ∧ (Memory.wf s.mem = true → Memory.wf (s.homeWrite pa grain bs).mem = true) ∧
    (∀ p, ¬(pa ≤ p ∧ p < pa + bs.length) → (s.homeWrite pa grain bs).homeByte p = s.homeByte p) ∧
    ∀ p, pa ≤ p → p < pa + bs.length → s.rangeAt p = none → (s.homeWrite pa grain bs).homeByte p = bs.getD (p - pa) 0) ∧
  (∀ (s : State) (d : Nat) (q : Block → Bool), s.RindOk →
    (s.dropBlocks d q).RindOk ∧ (Memory.wf s.mem = true → Memory.wf (s.dropBlocks d q).mem = true) ∧
    ∀ p, (s.dropBlocks d q).homeByte p = s.homeByte p) ∧
  (∀ (s : State) (f : Fill), s.RindOk → (f.grain = 32 ∨ f.grain = 128 ∨ f.grain = 512) → f.lo ≤ f.hi → f.hi < 4096 / f.grain →
    (f.replica = false → dieOfPa (f.frame * 4096) = f.die ∧ f.frame * 4096 < 2 ^ 60 ∧ s.inMailbox (f.frame * 4096) = false) →
    (s.completeFill f).RindOk ∧ (Memory.wf s.mem = true → Memory.wf (s.completeFill f).mem = true) ∧
    ∀ p, (s.completeFill f).homeByte p = s.homeByte p)

/-- An entry at the head of its store queue, with every earlier load performed, no release pending and its instruction
over (or the entry an ACCSCALE or an ACCZERO), is put on its core's path to its home, or, of an accumulation, is
marked sent; memory stays. The first entry of a core's path to a die performs there: of a plain store within one grain
its bytes (but those of an accumulating block) are then read as written, a reduction leaves the sum, minimum, maximum
or logical result of R58 and R290, both leave every byte outside, and an atomic returns the old value and stores the
value of its operation (a failed compare-and-swap stores nothing). The acknowledgement takes an entry from the path
and, where no other operation is in flight and nothing is logged, from the store queue. A load or a prefetch that
waits, may perform, does not hit and has no fill coming is sent; a load served from die scratch takes the bytes of the
home with its group's own earlier stores over them, and one that hits the L1 takes the bytes of the L1 with those
stores over them (bytes of open ranges are free values in both); a waiting atomic is put on the path; a grain that the
home does not hold and has room for is asked for by a fill, which changes no byte read; a fill that arrives is the one
completed. Served data that reaches the core ends the access. A release of an operation in flight performs once what
it waits for is done. A promotion takes its turn, and covers what stands before it on its victim (State.coverable: the
model's reading, log 17); once those stores are gone it invalidates the victim's L1 but for the lines of R pages.
(07_memory_engine (R188, R191, R196, R197, R200, R204, R207, R221), 09_near_cache_engine (R264, R290)) -/
def Obligations.MemoryEvents : Prop :=
  (∀ (s : State) g e q, s.group? (s.sub 0) (s.sub 1) (s.sub 2) = some g → g.sq = e :: q → e.left = false → e.relScope = 0 →
    s.readsDone g.launch g.team g.gnum e.op = true →
    ((s.op? e.op).isNone = true ∨ (∃ r, e.kind = .scale r) ∨ ∃ n, e.kind = .zero n) →
    ((∃ r, e.kind = .contrib r ∨ e.kind = .scale r) → exec .storeQueueDepart s = .next ({ s.modGroup g.launch g.team g.gnum (fun h => { h with
        sq := updWhere (fun x => x.id == e.id) (fun x => { x with left := true }) h.sq }) with
      contribs := updWhere (fun c => c.entry == e.id) (fun c => { c with sent := true }) s.contribs }).redraw) ∧
    ((∀ r, e.kind ≠ .contrib r ∧ e.kind ≠ .scale r) →
      ∃ t' x, exec .storeQueueDepart s = .next t' ∧ t'.mem = s.mem ∧ t'.lanes = s.lanes ∧
        x ∈ (t'.core (s.coreOf g.launch g.team)).path ∧
        x.die = e.tr.home ∧ x.applied = false ∧ x.access = e.id ∧ (x.store = some e ∨ x.store = some { e with left := true }))) ∧
  (∀ (s : State) x, (s.core (s.sub 0)).path.find? (fun x => decide (x.die = s.sub 1) && !x.applied) = some x → x.access < s.nextId →
    ∃ t', exec .homeApply s = .next t' ∧ t'.lanes = s.lanes ∧
      (∀ y ∈ (t'.core (s.sub 0)).path, y.access = x.access → y.applied = true) ∧
      (∀ e va bs, x.store = some e → e.kind = .plain → e.parts = [(va, bs)] → s.RindOk → e.tr.phys va % grainOf e.tr.leaf + bs.length ≤ grainOf e.tr.leaf →
        (∀ p, ¬(e.tr.phys va ≤ p ∧ p < e.tr.phys va + bs.length) → t'.homeByte p = s.homeByte p) ∧
        ∀ p, e.tr.phys va ≤ p → p < e.tr.phys va + bs.length → s.rangeAt p = none → t'.homeByte p = bs.getD (p - e.tr.phys va) 0) ∧
      (∀ e va bs k w, x.store = some e → e.kind = .red k w ∨ e.kind = .redi k w → e.parts = [(va, bs)] → s.RindOk →
        let pa := e.tr.phys va
        let n := if w then 8 else 4
        pa % grainOf e.tr.leaf + n ≤ grainOf e.tr.leaf → (∀ i < n, s.rangeAt (pa + i) = none) →
        (∀ p, ¬(pa ≤ p ∧ p < pa + n) → t'.homeByte p = s.homeByte p) ∧
        (e.kind = .red k w → t'.homeBytes pa n = bytesOf (let f := if w then Fmt.f64 else Fmt.f32
          if k = 2 then f.minMax false (s.homeNum pa n) (numOf bs) else if k = 3 then f.minMax true (s.homeNum pa n) (numOf bs)
          else f.add .rne (s.homeNum pa n) (numOf bs)) n) ∧
        (e.kind = .redi k w → t'.homeBytes pa n = bytesOf (rediNew k w (s.homeNum pa n) (numOf bs)) n)) ∧
      (∀ o a t k ty, x.store = none → s.op? x.op = some o → o.kind = .atom k ty → o.accs.find? (fun a => a.id == x.access) = some a → a.tr = some t →
        a.unpred = false → 0 < a.len → (∀ i < a.len, s.rangeAt (t.phys a.va + i) = none) → s.RindOk → s.loadsApart o.id → t.phys a.va % grainOf t.leaf + a.len ≤ grainOf t.leaf →
        (∃ o' a', t'.op? o.id = some o' ∧ o'.accs.find? (fun a => a.id == x.access) = some a' ∧ a'.st = .served ∧
          a'.data = s.homeBytes (t.phys a.va) a.len) ∧
        t'.homeBytes (t.phys a.va) a.len =
          match atomNew k (BitVec.ofNat 3 ty) (s.homeNum (t.phys a.va) a.len) a.opnd a.opnd2 with
          | some v => bytesOf v a.len
          | none => s.homeBytes (t.phys a.va) a.len)) ∧
  (∀ o x : BitVec 32, rediNew 0 false o.toNat x.toNat = (o + x).toNat ∧ rediNew 1 false o.toNat x.toNat = (if o.slt x then o else x).toNat ∧
    rediNew 2 false o.toNat x.toNat = (if o.ult x then o else x).toNat ∧ rediNew 3 false o.toNat x.toNat = (if o.slt x then x else o).toNat ∧
    rediNew 4 false o.toNat x.toNat = (if o.ult x then x else o).toNat ∧ rediNew 5 false o.toNat x.toNat = (o &&& x).toNat ∧
    rediNew 6 false o.toNat x.toNat = (o ||| x).toNat ∧ rediNew 7 false o.toNat x.toNat = (o ^^^ x).toNat) ∧
  (∀ o x : BitVec 64, rediNew 0 true o.toNat x.toNat = (o + x).toNat ∧ rediNew 1 true o.toNat x.toNat = (if o.slt x then o else x).toNat ∧
    rediNew 2 true o.toNat x.toNat = (if o.ult x then o else x).toNat ∧ rediNew 3 true o.toNat x.toNat = (if o.slt x then x else o).toNat ∧
    rediNew 4 true o.toNat x.toNat = (if o.ult x then x else o).toNat ∧ rediNew 5 true o.toNat x.toNat = (o &&& x).toNat ∧
    rediNew 6 true o.toNat x.toNat = (o ||| x).toNat ∧ rediNew 7 true o.toNat x.toNat = (o ^^^ x).toNat) ∧
  (∀ (s : State) k x, s.cores.find? (fun k => k.path.any (fun x => x.applied && x.access == s.sub 0)) = some k → s.core k.id = k →
    k.path.find? (fun x => x.applied && x.access == s.sub 0) = some x → s.sub 0 < s.nextId →
    ∃ t', exec .storeAcknowledgement s = .next t' ∧ t'.mem = s.mem ∧ t'.dies.map (·.blocks) = s.dies.map (·.blocks) ∧
      (∀ y ∈ (t'.core k.id).path, y.access ≠ s.sub 0) ∧
      (k.sideLog = [] → s.ops = [] → ∀ g', t'.group? x.launch x.team x.gnum = some g' → ∀ e ∈ g'.sq, e.id ≠ s.sub 0)) ∧
  (∀ (s : State) o a t, s.op? (s.sub 0) = some o → o.accs.find? (fun a => a.id == s.sub 1) = some a → a.tr = some t →
    (a.st = .waiting → ((∃ ty, o.kind = .load ty) ∨ (∃ ty k, o.kind = .span ty k) ∨ o.kind = .pref) →
      s.mayPerform o a = true →
      (o.ordinary && s.cacheable (s.coreOf o.launch o.team) t (t.phys a.va) && ((s.core (s.coreOf o.launch o.team)).hits (t.phys a.va) a.len ||
        s.fillComing (s.coreOf o.launch o.team) a t)) = false →
      exec .homeRead s = .next (({ s with nextId := s.nextId + 1 } : State).modAcc o.id a.id (fun a => { a with st := .sent, sentAt := s.nextId })).redraw) ∧
    (∀ ty, a.st = .sent → o.kind = .load ty → t.scratch = true → a.unpred = false → s.mayPerform o a = true → s.loadsApart o.id →
      (∀ x ∈ (s.core (s.coreOf o.launch o.team)).path, x.die = t.home → x.applied = true) →
      ∃ t' o' a', exec .homeRead s = .next t' ∧ t'.mem = s.mem ∧ t'.op? o.id = some o' ∧ o'.accs.find? (fun a => a.id == s.sub 1) = some a' ∧
        a'.st = .served ∧ a'.data = s.maskOpen (t.phys a.va) a.id (overlays (t.phys a.va) (s.readHome none (t.phys a.va) a.len a.id)
          (s.ownStores (s.coreOf o.launch o.team) o.launch o.team o.gnum o.id true))) ∧
    (∀ k ty, a.st = .waiting → o.kind = .atom k ty → s.mayPerform o a = true →
      ∃ t', exec .homeRead s = .next t' ∧ t'.mem = s.mem ∧ (t'.core (s.coreOf o.launch o.team)).path =
        (s.core (s.coreOf o.launch o.team)).path ++ [{ die := t.home, launch := o.launch, team := o.team, gnum := o.gnum, op := o.id, access := a.id, store := none, at_ := s.nextId }]) ∧
    (∀ ty, a.st = .sent → o.kind = .load ty → t.scratch = false → replicaDie (s.coreOf o.launch o.team) t = none → s.mayPerform o a = true →
      (∀ x ∈ (s.core (s.coreOf o.launch o.team)).path, x.die = t.home → x.applied = true) → s.RindOk → s.fills = [] → s.inMailbox (t.phys a.va) = false →
      (s.matchGrain t.home (t.phys a.va / 4096) (grainOf t.leaf)).held (t.phys a.va) (grainOf t.leaf) = false →
      roomFor (s.matchGrain t.home (t.phys a.va / 4096) (grainOf t.leaf)) t.home (t.phys a.va / 4096) (grainOf t.leaf) = true →
      dieOfPa (t.phys a.va) = t.home →
      ∃ t' f, exec .homeRead s = .next t' ∧ t'.fills = [f] ∧ f.die = t.home ∧ f.frame = t.phys a.va / 4096 ∧
        f.lo = t.phys a.va % 4096 / grainOf t.leaf ∧ f.lo ≤ f.hi ∧ f.replica = false ∧ t'.ops = s.ops ∧ ∀ p, t'.homeByte p = s.homeByte p)) ∧
  (∀ (s : State) f, s.fills.find? (fun f => f.id == s.sub 0) = some f →
    exec .fillComplete s = .next (s.completeFill f).redraw ∧ (s.completeFill f).fills = s.fills.filter (fun g => g.id != f.id)) ∧
  (∀ (s : State) o a t, s.op? (s.sub 0) = some o → o.accs.find? (fun a => a.id == s.sub 1) = some a → a.tr = some t →
    (a.st = .served → (∀ k ty, o.kind ≠ .atom k ty) → o.kind ≠ .pref →
      ∃ t' o' a', exec .l1Fill s = .next t' ∧ t'.mem = s.mem ∧ t'.groups = s.groups ∧ t'.op? o.id = some o' ∧
        o'.accs.find? (fun a => a.id == s.sub 1) = some a' ∧ { a' with st := .served } = a ∧ a'.st = .done) ∧
    (∀ ty, a.st = .waiting → o.kind = .load ty → o.ordinary = true → s.cacheable (s.coreOf o.launch o.team) t (t.phys a.va) = true →
      (s.core (s.coreOf o.launch o.team)).hits (t.phys a.va) a.len = true → s.mayPerform o a = true → s.loadsApart o.id →
      ∃ t' o' a', exec .l1Fill s = .next t' ∧ t'.mem = s.mem ∧ t'.op? o.id = some o' ∧ o'.accs.find? (fun a => a.id == s.sub 1) = some a' ∧
        a'.st = .done ∧ a'.data = s.maskOpen (t.phys a.va) a.id (overlays (t.phys a.va)
          ((s.core (s.coreOf o.launch o.team)).l1Bytes (t.phys a.va) a.len)
          (s.ownStores (s.coreOf o.launch o.team) o.launch o.team o.gnum o.id false)))) ∧
  (∀ (s : State) o, s.ops.find? (fun o => o.id == s.sub 0 && o.rel && !o.relDone) = some o →
    s.relReady (s.coreOf o.launch o.team) o.launch o.team o.gnum o.id (if o.island then 2 else 1) = true → o.kind ≠ .fabric →
    ∃ t', exec .releasePerform s = .next t' ∧ t'.mem = s.mem ∧ (∀ p ∈ t'.ops, p.id = s.sub 0 → p.relDone = true)) ∧
  (∀ (s : State) o a, s.op? (s.sub 0) = some o →
    o.accs.find? (fun a => a.victim.isSome && !a.promDone && decide (a.st = .waiting)) = some a →
    (a.promAt = 0 → o.relDone = true → o.lowerDone a = true →
      (∀ p ∈ s.ops, ∀ b ∈ p.accs, b.victim = some (a.victim.getD 0) → b.promAt ≠ 0 → b.promDone = true) →
      exec .promotion s = .next (({ s with nextId := s.nextId + 1 } : State).modAcc o.id a.id (fun a => { a with
        promAt := s.nextId
        covers := (s.groups.filter (fun g => decide (s.coreOf g.launch g.team = a.victim.getD 0))).flatMap s.coverable ++
          ((s.core (a.victim.getD 0)).path.filter (fun x => x.store.isSome)).map (fun x => x.access) })).redraw) ∧
    (a.promAt ≠ 0 → (∀ g ∈ s.groups, s.coreOf g.launch g.team = a.victim.getD 0 → ∀ e ∈ g.sq, e.id ∉ a.covers) →
      (∀ x ∈ (s.core (a.victim.getD 0)).path, x.store.isSome = true → x.access ∉ a.covers) →
      ∃ t', exec .promotion s = .next t' ∧ t'.mem = s.mem ∧ t'.groups = s.groups ∧
        (t'.core (a.victim.getD 0)).l1 = (s.core (a.victim.getD 0)).l1.filter (·.rpage)))

/-- A frame that freeFrame finds is the lowest one that is aligned, inside its region and overlaps no frame taken; a frame
that zeroFrame clears reads as zero, and every other byte as before. A map request that is not posted yet: one whose
launch is gone goes away; one for a page that is present, or in transition, by now is answered with map notices, the
first to the engines of its island; one whose entry has FILL 1 is mapped as State.demandZero does and answered with
notices, and declined where that finds no frame; one with FILL 2 is posted to the host where its event ring takes it;
any other is declined. A notice or a decline is taken from the list, and one to a core leaves memory. At a notice the
page's entries of the core's side log that pass their checks go to their homes, copies that wait for the page go on,
and a load that alone is held there waits for its turn with the page found, takes NOT_MAPPED in class DEFER where a
check fails, or stays held; at a decline the log entries are gone and their launch takes NOT_MAPPED, as does the group
of the held load (which group is halted already, and one record a page: logs 25 and 26). A shoot-down sweeps the
translations of its range from a core (and no other translation) or from a die's engines, and is acknowledged once
coreDrained or engineDrained says that the accesses that used them have performed. While there is a lease holder a
page change goes through its steps in order: the entry goes into transition, a shoot-down of the page to every target
is issued and waited for, stores of the page drain, the invalidations are done, the leaf is written, the change is
over. It changes no group. What restarts a walk and which entries are read is log 20, the order of the steps log 58.
(08_translation (R230, R237, R238, R241, R242, R244, R249, R250), 11_copy_engine (R333), 15_command_engine (R408)) -/
def Obligations.TranslationEvents : Prop :=
  (∀ base len size f used, 0 < size → freeFrame base len size used = some f →
    base ≤ f ∧ f + size ≤ base + len ∧ f % size = 0 ∧ (∀ u ∈ used, meets f size u.1 u.2 = false) ∧
    ∀ f', base ≤ f' → f' + size ≤ base + len → f' % size = 0 → (∀ u ∈ used, meets f' size u.1 u.2 = false) → f ≤ f') ∧
  (∀ (s : State) (pa size p : Nat), size = 65536 ∨ size = 2 ^ 21 ∨ size = 2 ^ 30 → pa % size = 0 →
    (s.zeroFrame pa size).homeByte p = if pa ≤ p ∧ p < pa + size then 0 else s.homeByte p) ∧
  (∀ (s : State) r, s.mapReqs.find? (fun r => decide (r.id = s.sub 0)) = some r → r.posted = false →
    (s.launch? r.launch = none → exec .mapRequest s = .next ({ s with mapReqs := s.mapReqs.filter (fun x => x.id != r.id) } : State).redraw) ∧
    (∀ x, s.launch? r.launch = some x →
      (∀ t, s.walk r.die r.launch r.page = .present t ∨ s.walk r.die r.launch r.page = .moving t → ∃ t' n ns, exec .mapRequest s = .next t' ∧ t'.notices = s.notices ++ n :: ns ∧
        n = { id := s.nextId, core := none, isl := r.isl, launch := r.launch, page := r.page, size := r.size } ∧ (∀ m ∈ ns, m.decline = false) ∧ t'.mem = s.mem) ∧
      (∀ page size fill e a, s.walk r.die r.launch r.page = .absent page size fill e a →
        (fill ≠ 1 ∧ fill ≠ 2) ∨ (fill = 1 ∧ s.demandZero x r.isl page size e = none) →
        ∃ t' n ns, exec .mapRequest s = .next t' ∧ t'.notices = s.notices ++ n :: ns ∧
          n = { id := s.nextId, core := none, isl := r.isl, launch := r.launch, page := r.page, size := r.size, decline := true } ∧
          (∀ m ∈ ns, m.decline = true) ∧ t'.mem = s.mem) ∧
      (∀ page size e a s1, s.walk r.die r.launch r.page = .absent page size 1 e a → s.demandZero x r.isl page size e = some s1 →
        exec .mapRequest s = .next (s1.sendNotices r.isl r.launch r.page r.size false).redraw) ∧
      (∀ page size e a s1, s.walk r.die r.launch r.page = .absent page size 2 e a → s.postEvent x.queue r.isl r.launch r.page r.size = some s1 →
        exec .mapRequest s = .next ({ s1 with mapReqs := updWhere (fun y => y.id == r.id) (fun y => { y with posted := true }) s1.mapReqs } : State).redraw))) ∧
  (∀ (s : State) n, s.notices.find? (fun n => decide (n.id = s.sub 0)) = some n →
    (n.decline = false → ∃ t', exec .mapNotice s = .next t' ∧ t'.notices = s.notices.filter (fun m => m.id != n.id) ∧ (n.core ≠ none → t'.mem = s.mem) ∧
      (n.core = none → ∀ k ∈ s.copiesOn n.isl n.launch n.page n.size, ∀ k' ∈ t'.copies, k'.id = k.id → k'.waits = none) ∧
      (∀ c e tr, n.core = some c → e ∈ (s.core c).sideLog → e.onPage n.launch n.page n.size = true → e.tr = none → e.replay = none →
        s.look c n.launch none e.va = .present tr → s.pageFault tr .store e.va (dieOfCore c) = none →
        ∃ x st, x ∈ (t'.core c).path ∧ x.die = tr.home ∧ x.applied = false ∧ x.op = e.op ∧ x.store = some st ∧ st.tr = tr ∧
          st.parts = [(e.va, e.bytes)]) ∧
      (∀ c o t gr a ty, n.core = some c → HeldLoad s c n.launch n.page n.size o t gr a ty →
        (∀ tr, s.place c o.launch (some (groupSlot t o.gnum, a.thread)) a.va false = .go tr → s.pageFault tr .load a.va (dieOfCore c) = none →
          ∃ o' a', t'.op? o.id = some o' ∧ o'.accs.find? (fun b => b.id == a.id) = some a' ∧ a'.st = .waiting ∧ a'.tr = some tr ∧ a'.va = a.va) ∧
        (∀ tr code, s.place c o.launch (some (groupSlot t o.gnum, a.thread)) a.va false = .go tr → s.pageFault tr .load a.va (dieOfCore c) = some code →
          NotMappedAt s t' o t gr a code) ∧
        (s.place c o.launch (some (groupSlot t o.gnum, a.thread)) a.va false = .hold →
          ∃ o' a', t'.op? o.id = some o' ∧ o'.accs.find? (fun b => b.id == a.id) = some a' ∧ a'.st = .held))) ∧
    (n.decline = true → ∃ t', exec .declineNotice s = .next t' ∧ t'.notices = s.notices.filter (fun m => m.id != n.id) ∧ (n.core ≠ none → t'.mem = s.mem) ∧
      (∀ c e es x, n.core = some c → (s.core c).sideLog.filter (fun e => e.onPage n.launch n.page n.size && e.replay.isNone) = e :: es →
        s.launch? n.launch = some x → (c, n.page) ∉ x.notMapped → (∀ o ∈ s.ops, ∀ a ∈ o.accs, a.stuck = false) →
        (∀ y ∈ (t'.core c).sideLog, y.onPage n.launch n.page n.size = true → y.replay.isSome = true) ∧
        (dieOfCore (s.coreOf n.launch e.team) < s.dies.length → ∃ r ∈ (t'.die (dieOfCore (s.coreOf n.launch e.team))).faultWait,
          r.code = Code.notMapped ∧ r.cls = Cls.launch ∧ r.launch = n.launch ∧ r.addr = e.va ∧ r.detail = 0)) ∧
      (∀ c o t gr a ty, n.core = some c → HeldLoad s c n.launch n.page n.size o t gr a ty → NotMappedAt s t' o t gr a 0))) ∧
  (∀ (s : State) x, s.shoots.find? (fun x => decide (x.id = s.sub 0)) = some x → x.targets.contains (s.sub 1) = true → x.swept.contains (s.sub 1) = false →
    ∃ t', exec .shootdown s = .next t' ∧ t'.mem = s.mem ∧ t'.ops = s.ops ∧ t'.groups = s.groups ∧
      t'.shoots = updWhere (fun y => y.id == x.id) (fun y => { y with swept := y.swept ++ [s.sub 1], stamp := y.stamp ++ [(s.sub 1, s.nextId)] }) s.shoots ∧
      (s.sub 1 < 2 ^ 13 → t'.dies = s.dies ∧ (∀ e ∈ (t'.core (s.sub 1)).tlb, x.sweeps e = false) ∧ (∀ e ∈ (t'.core (s.sub 1)).lastPage, x.sweeps e.2.2 = false) ∧
        ∀ e ∈ (s.core (s.sub 1)).tlb, x.sweeps e = false → e ∈ (t'.core (s.sub 1)).tlb) ∧
      (2 ^ 13 ≤ s.sub 1 → t'.cores = s.cores ∧ (∀ e ∈ (t'.die (s.sub 1 - 2 ^ 13)).engineTlb, s.sub 1 - 2 ^ 13 < s.dies.length → x.sweeps e = false))) ∧
  (∀ (s : State) x, s.shoots.find? (fun x => decide (x.id = s.sub 0)) = some x → x.swept.contains (s.sub 1) = true → x.acked.contains (s.sub 1) = false →
    (let before := ((x.stamp.find? (fun p => p.1 == s.sub 1)).map (·.2)).getD 0
     if s.sub 1 < 2 ^ 13 then s.coreDrained x (s.sub 1) before = true else s.engineDrained x (s.sub 1 - 2 ^ 13) before = true) →
    exec .shootdownAck s = .next ({ s with shoots := updWhere (fun y => y.id == x.id) (fun y => { y with acked := y.acked ++ [s.sub 1] }) s.shoots } : State).redraw) ∧
  (∀ (s : State) c, s.leader?.isSome = true → s.changes.find? (fun c => decide (c.id = s.sub 0)) = some c →
    (c.step = 1 → s.changeBlocked c = false → c.retire = false → ∀ cur, s.islandEntry c.isl c.launch c.page c.size = some cur →
      cur.getLsbD 0 = true → cur.getLsbD 1 = true → exec .pageChangeStep s = .next (let s1 := s.writeLeaf c.isl c.launch c.page c.size (cur ||| 0x8000)
        { s1 with changes := updWhere (fun x => x.id == c.id) (fun x => { x with step := 2, old := cur &&& ~~~0x8000#64, new := c.new }) s1.changes }).redraw) ∧
    (c.step = 2 → s.shoots.find? (fun x => decide (x.id = c.shoot)) = none → ∃ t' x, exec .pageChangeStep s = .next t' ∧ t'.shoots = s.shoots ++ [x] ∧
      x.launch = c.launch ∧ x.isl = c.isl ∧ x.lo = c.page ∧ x.hi = c.page + c.size ∧ x.targets = s.launchCores c.isl c.launch ++ (s.islandDies c.isl).map (fun d => 2 ^ 13 + d) ∧
      t'.changes = updWhere (fun y => y.id == c.id) (fun y => { y with shoot := x.id }) s.changes ∧ t'.mem = s.mem) ∧
    (∀ x, c.step = 2 → s.shoots.find? (fun x => decide (x.id = c.shoot)) = some x → x.over = true →
      exec .pageChangeStep s = .next ({ s with shoots := s.shoots.filter (fun y => y.id != x.id), changes := updWhere (fun x => x.id == c.id) (fun x => { x with step := 3 }) s.changes } : State).redraw) ∧
    (c.step = 3 → s.changeDrained c = true → exec .pageChangeStep s = .next ({ s with changes := updWhere (fun x => x.id == c.id) (fun x => { x with step := 4 }) s.changes } : State).redraw) ∧
    (c.step = 4 → ∃ t', exec .pageChangeStep s = .next t' ∧ t'.changes = updWhere (fun x => x.id == c.id) (fun x => { x with step := 5 }) s.changes ∧
      t'.groups = s.groups ∧ t'.ranges = s.ranges) ∧
    (c.step = 5 → c.old.getLsbD 0 = true → ∃ t', exec .pageChangeStep s = .next t' ∧ t'.changes = updWhere (fun x => x.id == c.id) (fun x => { x with step := 6 }) s.changes ∧
      t'.groups = s.groups ∧ t'.ops = s.ops) ∧
    (6 ≤ c.step → ∃ t', exec .pageChangeStep s = .next t' ∧ t'.changes = s.changes.filter (fun x => x.id != c.id) ∧ t'.groups = s.groups ∧ t'.ops = s.ops))

/-- A contribution of one element that arrives at its range is applied where contributions remain and the range is FAST or
its number is the next one: its element takes the rounded sum, REMAIN falls by one, SEQNEXT rises by one, the others
stay. One ahead of its turn by less than 64, below REMAIN, is held where no other is held and its banks have pool
entries free; one further ahead waits to be sent again; one at a FAST range for which none remains is discarded with
ACC_SEQ in class ASYNC. The oldest open that has capacity takes it, and its range is opened once its group's release
is done; with ZINIT its elements are zero. At its close point a range leaves the table; where it lies on one page and
no other range exists, every element not spoilt reads at its home as the value accumulated, and other bytes stay. Byte
counts, acknowledgements and gang completions are taken from the arrivals, leave memory and act on the barrier they
name as State.barEvent does: an acknowledgement that completes no phase adds its bytes to the count that has landed; a
gang completion for a team that is saved waits to be sent again, and is delivered at the retry once the team runs. A
GBARV outside a gang leaves once everything before it is released and acknowledged and plane 0 is not dark; a BARV for
the partner leaves its group's stream where the stream allows it and acts on the partner's object as a remote arrival.
A BSYNC whose ticks are spent raises BAR_TIMEOUT in class WAIT, its registers and threads as they are, with what stood
at the object and was missing as it expired. The wait-for walk remembers when it ran, and with nothing stuck reports
nothing. (06_traps_and_context (R173), 09_near_cache_engine (R274, R275, R276, R277, R278, R279), 10_barrier_engine
(R296, R301, R311, R314), 14_fabric_engine (R394)) -/
def Obligations.AccumulatorsAndArrivals : Prop :=
  (∀ (s : State) c r, s.contribs.find? (fun c => c.id == s.sub 0) = some c → c.sent = true → c.refused = false → s.chunkBehind c = false → c.fab = 0 →
    s.ranges.find? (fun r => r.id == c.range) = some r → (r.st = .open ∨ r.st = .closing) →
    r.ord = false ∨ (c.seq = r.seqNext ∧ c.seq < 65536) → 0 < r.remain → r.pool = [] → ∀ va x, c.elems = [(va, x, false)] → c.scale = [] →
    ∃ t' r', exec .contributionArrival s = .next t' ∧ t'.ranges.find? (fun r => r.id == c.range) = some r' ∧ r'.remain = r.remain - 1 ∧
      r'.seqNext = (r.seqNext + 1) % 65536 ∧ r'.elem ((va - r.base) / r.size) = r.fmt.add .rne (r.elem ((va - r.base) / r.size)) x ∧
      (∀ i, i ≠ (va - r.base) / r.size → r'.elem i = r.elem i) ∧ t'.mem = s.mem) ∧
  (∀ (s : State) c r, s.contribs.find? (fun c => c.id == s.sub 0) = some c → c.sent = true → c.refused = false → s.chunkBehind c = false → c.fab = 0 →
    s.ranges.find? (fun r => r.id == c.range) = some r → (r.st = .open ∨ r.st = .closing) →
    r.ord = true → c.scale = [] → r.seqNext < 65536 → c.seq < 65536 → s.draining c = false → r.pool = [] → r.seqNext ≠ c.seq →
    (c.seq + 65536 - r.seqNext) % 65536 < r.remain → (c.seq + 65536 - r.seqNext) % 65536 < 32768 →
    ((c.seq + 65536 - r.seqNext) % 65536 < 64 → (∀ b ∈ c.banks s r, poolUsed s b < 64) →
      ∃ t' r', exec .contributionArrival s = .next t' ∧ t'.ranges.find? (fun r => r.id == c.range) = some r' ∧ r'.pool = [c] ∧ r'.vals = r.vals ∧
        r'.remain = r.remain ∧ t'.mem = s.mem) ∧
    (64 ≤ (c.seq + 65536 - r.seqNext) % 65536 → s.senderGone c = false →
      exec .contributionArrival s = .next ({ s with contribs := updWhere (fun x => x.id == c.id) (fun x => { x with refused := true }) s.contribs } : State).redraw)) ∧
  (∀ (s : State) c r, s.contribs.find? (fun c => c.id == s.sub 0) = some c → c.sent = true → c.refused = false → s.chunkBehind c = false → c.fab = 0 →
    s.ranges.find? (fun r => r.id == c.range) = some r → (r.st = .open ∨ r.st = .closing) →
    r.remain = 0 → r.ord = false →
    ∃ t' r', exec .contributionArrival s = .next t' ∧ t'.ranges.find? (fun r => r.id == c.range) = some r' ∧ r'.vals = r.vals ∧ r'.remain = 0 ∧
      (dieOfCore (s.coreOf c.launch c.team) < s.dies.length → ∃ w ∈ (t'.die (dieOfCore (s.coreOf c.launch c.team))).faultWait,
        w.code = 0x0020 ∧ w.cls = 5 ∧ w.launch = c.launch ∧ w.team = c.team)) ∧
  (∀ (s : State) o t j r rest a, s.op? (s.sub 0) = some o → s.team? o.launch o.team = some t → s.heldOpens (t.core / 256) = (o.id, j, r) :: rest →
    capacityFor s r false = true → (∀ x ∈ s.opensIn .served, x.1 ≠ o.id) → o.accs.find? (fun a => a.id == j) = some a →
    (s.relReady t.core o.launch o.team o.gnum o.id (if r.trs.any (fun t => isIsland t.leaf) then 2 else 1) = false →
      exec .accopenCapacity s = .next (s.modAcc o.id j (fun a => { a with st := .served })).redraw) ∧
    (s.relReady t.core o.launch o.team o.gnum o.id (if r.trs.any (fun t => isIsland t.leaf) then 2 else 1) = true →
    ∃ t' r', exec .accopenCapacity s = .next t' ∧ r' ∈ t'.ranges ∧ r'.id = r.id ∧ r'.base = r.base ∧ r'.len = r.len ∧ r'.remain = r.remain ∧
      r'.st = r.st ∧ (a.opnd / 4 % 2 = 1 → r'.vals = []) ∧ t'.lanes = s.lanes)) ∧
  (∀ (s : State) r t, s.pendCloses.ranges.find? (fun r => r.id == s.sub 0) = some r → r.due = true →
    ∃ t', exec .accClosePoint s = .next t' ∧ (∀ q ∈ t'.ranges, q.id ≠ r.id) ∧
      (s.RindOk → (∀ o, s.op? r.closer = some o → o.tainted = false) → r.trs = [t] → t.page ≤ r.base → r.base + r.len ≤ t.page + t.size → t.phys r.base % 32 = 0 → (∀ q ∈ s.ranges, q.id = r.id) →
        (∀ i < r.len / r.size, i ∉ r.unpred → i ∉ r.lost → t'.homeNum (t.phys (r.base + i * r.size)) r.size = r.elem i % 2 ^ (8 * r.size)) ∧
        (∀ p, ¬(t.phys r.base ≤ p ∧ p < t.phys r.base + r.len) → t'.homeByte p = s.homeByte p))) ∧
  (∀ (s : State) a, s.arrivals.find? (fun a => a.id == s.sub 0) = some a →
    (∀ n m, a.kind = .landed n m → ∃ t', exec .bytesLanded s = .next t' ∧ t'.mem = s.mem ∧ (∀ b ∈ t'.arrivals, b.id ≠ a.id) ∧
      ∀ f ∈ t'.fabs, f.id = a.fab → ∃ f0 ∈ s.fabs, f0.id = a.fab ∧ f.landed = f0.landed + n ∧
      ((∀ g ∈ s.groups, g.stream = []) → t'.teams =
        if a.addr = 0xFFFFFFFF then s.teams else (s.barEvent a.launch a.team (localOff a.addr) (.landed n m)).teams)) ∧
    (∀ i n, a.kind = .ack i n → ∃ t', exec .putAcknowledgement s = .next t' ∧ t'.mem = s.mem ∧ (∀ b ∈ t'.arrivals, b.id ≠ a.id) ∧
      ((∀ g ∈ s.groups, g.stream = []) → t'.teams =
        (if a.addr = 0xFFFFFFFF then s.teams else (s.barEvent a.launch a.team (localOff a.addr) (.ack n)).teams) ∧
        ∀ u, a.addr ≠ 0xFFFFFFFF → s.team? a.launch a.team = some u → localOff a.addr ∉ u.loose → u.barValid (localOff a.addr) = true →
          (u.bar (localOff a.addr) 0 48 16 < u.bar (localOff a.addr) 0 32 16 ∨
            (u.bar (localOff a.addr) 1 0 32 + n) % 2 ^ 32 ≠ u.bar (localOff a.addr) 1 32 32) →
          ∃ u', t'.team? a.launch a.team = some u' ∧
            u'.bar (localOff a.addr) 1 0 32 = (u.bar (localOff a.addr) 1 0 32 + n) % 2 ^ 32)) ∧
    (a.kind = .gang → a.refused = false → (∀ u, s.team? a.launch a.team = some u → u.ctx = .run) →
      ∃ t', exec .gangCompletion s = .next t' ∧ t'.mem = s.mem ∧ (∀ b ∈ t'.arrivals, b.id ≠ a.id) ∧
        ((∀ g ∈ s.groups, g.stream = []) → t'.teams =
          if a.addr = 0xFFFFFFFF then s.teams else (s.barEvent a.launch a.team (localOff a.addr) .gang).teams)) ∧
    (∀ u, a.kind = .gang → a.refused = false → s.team? a.launch a.team = some u → u.ctx = .saving →
      (∃ x, s.launch? a.launch = some x ∧ x.bits 2 52 1 = 1) →
      exec .gangCompletion s = .next ({ s with arrivals := updWhere (fun b => b.id == a.id) (fun b => { b with refused := true }) s.arrivals } : State).redraw)) ∧
  (∀ (s : State) a, s.contribs.find? (fun c => c.id == s.sub 0 && c.refused) = none → s.packets.find? (fun p => p.id == s.sub 0 && decide (p.st = .refused)) = none →
    s.arrivals.find? (fun a => a.id == s.sub 0 && a.refused) = some a → a.kind = .gang → (∀ u, s.team? a.launch a.team = some u → u.ctx = .run) →
    ∃ t', exec .arrivalRetry s = .next t' ∧ t'.mem = s.mem ∧ (∀ b ∈ t'.arrivals, b.id ≠ a.id) ∧
      ((∀ g ∈ s.groups, g.stream = []) → t'.teams =
        if a.addr = 0xFFFFFFFF then s.teams else (s.barEvent a.launch a.team (localOff a.addr) .gang).teams)) ∧
  (∀ (s : State) q x, s.gangQ.find? (fun q => q.id == s.sub 0) = some q → (∀ r ∈ s.gangQ, r.launch = q.launch → r.team = q.team → r.gnum = q.gnum → q.id ≤ r.id) →
    s.dark = false → s.relReady (s.coreOf q.launch q.team) q.launch q.team q.gnum q.before 2 = true →
    s.fabAcked q.launch q.team q.gnum q.before = true → s.launch? q.launch = some x → x.bits 2 52 1 = 0 →
    exec .gangArrival s = .next ({ s with
      gangQ := s.gangQ.filter (fun r => !(r.id == q.id)), nextId := s.nextId + 1
      arrivals := s.arrivals ++ [{ id := s.nextId, launch := q.launch, team := q.team, addr := q.addr, kind := .gang }] } : State).redraw) ∧
  (∀ (s : State) g e es n, s.group? (s.sub 0) (s.sub 1) (s.sub 2) = some g → g.stream = e :: es → e.kind = .barv n → e.addr / 2 ^ 19 % 2 = 1 →
    s.localReady g [] e true = true → ∃ t', exec .remoteArrival s = .next t' ∧ t'.mem = s.mem ∧ t'.lanes = s.lanes ∧
      ((∀ x ∈ es, x.id ≠ e.id) → ∀ g', t'.group? g.launch g.team g.gnum = some g' → ∀ x ∈ g'.stream, x.id ≠ e.id) ∧
      (∀ u, s.streamTeam g.launch g.team e.addr = some u → es = [] → (∀ h ∈ s.groups, h ≠ g → h.stream = []) →
        t'.teams = if u.exited then s.teams else (s.barEvent g.launch u.idx (localOff e.addr) (.remote n)).teams)) ∧
  (∀ (s : State) g t a p m, s.group? (s.sub 0) (s.sub 1) (s.sub 2) = some g → s.team? (s.sub 0) (s.sub 1) = some t → g.wait = .bsync a p 1 m → t.ctx = .run →
    ∃ t' g', exec .bsyncTimeout s = .next t' ∧ t'.mem = s.mem ∧ t'.teams = s.teams ∧ t'.group? g.launch g.team g.gnum = some g' ∧ g'.halt = .faulted ∧
      g'.wait = .none ∧ g'.regs = g.regs ∧ g'.thr = g.thr ∧
      (dieOfCore t.core < s.dies.length → ∃ r, (t'.die (dieOfCore t.core)).faultWait = (s.die (dieOfCore t.core)).faultWait ++ [r] ∧ r.code = 0x0041 ∧ r.cls = 3 ∧
        r.addr = localOff a ∧ r.claddr = g.wclause ∧ r.issuing = g.wmask ∧
        (∀ x, g.expired = some x → r.detail = x.detail ∧ r.ext = x.missing) ∧
        (g.expired = none → r.detail = BitVec.ofNat 32 (p % 65536 * 65536 + t.bar (localOff a) 0 48 16) ∧ r.ext = missingThreads s t (localOff a) p))) ∧
  (∀ (s : State), (s.die (s.sub 0)).lastWalk + 100000 ≤ s.now → s.sub 0 < s.dies.length →
    ∃ t', exec .waitForWalk s = .next t' ∧ t'.mem = s.mem ∧ t'.teams = s.teams ∧ (t'.die (s.sub 0)).lastWalk = s.now ∧
      (s.stuckNow = [] → t'.groups = s.groups ∧ ∀ d, (t'.die d).faultWait = (s.die d).faultWait))

/-- The copy engine acts on a write of a NOTIFY word and on a restart, the first write of its team that waits: it is then
over, and memory and the clauses in execution stay. At a NOTIFY of a ring that is BUSY and publishes one entry more
than CONS, with fewer than four in flight, that entry is taken as its words stand, if no check refuses it, and CONS is
counted on; a NOTIFY beyond the size of the ring stops it with OVERRUN. A restart of a ring that is not stopped has no
other effect; one of a stopped ring at the index that NOTIFY holds gives all entries up: DONE and CONS take the index,
and the ring is IDLE. An entry that fills local store (not counting, not marking, unchanged, outside the ring headers,
at no object whose words an STL has left unpredictable) lands the bytes of its next unit at the address of its box,
plus the half of its element (of 4-bit elements two make a unit: log 32), and nowhere else, and goes on to the next
unit; what its source has missed at the home is asked for, which changes no byte. A full tile (of an entry that does
not count or mark) becomes ready with the bytes delivered, no other tile changes, and the producer pointer of its ring
advances by one. An entry without data, or whose units have all moved, completes; memory stays. (09_near_cache_engine
(R263), 11_copy_engine (R318, R319, R320, R321, R324, R325, R331, R332)) -/
def Obligations.CopyEngineSteps : Prop :=
  (∀ (s : State) w t, s.ringWrite? (s.sub 0) (s.sub 1) (s.sub 2) = some w → s.team? (s.sub 0) (s.sub 1) = some t → (∀ g ∈ s.groups, g.stream = []) →
    (w.restart = none → ∃ t' u, exec .copyNotify s = .next t' ∧ t'.mem = s.mem ∧ t'.lanes = s.lanes ∧ t'.team? (s.sub 0) (s.sub 1) = some u ∧
      u.ringWrites = t.ringWrites.tail ∧
      (t.ctx = .run → s.ringState (s.sub 0) (s.sub 1) (s.sub 2) = 1 → (∀ x ∈ t.stopping, x.ring ≠ s.sub 2) →
        (ahead (s.notify (s.sub 0) (s.sub 1) (s.sub 2)) (s.cons (s.sub 0) (s.sub 1) (s.sub 2)) = 1 → ahead (s.cons (s.sub 0) (s.sub 1) (s.sub 2)) (s.done (s.sub 0) (s.sub 1) (s.sub 2)) < 4 →
          ahead (s.notify (s.sub 0) (s.sub 1) (s.sub 2)) (s.done (s.sub 0) (s.sub 1) (s.sub 2)) ≤ 2 ^ (t.latched.getD (s.sub 2) (0, 0)).2 →
          s.copyFault t (s.readCopy t (s.sub 2) (s.cons (s.sub 0) (s.sub 1) (s.sub 2))) = none →
          t'.copies = s.copies ++ [s.readCopy t (s.sub 2) (s.cons (s.sub 0) (s.sub 1) (s.sub 2))] ∧ t'.cons (s.sub 0) (s.sub 1) (s.sub 2) = s.notify (s.sub 0) (s.sub 1) (s.sub 2) ∧
          t'.done (s.sub 0) (s.sub 1) (s.sub 2) = s.done (s.sub 0) (s.sub 1) (s.sub 2) ∧ t'.ringState (s.sub 0) (s.sub 1) (s.sub 2) = 1) ∧
        (2 ^ (t.latched.getD (s.sub 2) (0, 0)).2 < ahead (s.notify (s.sub 0) (s.sub 1) (s.sub 2)) (s.done (s.sub 0) (s.sub 1) (s.sub 2)) →
          (∀ c ∈ s.copies, c.of (s.sub 0) (s.sub 1) (s.sub 2) = false) →
          t'.copies = s.copies ∧ t'.ringState (s.sub 0) (s.sub 1) (s.sub 2) = 2 ∧ t'.hdr (s.sub 0) (s.sub 1) (s.sub 2) 1 16 8 = 8))) ∧
    (∀ v, w.restart = some v → ∃ t' u, exec .ringRestart s = .next t' ∧ t'.mem = s.mem ∧ t'.lanes = s.lanes ∧ t'.team? (s.sub 0) (s.sub 1) = some u ∧
      u.ringWrites = t.ringWrites.tail ∧
      (s.ringState (s.sub 0) (s.sub 1) (s.sub 2) ≠ 2 → exec .ringRestart s =
        .next (s.modTeam (s.sub 0) (s.sub 1) (fun t => { t with ringWrites := t.ringWrites.tail })).settle.redraw) ∧
      (s.ringState (s.sub 0) (s.sub 1) (s.sub 2) = 2 → v = s.notify (s.sub 0) (s.sub 1) (s.sub 2) → (∀ x ∈ t.stopping, x.ring ≠ s.sub 2) → t.latched.length = 4 → s.sub 2 < 4 →
        s.hdr (s.sub 0) (s.sub 1) (s.sub 2) 2 24 4 ≤ 10 → s.hdr (s.sub 0) (s.sub 1) (s.sub 2) 2 0 19 + 32 * 2 ^ s.hdr (s.sub 0) (s.sub 1) (s.sub 2) 2 24 4 ≤ 256 * t.nloc →
        t'.done (s.sub 0) (s.sub 1) (s.sub 2) = v ∧ t'.cons (s.sub 0) (s.sub 1) (s.sub 2) = v ∧ t'.ringState (s.sub 0) (s.sub 1) (s.sub 2) = 0 ∧ t'.hdr (s.sub 0) (s.sub 1) (s.sub 2) 1 16 8 = 0))) ∧
  (∀ (s : State) c t bs reads, s.copies.find? (fun c => c.id == s.sub 0) = some c → s.team? c.launch c.team = some t → t.ctx = .run → c.complete = false → c.opc ≠ 0 → c.fence = false →
    c.pos < c.units → c.dsp = 1 → c.waits = none → s.copyUnit t c c.pos = .ok bs false reads → c.bad = false → c.baren = false → c.bmen = false →
    0 ≤ c.dstAddr c.pos → (∀ n, n = c.dstBits / 8 + (if c.dstBits = 4 then 1 else 0) → (c.dstAddr c.pos).toNat + n ≤ 256 * t.nloc ∧ (c.dstAddr c.pos).toNat % n = 0) →
    ∀ at_, at_ = (c.dstAddr c.pos).toNat + c.halfOf c.pos → (∀ b ∈ t.loose, t.bars.contains b = true → at_ + bs.length ≤ b ∨ b + 24 ≤ at_) →
    (∀ b, s.ringArea c.launch = some b → at_ + bs.length ≤ b ∨ b + 128 ≤ at_) → (∀ g ∈ s.groups, g.stream = []) →
    ∃ t' u c', exec .copyLanding s = .next t' ∧ (reads = [] → t'.mem = s.mem) ∧ (s.RindOk → ∀ p, t'.homeByte p = s.homeByte p) ∧
      t'.team? c.launch c.team = some u ∧ { u with loc := t.loc, changed := t.changed, mapChanged := t.mapChanged } = t ∧
      (∀ o, Cells.get 0 u.loc o = if at_ ≤ o ∧ o < at_ + bs.length then bs.getD (o - at_) 0 else Cells.get 0 t.loc o) ∧
      t'.copies.find? (fun x => x.id == s.sub 0) = some c' ∧ c'.pos = c.pos + 1 ∧ c'.waits = none) ∧
  (∀ (s : State) c t n, s.copies.find? (fun c => c.id == s.sub 0) = some c → s.team? c.launch c.team = some t → c.filling = some n → c.buf.length = 8192 → c.baren = false → c.bmen = false →
    n < t.tiles.length → c.dst < t.rings.length → (∀ g ∈ s.groups, g.stream = []) →
    ∃ t' u, exec .copyTileDelivery s = .next t' ∧ t'.mem = s.mem ∧ t'.team? c.launch c.team = some u ∧ u.loc = t.loc ∧ (u.tile n).st = .ready ∧
      (∀ i < 8192, Cells.get 0 (u.tile n).data i = c.buf.getD i 0) ∧ (∀ k, k ≠ n → u.tile k = t.tile k) ∧
      (u.ring c.dst).p = ((t.ring c.dst).p + 1) % 65536 ∧ (∀ k, k ≠ c.dst → u.ring k = t.ring k) ∧
      t'.copies = updWhere (fun x => x.id == c.id) (fun x => { x with filling := none, buf := [], tiles := x.tiles + 1, given := (t.ring c.dst).p :: x.given }) s.copies) ∧
  (∀ (s : State) c, s.copies.find? (fun c => c.id == s.sub 0) = some c → c.complete = false → (c.fence = true → s.copyFirst c = true) → (c.opc = 0 ∨ (c.units ≤ c.pos ∧ c.filling = none)) →
    c.id < s.nextId → ∃ t', exec .copyEntryComplete s = .next t' ∧ t'.mem = s.mem ∧
      ∀ x ∈ t'.copies, x.id = c.id → x.complete = true)

/-- An operation that is the oldest of its group still to be queued enters the queue where fewer than 8 are in it. Where
the window of 64 clk that the clock count is in has been opened, a k-step that is ready fires if there is no cap, or
if the cap is not spent and no older operation of the core could fire: it adds one contribution for each of its
chunks, not yet sent, with the next sequence numbers, over the elements of the accumulator window; where the cap is
spent it waits, which is counted once. When its oldest reads are complete its chunks leave. A window that has begun is
opened with nothing counted, under KCAP as it stood when the window began. The coordinate of each index lies in the
index space, and different indices have different coordinates. The dispenser answers the first thread that wants one
with the coordinate of its position, which then rises by one, and with all ones once the space is used up; with order
3 it takes the indices of its team's share in turn, and answers all ones once the share and those of teams still
running are used up. (12_matrix_engine (R351, R352, R353, R354, R356, R359, R360), 05_group_instructions (R152),
15_command_engine (R413, R414)) -/
def Obligations.MatrixAndDispenserSteps : Prop :=
  (∀ (s : State) m, s.mmas.find? (fun m => m.id == s.sub 0) = some m →
    (s.mmas.find? (fun x => x.launch == m.launch && x.team == m.team && x.gnum == m.gnum && !x.issued)).map (·.id) = some m.id →
    s.mmaQueued m.launch m.team m.gnum < 8 →
    exec .mmaiQueueEntry s = .next ({ s with mmas := updWhere (fun x => x.id == m.id) (fun x => { x with issued := true }) s.mmas } : State).redraw) ∧
  (∀ (s : State) m t, s.mmas.find? (fun m => m.id == s.sub 0) = some m → s.team? m.launch m.team = some t → s.stepReady m = true →
    (s.core t.core).windowAt = s.windowNow t.core →
    ((s.core t.core).capNow = 0 ∨ ((s.core t.core).window < (s.core t.core).capNow ∧ ∀ x ∈ s.mmasOn t.core, x.id < m.id → s.stepReady x = false) →
      ∃ t' cs, exec .kstepFire s = .next t' ∧ t'.mem = s.mem ∧ t'.groups = s.groups ∧ t'.contribs = s.contribs ++ cs ∧
        cs.map (·.chunk) = (List.range (m.chunkOf (m.fired + 1) - m.chunkOf m.fired)).map (fun i => m.chunkOf m.fired + i) ∧
        (∀ c ∈ cs, c.mma = m.id ∧ c.sent = false ∧ c.range = m.range ∧ c.seq = (m.field 1 16 16 + c.chunk) % 65536 ∧
          c.elems.map (·.1) = (List.range m.rows).flatMap (fun i => (List.range m.cols).map (fun j => m.eltAddr i j))) ∧
        (∃ m', t'.mmas.find? (fun m => m.id == s.sub 0) = some m' ∧ m'.fired = m.fired + 1 ∧ m'.reading = m.reading ++ [m.fired]) ∧
        (t'.core t.core).window = (s.core t.core).window + 1) ∧
    ((s.core t.core).capNow ≠ 0 → (s.core t.core).capNow ≤ (s.core t.core).window → m.stalled = false →
      exec .kstepFire s = .next ({ s.modTeam m.launch m.team (fun t => { t with gstall := (t.gstall + 1) % 65536 }) with
        mmas := updWhere (fun x => x.id == m.id) (fun x => { x with stalled := true }) s.mmas } : State).redraw)) ∧
  (∀ (s : State) m t k ks, s.mmas.find? (fun m => m.id == s.sub 0) = some m → s.team? m.launch m.team = some t → m.reading = k :: ks →
    ∃ t' m', exec .kstepReadsComplete s = .next t' ∧ t'.mem = s.mem ∧ t'.groups = s.groups ∧ t'.mmas.find? (fun m => m.id == s.sub 0) = some m' ∧
      m'.reading = ks ∧ m'.readDone = k + 1 ∧ m'.fired = m.fired ∧
      t'.contribs = updWhere (fun c => c.mma == m.id && decide (m.chunkOf k ≤ c.chunk) && decide (c.chunk < m.chunkOf (k + 1)))
        (fun c => { c with sent := true }) s.contribs) ∧
  (∀ (s : State), (s.core (s.sub 0)).windowAt ≠ s.windowNow (s.sub 0) → exec .governorWindow s = .next (s.modCore (s.sub 0) (fun c => { c with
    window := 0, windowAt := s.windowNow (s.sub 0)
    capNow := (if c.kcapAt = s.windowNow (s.sub 0) then c.kcapWas else c.kcap).toNat })).redraw) ∧
  (∀ order swz X Y Z k, 0 < X → 0 < Y → 0 < swz → k < X * Y * Z →
    (coordinate order swz X Y k).1 < X ∧ (coordinate order swz X Y k).2.1 < Y ∧ (coordinate order swz X Y k).2.2 < Z ∧
    ∀ j < X * Y * Z, coordinate order swz X Y j = coordinate order swz X Y k → j = k) ∧
  (∀ (s : State) o x th rest, s.op? (s.sub 0) = some o → s.launch? o.launch = some x → o.wants = th :: rest →
    (x.order ≠ 3 → x.exhausted = false → x.pos < x.total →
      exec .dispenserRequest s = .next ((s.modOp o.id (fun p => { p with wants := p.wants.drop 1, answers := p.answers ++ [(th, (coordinate x.order x.swz x.ext.1 x.ext.2.1 x.pos).1, (coordinate x.order x.swz x.ext.1 x.ext.2.1 x.pos).2.1,
            (coordinate x.order x.swz x.ext.1 x.ext.2.1 x.pos).2.2)] })).modLaunch x.num (fun y => { y with pos := y.pos + 1 })).redraw) ∧
    (x.order ≠ 3 → (x.exhausted = true ∨ x.total ≤ x.pos) →
      exec .dispenserRequest s = .next ((s.modOp o.id (fun p => { p with wants := p.wants.drop 1, answers := p.answers ++ [(th, 0xFFFFFFFF, 0xFFFFFFFF, 0xFFFFFFFF)] })).modLaunch x.num (fun y => { y with exhausted := true })).redraw) ∧
    (x.order = 3 → x.exhausted = false → o.team + x.counts.getD o.team 0 * x.cores.length < x.total →
      ∃ t', exec .dispenserRequest s = .next t' ∧ t'.launch? o.launch = some { x with counts := setNth x.counts o.team (x.counts.getD o.team 0 + 1) } ∧
        ∃ o', t'.op? o.id = some o' ∧ o'.wants = rest ∧ o'.answers = o.answers ++
          [(th, (o.team + x.counts.getD o.team 0 * x.cores.length) % x.ext.1, (o.team + x.counts.getD o.team 0 * x.cores.length) / x.ext.1 % x.ext.2.1,
            (o.team + x.counts.getD o.team 0 * x.cores.length) / (x.ext.1 * x.ext.2.1))]) ∧
    (x.order = 3 → x.shareLeft o.team = false →
      (∀ i < x.cores.length, x.shareLeft i = true → ∃ t, s.team? x.num i = some t ∧ t.exited = true) →
      exec .staticExhaustRelease s = .next ((s.modOp o.id (fun p => { p with wants := p.wants.drop 1, answers := p.answers ++ [(th, 0xFFFFFFFF, 0xFFFFFFFF, 0xFFFFFFFF)] })).modLaunch x.num (fun y => { y with exhausted := true })).redraw))

/-- A new slot changes only packets: each is as before or has left its port. A packet of an operation that is no more is
dropped, and so is one of an earlier incarnation of the die that sent it; one that reaches a relay waits there for its
last hop; one that reaches its end flies no longer. An acknowledgement marks its packet; where a packet that gets
through, or is acknowledged, had been repeated, the transient fault is logged once. A packet not acknowledged for 500
ns is sent once more, but a fenced die sends nothing; after that, while there is a lease holder, the topology entry is
rewritten (to a relay of the panel other than the one that failed, with direct routes to and from it, wherever there
is one: the lowest of the source's row, else the lowest) and the packet waits at its source anew. A plane that is not
retraining is dark in the 200 ns of each 1,000,000 that are its own (log 38). A mark of the lease holder has a die's
counter trimmed toward the holder's; passing time steps no counter back; an offset is measured to within 2 ticks.
(05_group_instructions (R156), 14_fabric_engine (R372, R373, R374, R376, R377, R378, R390, R391), 16_system (R429,
R433)) -/
def Obligations.FabricSteps : Prop :=
  (∀ (s : State), s.slot < s.fabricTime / 25 → (s.packets.map (·.id)).Nodup →
    ∃ t', exec .fabricSlot s = .next t' ∧ t'.slot = s.fabricTime / 25 ∧ { t' with packets := s.packets, slot := s.slot, freeCtr := s.freeCtr } = s ∧
      t'.packets.length = s.packets.length ∧
      ∀ i (h : i < s.packets.length) (h' : i < t'.packets.length), t'.packets[i] = s.packets[i] ∨
        (s.packets[i].st = .waiting ∧ ∃ via pl, t'.packets[i] =
          { s.packets[i] with st := .flying, sentAt := s.now, tries := s.packets[i].tries + 1, via := via, plane := pl })) ∧
  (∀ (s : State) p, s.packets.find? (fun p => p.id == s.sub 0) = some p → s.fab? p.fab = none → exec .packetReceive s = .next (s.dropPacket p.id).redraw) ∧
  (∀ (s : State) p f, s.packets.find? (fun p => p.id == s.sub 0) = some p → s.fab? p.fab = some f → p.st = .flying →
    (p.incar ≠ (s.die p.die).incar → exec .packetReceive s = .next (s.dropPacket p.id).redraw) ∧
    (p.incar = (s.die p.die).incar → p.next ≠ p.dst →
      (p.tries < 2 ∨ p.noted = true → exec .packetReceive s =
        .next (s.modPacket p.id (fun q => { q with st := .waiting, at_ := p.next, tries := 0, noted := false })).redraw) ∧
      (2 ≤ p.tries → p.noted = false → exec .packetReceive s =
        .next (((s.modPacket p.id (fun q => { q with noted := true })).logEvent p.die 0 3 (unitAt p.die p.plane) 0).modPacket p.id
          (fun q => { q with st := .waiting, at_ := p.next, tries := 0, noted := false })).redraw)) ∧
    (p.incar = (s.die p.die).incar → p.next = p.dst → p.id < s.nextId →
      ∃ t', exec .packetReceive s = .next t' ∧ ∀ q ∈ t'.packets, q.id = p.id → q.st ≠ .flying)) ∧
  (∀ (s : State) p, s.packets.find? (fun p => p.id == s.sub 0) = some p → (p.st = .arrived ∨ p.st = .refused) → p.acked = false → p.src ≠ p.dst →
    (p.tries < 2 ∨ p.noted = true → exec .packetAck s = .next (s.modPacket p.id (fun p => { p with acked := true })).redraw) ∧
    (2 ≤ p.tries → p.noted = false → exec .packetAck s =
      .next (((s.modPacket p.id (fun q => { q with noted := true })).logEvent p.die 0 3 (unitAt p.die p.plane) 0).modPacket p.id
        (fun p => { p with acked := true })).redraw)) ∧
  (∀ (s : State) p, s.packets.find? (fun p => p.id == s.sub 0) = some p → p.acked = false → p.src ≠ p.dst → p.st = .flying → p.sentAt + 500 ≤ s.now → (s.packets.map (·.id)).Nodup →
    (p.tries = 1 → (∀ q ∈ s.packets, s.diePresent q.die = true) →
      exec .packetRetransmit s = .next (s.modPacket p.id (fun q => { q with st := .waiting })).redraw) ∧
    (p.tries = 1 → s.diePresent p.die = false → p.at_ = p.src → p.resp = false →
      ∃ t', exec .packetRetransmit s = .next t' ∧ (∀ q ∈ t'.packets, q.id ≠ p.id) ∧ t'.mem = s.mem) ∧
    (2 ≤ p.tries → s.leader?.isSome = true → s.newEntry p.src p.dst p.via ≠ 0 → (∀ q ∈ s.packets, s.diePresent q.die = true) → ∃ t', exec .packetRetransmit s = .next t' ∧
      t'.topo = setNth s.topo (30 * p.src + p.dst) (s.newEntry p.src p.dst p.via) ∧ t'.fabs = s.fabs ∧ t'.ops = s.ops ∧ t'.teams = s.teams ∧
      t'.packets.length = s.packets.length ∧
      ∀ q ∈ t'.packets, q.id = p.id → q.st = .waiting ∧ q.at_ = q.src ∧ q.via = none ∧ q.tries = 0) ∧
    (2 ≤ p.tries → s.leader?.isSome = true → s.newEntry p.src p.dst p.via = 0 →
      ∃ t', exec .packetRetransmit s = .next t' ∧ t'.topo = setNth s.topo (30 * p.src + p.dst) 0)) ∧
  (∀ (s : State) src dst bad, s.newEntry src dst bad = 0 ∨ ∃ v < 30, s.newEntry src dst bad = BitVec.ofNat 32 (4 * v + 2) ∧ s.islMask.getLsbD v = true ∧
    v ≠ src ∧ v ≠ dst ∧ bad ≠ some v ∧ (s.route src v).1 = 1 ∧ (s.route v dst).1 = 1) ∧
  (∀ (s : State) src dst bad v, v < 30 → s.islMask.getLsbD v = true → v ≠ src → v ≠ dst → bad ≠ some v → (s.route src v).1 = 1 → (s.route v dst).1 = 1 →
    ∃ w < 30, s.newEntry src dst bad = BitVec.ofNat 32 (4 * w + 2) ∧ (v / 6 = src / 6 → w / 6 = src / 6 ∧ w ≤ v) ∧
      (w / 6 ≠ src / 6 → w ≤ v)) ∧
  (∀ (s : State), s.sub 0 < 32 →
    (s.blackout.getD (s.sub 0) false = false → s.planeRetrains (s.sub 0) = false → (s.fabricTime + 1000000 - 31250 * s.sub 0) % 1000000 < 200 →
      exec .planeBlackout s = .next ({ s with blackout := setNth s.blackout (s.sub 0) true } : State).redraw) ∧
    (s.blackout.getD (s.sub 0) false = true → 200 ≤ (s.fabricTime + 1000000 - 31250 * s.sub 0) % 1000000 →
      exec .blackoutEnd s = .next ({ s with blackout := setNth s.blackout (s.sub 0) false } : State).redraw)) ∧
  (∀ (s : State) n d, s.timeOf d ≤ (s.tick n).timeOf d) ∧
  (∀ (s : State) m, s.leader? = some m →
    (s.dark = false → (s.die (s.sub 0)).counterOn = true →
      exec .slotMark s = .next (s.modDie (s.sub 0) (fun x => { x with trim := (s.timeOf m : Int) - s.timeOf (s.sub 0) })).redraw) ∧
    (s.diePresent (s.sub 0) = true → ∃ l : List (BitVec 64),
      exec .toffMeasurement s = .next (s.modDie (s.sub 0) (fun x => { x with measured := s.now, toff := l })).redraw ∧ l.length = 60 ∧
      ∀ d < 60, (d = s.sub 0 → l.getD d 0 = 0) ∧ (d ≠ s.sub 0 → s.diePresent d = false → l.getD d 0 = 0x8000000000000000) ∧
        (d ≠ s.sub 0 → s.diePresent d = true → ∃ e : Int, -2 ≤ e ∧ e ≤ 2 ∧ l.getD d 0 = BitVec.ofInt 64 ((s.timeOf d : Int) - s.timeOf (s.sub 0) + e))))

/-- While plane 0 is not dark: a link of an island and a plane steps down from PAM4 on errors and eight slots later is at
half rate; after 64 microseconds it is probed, and a probe of 16 test frames, one in 32 slots, that passes returns it
to PAM4, one that fails to half rate. A request puts it in REQ; a request can be deferred, counted, for 1,000,000 ns
and then stands again; an acceptance, or a request after three deferrals, retrains it. A retraining that locks within
50 microseconds returns to PAM4; else the link is down, and the fault is logged. While plane 0 is dark, nothing is
announced: a step down, the end of a probe that passes, and what is said of retraining have no effect, which is the
model's reading of the silence of the control wavelength (log 38). (14_fabric_engine (R373, R391, R392), 16_system
(R433)) -/
def Obligations.LinkStates : Prop :=
  ∀ (s : State) k, s.sub 0 < 30 → s.sub 1 < 32 → s.link (s.sub 0) (s.sub 1) = k →
  (s.dark = true → ∀ i ∈ [Instr.linkStepDown, .linkProbePass, .retrainRequest, .retrainAccept, .retrainDefer], exec i s = .next s) ∧
  (s.dark = false →
  (k.st = .pam4 → exec .linkStepDown s = .next ({ s with links := setNth s.links (32 * s.sub 0 + s.sub 1) { k with st := .step, since := s.fabricTime, was := k.st } } : State).redraw) ∧
  (k.st = .probe → k.since + 12800 ≤ s.fabricTime → exec .linkProbePass s = .next ({ s with links := setNth s.links (32 * s.sub 0 + s.sub 1) { k with st := .pam4, since := s.fabricTime, was := k.st, tests := 16 } } : State).redraw) ∧
  ((k.st = .pam4 ∨ k.st = .two ∨ k.st = .probe) → k.requests < 3 → exec .retrainRequest s = .next ({ s with links := setNth s.links (32 * s.sub 0 + s.sub 1) { k with st := .req, since := s.fabricTime, was := k.st, deferred := 0 } } : State).redraw) ∧
  ((k.st = .pam4 ∨ k.st = .two ∨ k.st = .probe ∨ (k.st = .req ∧ k.deferred ≠ 0 ∧ k.deferred ≤ s.fabricTime)) → 3 ≤ k.requests → exec .retrainRequest s = .next ({ s with links := setNth s.links (32 * s.sub 0 + s.sub 1) { k with st := .retrain, since := s.fabricTime, was := k.st, requests := 0, deferred := 0 } } : State).redraw) ∧
  (k.st = .req → k.deferred ≠ 0 → k.deferred ≤ s.fabricTime → k.requests < 3 → exec .retrainRequest s = .next ({ s with links := setNth s.links (32 * s.sub 0 + s.sub 1) { k with since := s.fabricTime, deferred := 0 } } : State).redraw) ∧
  (k.st = .req → exec .retrainAccept s = .next ({ s with links := setNth s.links (32 * s.sub 0 + s.sub 1) { k with st := .retrain, since := s.fabricTime, was := k.st, requests := 0, deferred := 0 } } : State).redraw) ∧
  (k.st = .req → k.requests < 3 → k.deferred = 0 → exec .retrainDefer s = .next ({ s with links := setNth s.links (32 * s.sub 0 + s.sub 1) { k with requests := k.requests + 1, since := s.fabricTime, deferred := s.fabricTime + 1000000 } } : State).redraw) ∧
  (k.st = .pam4 → k.deferred ≤ s.fabricTime → exec .retrainDefer s = .next ({ s with links := setNth s.links (32 * s.sub 0 + s.sub 1) { k with requests := k.requests + 1, deferred := s.fabricTime + 1000000 } } : State).redraw)) ∧
  (k.st = .step → k.since + 200 ≤ s.fabricTime → exec .linkStepDone s = .next ({ s with links := setNth s.links (32 * s.sub 0 + s.sub 1) { k with st := .two, since := s.fabricTime, was := k.st } } : State).redraw) ∧
  (k.st = .two → k.since + 64000 ≤ s.fabricTime → exec .linkProbeStart s = .next ({ s with links := setNth s.links (32 * s.sub 0 + s.sub 1) { k with st := .probe, since := s.fabricTime, was := k.st, tests := 0 } } : State).redraw) ∧
  (k.st = .probe → exec .linkProbeFail s = .next ({ s with links := setNth s.links (32 * s.sub 0 + s.sub 1) { k with st := .two, since := s.fabricTime, was := k.st } } : State).redraw) ∧
  (k.st = .retrain → s.fabricTime ≤ k.since + 50000 → exec .retrainLocked s = .next ({ s with links := setNth s.links (32 * s.sub 0 + s.sub 1) { k with st := .pam4, since := s.fabricTime, was := k.st } } : State).redraw) ∧
  (k.st = .retrain → k.since + 50000 ≤ s.fabricTime → exec .retrainTimeout s =
    .next (({ s with links := setNth s.links (32 * s.sub 0 + s.sub 1) { k with st := .down, since := s.fabricTime, was := k.st } } : State).logEvent
      (s.recvDie (s.sub 0)) 1 3 (unitAt (s.recvDie (s.sub 0)) (s.sub 1)) 0).redraw)

/-- A leader renews 2 ms after its last renewal with a ceiling 4096 above its next number and forgets the old
acknowledgements. A joined die that hears a renewal takes the later ceiling, and as a follower a term not below its
own. A renewal that every joined die has acknowledged gives the leader its ceiling to use. After 10 ms in silence a
follower starts a timer of its rank times 100 microseconds; when it runs out the die claims with its term plus 1
(modulo 2^32) in the slot of fabric time and takes nextNumber of the highest ceiling heard as its first number. Page
changes under way restart from the first step that they need. A claim of a higher term makes an electing die or a
leader a follower, and so does one of the same term and slot by a lower die a leader. A leader whose last renewal is
10 ms old is one no more. The model's readings: the step from which page changes restart (log 58); the term modulo
2^32, who hears a renewal and who acknowledges it (log 59). (15_command_engine (R422, R423)) -/
def Obligations.LeaderLease : Prop :=
  ∀ (s : State) d, s.dies.length = 60 → s.sub 0 = d → d < 60 →
  ((s.die d).lease.st = .leader → s.diePresent d = true → (s.die d).lease.sent + 2000000 ≤ s.now → exec .leaseRenewal s = .next (s.modDie d (fun x => { x with lease := { x.lease with sent := s.now, ceiling := laterCeiling x.lease.ceiling ((x.lease.next + 4096) % 2 ^ 32), hearers := [d], acks := [d], ackedCeiling := if s.joinedDies.all (fun e => e == d) then laterCeiling x.lease.ceiling ((x.lease.next + 4096) % 2 ^ 32) else x.lease.ackedCeiling } })).redraw) ∧
  (∀ m r, s.leader? = some m → (s.die m).lease = r → m ≠ d → s.diePresent d = true → r.hearers ≠ [] → d ∉ r.hearers →
    ∃ t', exec .renewalHeard s = .next t' ∧ { t' with dies := s.dies, freeCtr := s.freeCtr } = s ∧
      (t'.die m) = { s.die m with lease := { r with hearers := r.hearers ++ [d] } } ∧ (∀ e, e ≠ d → e ≠ m → t'.die e = s.die e) ∧
      (t'.die d).lease.ceiling = laterCeiling (s.die d).lease.ceiling r.ceiling ∧ (t'.die d).lease.st = (s.die d).lease.st ∧
      ((s.die d).lease.st = .follower → (s.die d).lease.term ≤ r.term → (t'.die d).lease.term = r.term ∧ (t'.die d).lease.heard = s.now) ∧
      (((s.die d).lease.st ≠ .follower ∨ r.term < (s.die d).lease.term) →
        (t'.die d).lease.term = (s.die d).lease.term ∧ (t'.die d).lease.heard = (s.die d).lease.heard)) ∧
  (∀ m r, s.leader? = some m → (s.die m).lease = r → d ∈ r.hearers → d ∉ r.acks → s.diePresent d = true →
    ∃ t', exec .renewalAcknowledgement s = .next t' ∧ { t' with dies := s.dies, freeCtr := s.freeCtr } = s ∧ (∀ e, e ≠ m → t'.die e = s.die e) ∧
      t'.die m = { s.die m with lease := { r with acks := r.acks ++ [d], ackedCeiling := (t'.die m).lease.ackedCeiling } } ∧
      ((∀ e, s.diePresent e = true → e ∈ r.acks ∨ e = d) → (t'.die m).lease.ackedCeiling = r.ceiling) ∧
      (∀ e, s.diePresent e = true → e ∉ r.acks → e ≠ d → (t'.die m).lease.ackedCeiling = r.ackedCeiling)) ∧
  ((s.die d).lease.st = .follower → (s.die d).lease.heard + 10000000 ≤ s.now → exec .leaseTimeout s = .next (s.modDie d (fun x => { x with lease := { x.lease with st := .elect, timer := s.now + 100000 * s.dieRank d } })).redraw) ∧
  ((s.die d).lease.st = .elect → s.diePresent d = true → (s.die d).lease.timer ≤ s.now →
    ∃ t', exec .electionTimer s = .next t' ∧ (t'.die d).lease = { (s.die d).lease with
        st := .leader, term := ((s.die d).lease.term + 1) % 2 ^ 32, claimed := s.fabricTime / 25, sent := s.now, next := nextNumber (s.die d).lease.ceiling
        ackedCeiling := (s.die d).lease.ceiling, hearers := [], acks := [] } ∧
      t'.changes = s.changes.map (fun c => { c with step := if c.old.getLsbD 0 then 1 else 5, shoot := 0 }) ∧
      (∀ e, e ≠ d → (t'.die e).lease = (s.die e).lease) ∧ t'.groups = s.groups ∧ t'.teams = s.teams ∧ t'.lanes = s.lanes) ∧
  (∀ c, s.sub 1 = c → (s.die c).lease.st = .leader → s.diePresent c = true → c ≠ d →
    ((s.die d).lease.st = .elect ∧ (s.die d).lease.term < (s.die c).lease.term) ∨
      ((s.die d).lease.st = .leader ∧ ((s.die d).lease.term < (s.die c).lease.term ∨ ((s.die d).lease.term = (s.die c).lease.term ∧ (s.die d).lease.claimed = (s.die c).lease.claimed ∧ c < d))) →
    exec .claimHeard s = .next (s.modDie d (fun x => { x with lease := { x.lease with st := .follower, term := (s.die c).lease.term, heard := s.now, hearers := [], acks := [] } })).redraw) ∧
  ((s.die d).lease.st = .leader → (s.die d).lease.sent + 10000000 ≤ s.now → exec .leaderLapse s = .next (s.modDie d (fun x => { x with lease := { x.lease with st := .follower, heard := s.now, hearers := [], acks := [] } })).redraw)

/-- A reset stops the counter and starts the self-test; a fenced die is reset only under a lease holder, keeping its
incarnation, its counter and a bound for it. A self-test passed within 2 s leads to IMAGE, an image verified at the
first try to PAIR, reports verified at the first try to PANEL; a partner silent for 100 ms is not waited for. A
self-test that fails or is late fences; of an image, of a partner's report and of the panel's report a first failure
is counted and a second fences (the partner, where it is its report). A die that joins under a holder has its DIEMASK
bit, the next incarnation, a running counter at the holder's time and not below the value at which it was fenced, and
follows; while no die has joined, the die that joins leads. A die that meets no leader for 500 ms is fenced. A die
fenced by a lasting fault is absent, out of the lease, its counter stopped and kept, and no clause runs on it. That
the die that joins first leads (log 59) and what a reset keeps of a die (log 10) are the model's choices.
(01_device_overview (R14), 05_group_instructions (R156), 08_translation (R253, R254), 15_command_engine (R422),
16_system (R429, R430, R435)) -/
def Obligations.BootJoinAndFence : Prop :=
  ∀ (s : State) d p, s.dies.length = 60 → s.sub 0 = d → d < 60 → p = partnerDie d → s.sub 1 < 2 → s.subj = [d, s.sub 1] →
  (s.islMask.getLsbD (d / 2) = true → (s.die d).boot = .reset →
    exec .dieReset s = .next (s.modDie d (fun x => { x with counterOn := false, boot := .selftest, bootSince := s.now })).redraw) ∧
  (s.islMask.getLsbD (d / 2) = true → (s.die d).boot = .fenced → s.leader?.isSome = true →
    ∃ t', exec .dieReset s = .next t' ∧ t'.mem = s.mem ∧ (∀ e, e ≠ d → t'.die e = s.die e) ∧
      t'.die d = { Die.reset d with incar := (s.die d).incar, fencedAt := max (s.die d).fencedAt (s.die d).counter, counter := (s.die d).counter, boot := .reset, bootSince := s.now }) ∧
  ((s.die d).boot = .selftest → s.sub 1 = 0 → s.now ≤ (s.die d).bootSince + 2000000000 → exec .selftestComplete s = .next (s.modDie d (fun x => { x with boot := .image, bootSince := s.now })).redraw) ∧
  ((s.die d).boot = .selftest → (s.sub 1 = 1 ∨ (s.die d).bootSince + 2000000000 < s.now) → s.diePresent d = false → ∃ t', exec .selftestComplete s = .next t' ∧ (t'.die d).boot = .fenced ∧ (t'.die d).counterOn = false ∧ (t'.die d).lease.st = .out ∧ t'.diePresent d = false) ∧
  ((s.die d).boot = .image → s.sub 1 = 0 → (s.die d).imageFails = 0 → exec .imageVerify s = .next (s.modDie d (fun x => { x with boot := .pair, bootSince := s.now })).redraw) ∧
  ((s.die d).boot = .image → s.sub 1 = 1 → (s.die d).imageFails = 0 → exec .imageVerify s = .next (s.modDie d (fun x => { x with imageFails := 1 })).redraw) ∧
  ((s.die d).boot = .image → s.sub 1 = 1 → (s.die d).imageFails ≠ 0 → s.diePresent d = false → ∃ t', exec .imageVerify s = .next t' ∧ (t'.die d).boot = .fenced ∧ (t'.die d).counterOn = false ∧ (t'.die d).lease.st = .out ∧ t'.diePresent d = false) ∧
  (((s.die p).boot = .pair ∨ (s.die p).boot = .panel ∨ (s.die p).boot = .joined) →
    ((s.die d).boot = .pair → s.sub 1 = 0 → (s.die d).partnerFails = 0 → exec .identityExchange s = .next (s.modDie d (fun x => { x with boot := .panel, bootSince := s.now })).redraw) ∧
    ((s.die d).boot = .pair → s.sub 1 = 1 → (s.die d).partnerFails = 0 →
      exec .identityExchange s = .next (s.modDie d (fun x => { x with partnerFails := 1 })).redraw) ∧
    ((s.die d).boot = .pair → s.sub 1 = 1 → (s.die d).partnerFails ≠ 0 → (∃ t', exec .identityExchange s = .next t' ∧ (t'.die p).boot = .fenced ∧ (t'.die p).counterOn = false ∧ (t'.die p).lease.st = .out ∧ t'.diePresent p = false ∧ (t'.die d).boot = .panel))) ∧
  ((s.die d).boot = .pair → (s.die d).bootSince + 100000000 ≤ s.now → exec .partnerSilent s = .next (s.modDie d (fun x => { x with boot := .panel, bootSince := s.now })).redraw) ∧
  (∀ m, (s.die d).boot = .panel → s.leader? = some m → s.sub 1 = 0 →
    ∃ t', exec .panelJoin s = .next t' ∧ (t'.die d).boot = .joined ∧ t'.dieMask = s.dieMask ||| (1#60 <<< d) ∧
      (t'.die d).incar = ((s.die d).incar + 1) % 65536 ∧ (t'.die d).counter = max (s.timeOf m) (s.die d).fencedAt ∧ (t'.die d).counterOn = true ∧
      (t'.die d).lease.st = .follower ∧ (s.die m).lease.term ≤ (t'.die d).lease.term ∧ (t'.die d).lease.heard = s.now) ∧
  ((s.die d).boot = .panel → s.leader?.isSome = true → s.sub 1 = 1 → (s.die d).reportFails = 0 → exec .panelJoin s = .next (s.modDie d (fun x => { x with reportFails := 1 })).redraw) ∧
  ((s.die d).boot = .panel → s.leader?.isSome = true → s.sub 1 = 1 → (s.die d).reportFails ≠ 0 → s.diePresent d = false → ∃ t', exec .panelJoin s = .next t' ∧ (t'.die d).boot = .fenced ∧ (t'.die d).counterOn = false ∧ (t'.die d).lease.st = .out ∧ t'.diePresent d = false) ∧
  ((s.die d).boot = .panel → s.leader? = none → s.dieMask = 0 → s.sub 1 = 0 →
    ∃ t', exec .panelJoin s = .next t' ∧ (t'.die d).boot = .joined ∧ t'.dieMask = 1#60 <<< d ∧ (t'.die d).incar = ((s.die d).incar + 1) % 65536 ∧
      (t'.die d).counter = (s.die d).fencedAt ∧ (t'.die d).counterOn = true ∧
      (t'.die d).lease.st = .leader ∧ (t'.die d).lease.term = ((s.die d).lease.term + 1) % 2 ^ 32) ∧
  ((s.die d).boot = .panel → s.leader? = none → (s.die d).bootSince + 500000000 ≤ s.now → s.diePresent d = false → ∃ t', exec .joinTimeout s = .next t' ∧ (t'.die d).boot = .fenced ∧ (t'.die d).counterOn = false ∧ (t'.die d).lease.st = .out ∧ t'.diePresent d = false) ∧
  ((s.die d).boot = .joined → s.diePresent d = true → (∃ t', exec .dieFence s = .next t' ∧ (t'.die d).boot = .fenced ∧ (t'.die d).counterOn = false ∧ (t'.die d).lease.st = .out ∧ t'.diePresent d = false ∧ (t'.die d).fencedAt = (s.die d).counter ∧
      t'.dieMask = s.dieMask &&& ~~~(1#60 <<< d) ∧ (∀ l ∈ t'.lanes, dieOfCore l.core ≠ d)))

/-- A host access of a size and alignment that there is. A read of bytes of no open range returns the bytes that stand at
their homes and status 0. A write outside the window changes exactly its bytes of HBM, whose rind blocks stay, where
none of them is dirty there; one in the window beyond the queue table changes exactly what its homes read. An access
through a lost port or to an absent die reads all ones or writes nothing, with status 1. A queue with a good
descriptor that did not run and is enabled stands at RPTR and runs; with a bad one it halts with error 8 and its
index; disabled it takes no packet. A write to the queue table does what the host's bytes there do; one to the
banded-latency table between launches sets the entry, where firmware writes that value, and else nothing. An
attestation under a lease holder is answered with its count and the challenge that stands in the window. The model's
choices: the sizes of host accesses (log 62), the request that increments the count itself where the host has not (log
61), and the latency values that are not written (log 64). (05_group_instructions (R157), 15_command_engine (R401,
R402), 16_system (R425, R426, R427, R428, R431)) -/
def Obligations.HostAndQueues : Prop :=
  (∀ (s : State) port pa n, s.subj = [port, pa, n] → port ≤ 1 → hostSize n = true → pa % n = 0 →
    (s.hostAbsent port pa = true → exec .hostRead s = .next ({ s with hostData := List.replicate n 0xFF ++ [1] } : State).redraw) ∧
    (s.hostAbsent port pa = false → (∀ i < n, s.rangeAt (pa + i) = none) →
      exec .hostRead s = .next ({ s with hostData := s.homeBytes pa n ++ [0] } : State).redraw)) ∧
  (∀ (s : State) port pa (bs : List Byte), s.subj = port :: pa :: bs.map (·.toNat) → port ≤ 1 → hostSize bs.length = true → pa % bs.length = 0 →
    (s.hostAbsent port pa = true → exec .hostWrite s = .next ({ s with hostData := [1] } : State).redraw) ∧
    (s.hostAbsent port pa = false → s.inMailbox pa = false →
      (∀ b ∈ (s.die (dieOfPa pa)).blocks, b.replica = false → ∀ g ∈ b.dirty, meets (b.frame * 4096 + g * b.grain) b.grain pa bs.length = false) →
      ∃ t', exec .hostWrite s = .next t' ∧ t'.hostData = [0] ∧ t'.dies.map (·.blocks) = s.dies.map (·.blocks) ∧ t'.lanes = s.lanes ∧
        ∀ a, Cells.get 0 t'.mem a = if pa ≤ a ∧ a < pa + bs.length then bs.getD (a - pa) 0 else Cells.get 0 s.mem a) ∧
    (s.hostAbsent port pa = false → s.inMailbox pa = true → s.mailbox + 0x4000 ≤ pa → s.RindOk →
      ∃ t', exec .hostWrite s = .next t' ∧ t'.hostData = [0] ∧ t'.lanes = s.lanes ∧
        ∀ a, t'.homeByte a = if pa ≤ a ∧ a < pa + bs.length then bs.getD (a - pa) 0 else s.homeByte a)) ∧
  (∀ (s : State) q, s.sub 0 = q → q < 256 → s.noHome s.mailbox = false → s.RindOk →
    (s.badDescriptor q = false → s.qfield q 5 0 2 ≠ 1 → ∃ t', exec .queueEnable s = .next t' ∧ t'.qstate q = 1 ∧ (t'.queue q).next = s.rptr q ∧
      (t'.queue q).stalled = false ∧ t'.lanes = s.lanes ∧ t'.launches = s.launches) ∧
    (s.badDescriptor q = true → ∃ t', exec .queueEnable s = .next t' ∧ t'.qstate q = 2 ∧ t'.qfield q 5 8 8 = 8 ∧
      t'.qfield q 5 16 32 = s.rptr q ∧ t'.lanes = s.lanes ∧ t'.launches = s.launches) ∧
    (∃ t', exec .queueDisable s = .next t' ∧ t'.qstate q = 0 ∧ t'.pending q = false ∧ t'.lanes = s.lanes ∧ t'.launches = s.launches)) ∧
  (∀ (s : State), (s.sub 3 = 1 ∨ s.sub 3 = 2 ∨ s.sub 3 = 4 ∨ s.sub 3 = 8) → s.sub 0 = 0 → s.sub 1 % s.sub 3 = 0 → s.sub 1 + s.sub 3 ≤ 0x4000 →
    s.noHome s.mailbox = false →
    exec .registerWrite s = .next (s.hostBytes (s.mailbox + s.sub 1) (bytesOf (s.sub 2) (s.sub 3))).settle.redraw) ∧
  (∀ (s : State), s.sub 0 = 1 → s.sub 1 < 60 → s.sub 2 < 36 → s.launches.any Launch.onDies = false → s.sub 3 < 2 ^ 32 →
    (latencyOk (s.sub 2) (s.sub 3) = false → exec .registerWrite s = .next s) ∧
    (latencyOk (s.sub 2) (s.sub 3) = true → exec .registerWrite s = .next (s.modDie (s.sub 1) (fun x => { x with bl := setNth x.bl (s.sub 2) (BitVec.ofNat 32 (s.sub 3)) })).redraw)) ∧
  (∀ (s : State), s.leader?.isSome = true → s.noHome s.mailbox = false → s.RindOk →
    ∃ t', exec .attestationRequest s = .next t' ∧ t'.lanes = s.lanes ∧ t'.launches = s.launches ∧
      t'.attest = (if s.homeNum (s.mailbox + 0x20020) 4 = s.attest then (s.attest + 1) % 2 ^ 32 else s.homeNum (s.mailbox + 0x20020) 4) ∧
      t'.homeNum (s.mailbox + 0x30000) 4 = 0x4F5A4944 ∧ t'.homeNum (s.mailbox + 0x300F8) 4 = t'.attest ∧
      ∀ k < 4, t'.homeNum (s.mailbox + 0x300A8 + 8 * k) 8 = s.homeNum (s.mailbox + 0x20000 + 8 * k) 8)

/-- A sag marks its die until the rail has been above its threshold 10 microseconds. A new power cap is put into KCAP, and
the window it is written in keeps the cap that stood as it began. A corrected error is only logged, with its unit. A
lasting error of part of a core fences that part and is logged; one of the command core fences the die; one of data
leaves the joined dies, the clauses and the groups as they are, and one consumed hands a MACHINE_CHECK record of its
launch, with the address, to its die. An error of a die-to-die link is logged, and a lasting one halves it on both
dies. (12_matrix_engine (R359, R360), 16_system (R432, R433, R434, R435, R436)) -/
def Obligations.PowerAndErrors : Prop :=
  (∀ (s : State), s.sub 0 < 60 → exec .supplySag s = .next (s.modDie (s.sub 0) (fun x => { x with sag := true, sagSince := s.now })).redraw) ∧
  (∀ (s : State), s.sub 0 < 60 → (s.die (s.sub 0)).sag = true → (s.die (s.sub 0)).sagSince + 10000 ≤ s.now →
    exec .sagRecovery s = .next (s.modDie (s.sub 0) (fun x => { x with sag := false })).redraw) ∧
  (∀ (s : State) c, s.sub 0 = c → c < 2 ^ 13 → c % 128 < 96 → s.diePresent (dieOfCore c) = true →
    exec .powerCapUpdate s = .next (s.modCore c (fun k => { k with
      kcap := BitVec.ofNat 8 (s.sub 1), kcapWas := if k.kcapAt = s.windowNow c then k.kcapWas else k.kcap, kcapAt := s.windowNow c })).redraw) ∧
  (∀ (s : State) a d kind, (kind = 1 ∨ kind = 2 ∨ kind = 4) → d = dieOfPa a → s.diePresent d = true → s.sub 1 = 0 → s.sub 2 = kind → s.sub 0 = a →
    exec .eccError s = .next (s.logEvent d 0 (s.errorUnit a) a 0).redraw) ∧
  (∀ (s : State) a d kind, 5 ≤ kind → kind ≤ 8 → d = dieOfCore a → a % 128 < 96 → s.diePresent d = true → s.sub 1 = 0 → s.sub 2 = kind → s.sub 0 = a →
    exec .eccError s = .next (s.logEvent d 0 4 (unitAt d a) 0).redraw) ∧
  (∀ (s : State) a d kind, 5 ≤ kind → kind ≤ 8 → d = dieOfCore a → a % 128 < 96 → s.diePresent d = true → s.sub 1 = 1 → s.sub 2 = kind → s.sub 0 = a →
    ∃ k, exec .eccError s = .next ((s.setCore k).logEvent d 1 4 (unitAt d a) 0).redraw ∧
      k = { s.core a with fencedBlocks := k.fencedBlocks, fencedLocal := k.fencedLocal, fencedTiles := k.fencedTiles } ∧
      k.fencedBlocks = (if kind = 5 then (s.core a).fencedBlocks + 32 else if kind = 8 then 512 else (s.core a).fencedBlocks) ∧
      k.fencedLocal = (if kind = 6 then (s.core a).fencedLocal + 65536 else (s.core a).fencedLocal) ∧
      k.fencedTiles = (if kind = 7 then (s.core a).fencedTiles + 1 else (s.core a).fencedTiles)) ∧
  (∀ (s : State) a d kind, kind = 4 → d = dieOfPa a → s.dies.length = 60 → s.diePresent d = true → s.sub 1 = 1 → s.sub 2 = kind → s.sub 0 = a →
    ∃ t', exec .eccError s = .next t' ∧ t'.diePresent d = false ∧ (t'.die d).boot = .fenced) ∧
  (∀ (s : State) a d kind, (kind = 1 ∨ kind = 2) → d = dieOfPa a → s.dies.length = 60 → s.diePresent d = true → s.sub 1 = 1 → s.sub 2 = kind → s.sub 0 = a →
    ∃ t', exec .eccError s = .next t' ∧ t'.dieMask = s.dieMask ∧ t'.lanes = s.lanes ∧ t'.groups = s.groups ∧
      (kind = 1 → ∃ r ∈ (t'.die d).faultWait, r.code = Code.machineCheck ∧ r.cls = Cls.launch ∧ r.launch = s.sub 3 ∧ r.addr = s.sub 4)) ∧
  (∀ (s : State) i, s.sub 0 = i → i < 30 → (s.diePresent (2 * i) || s.diePresent (2 * i + 1)) = true →
    (s.sub 1 = 0 → exec .dieLinkError s = .next (s.logEvent (s.recvDie i) 0 2 (i * 2 ^ 48) 0).redraw) ∧
    (s.sub 1 ≠ 0 → ∃ u : State, exec .dieLinkError s = .next (u.logEvent (s.recvDie i) 1 2 (i * 2 ^ 48) 0).redraw ∧
      u = (s.modDie (2 * i) (fun x => { x with linkHalf := true })).modDie (2 * i + 1) (fun x => { x with linkHalf := true })))

/-- Moving past a packet changes the queue's place and its RPTR alone, which is the outermost open LOOP or else the next
packet; an error halts the queue with its code and index. NOP passes; an opcode that is not assigned halts with error
1. A WAIT with a good condition passes where it holds and else arms an entry at its home and stalls. A LOOP reads its
count once and opens, skipping where the count is 0; an ENDLOOP goes back to the packet after the LOOP while turns are
left and else closes it; an IF tests its condition once and opens, skipping where it does not hold; an ELSE turns
skipping round at its own depth; an ENDIF closes. While packets are skipped LOOP and IF open one deeper and the ends
close. Up to eight are open. LOOP, IF, ELSE and ENDIF act once the queue's earlier launches are over. A SIGNAL stores,
or adds to, its word once they are and their writes have performed (log 54). The model's readings: passing an
unassigned opcode while packets are skipped, and RPTR at the outermost LOOP also where its count is 0 (log 50).
(15_command_engine (R402, R404, R405, R415, R416, R417, R418)) -/
def Obligations.PacketStructures : Prop :=
  (∀ (s : State) q, q < 256 → s.noHome s.mailbox = false → s.RindOk → s.queues.any (fun x => x.q == q) = true →
    (∀ x, s.queues.find? (fun x => x.q == q) = some x → ∃ y, (s.pass q).queue q = y ∧ y.next = (x.next + 1) % 2 ^ 32 ∧ y.stack = x.stack ∧ y.skip = x.skip ∧
      y.stalled = false ∧ (s.pass q).rptr q = (if x.stack.all (fun e => decide (e.1 ≠ 0)) then (x.next + 1) % 2 ^ 32 else x.released % 2 ^ 32)) ∧
    (∀ r, r ≠ q → ((s.pass q).queue r).next = (s.queue r).next ∧ ((s.pass q).queue r).stack = (s.queue r).stack) ∧
    (s.pass q).lanes = s.lanes ∧ (s.pass q).launches = s.launches ∧ (s.pass q).groups = s.groups ∧
    (∀ a, (s.mailbox + 64 * q + 20 ≤ a ∧ a < s.mailbox + 64 * q + 24) ∨ (s.pass q).homeByte a = s.homeByte a) ∧
    ∀ e < 256, (s.reject q e).qstate q = 2 ∧ (s.reject q e).qfield q 5 8 8 = e ∧
      (s.reject q e).qfield q 5 16 32 = (s.queue q).next % 2 ^ 32 ∧ (s.reject q e).lanes = s.lanes ∧ (s.reject q e).launches = s.launches) ∧
  (∀ (s : State) q x p, s.sub 0 = q → s.take q = some (x, p) → x.skip = 0 → x.busy ≠ some x.next → pfield p 0 0 8 = 0 → strayBits p [0xFF, 0, 0, 0] = false →
    exec .henezNop s = .next (s.pass q).redraw) ∧
  (∀ (s : State) q x p, s.sub 0 = q → s.take q = some (x, p) → pfield p 0 0 8 ∉ opcodes →
    (x.skip = 0 → exec .henezUnassigned s = .next (s.reject q 1).redraw) ∧ (0 < x.skip → exec .henezUnassigned s = .next (s.pass q).redraw)) ∧
  (∀ (s : State) q x p, s.sub 0 = q → s.take q = some (x, p) → x.skip = 0 → x.busy ≠ some x.next → q ≠ 0 → pfield p 0 0 8 = 3 → strayBits p [0xFFF, 0x1FFFFFFFFFFFFF, 0xFFFFFFFFFFFFFFFF, 0xFFFFFFFFFFFFFFFF] = false →
    badCondition p = false → s.noHome (pfield p 1 0 53) = false →
    (s.condNow p = true → exec .henezWait s = .next (s.pass q).redraw) ∧
    (s.condNow p = false → (s.die (dieOfPa (pfield p 1 0 53))).watch.length < 256 → s.dies.length = 60 →
      ∃ t', exec .henezWait s = .next t' ∧ t'.mem = s.mem ∧ t'.launches = s.launches ∧ (t'.queue q) = { x with stalled := true } ∧
        (t'.die (dieOfPa (pfield p 1 0 53))).watch = (s.die (dieOfPa (pfield p 1 0 53))).watch ++
          [{ addr := pfield p 1 0 53, mask := p.getD 3 0, ref := p.getD 2 0, cmp := pfield p 0 8 3, w64 := decide (pfield p 0 11 1 = 1), queue := q }])) ∧
  (∀ (s : State) q x p, s.sub 0 = q → s.take q = some (x, p) → q ≠ 0 → pfield p 0 0 8 = 5 → (x.skip = 0 → strayBits p [0xFF, 0x1FFFFFFFFFFFFF, 0, 0] = false) → s.launchesOpen q = false → x.stack.length < 8 → x.skip = 0 → s.noHome (pfield p 1 0 53) = false →
    exec .henezLoop s = .next (s.nest q ((0, x.next, s.homeNum (pfield p 1 0 53) 4) :: x.stack) (if s.homeNum (pfield p 1 0 53) 4 = 0 then 1 else 0)).redraw) ∧
  (∀ (s : State) q x p, s.sub 0 = q → s.take q = some (x, p) → q ≠ 0 → pfield p 0 0 8 = 5 → (x.skip = 0 → strayBits p [0xFF, 0x1FFFFFFFFFFFFF, 0, 0] = false) → s.launchesOpen q = false → x.stack.length < 8 → 0 < x.skip →
    exec .henezLoop s = .next (s.nest q ((0, x.next, 0) :: x.stack) (x.skip + 1)).redraw) ∧
  (∀ (s : State) q x p, s.sub 0 = q → s.take q = some (x, p) → q ≠ 0 → pfield p 0 0 8 = 6 → (x.skip = 0 → strayBits p [0xFF, 0, 0, 0] = false) → ((x.stack.head?).map (·.1)) = some 0 → (0 < x.skip ∨ (x.stack.headD (0, 0, 0)).2.2 ≤ 1) →
    exec .henezEndloop s = .next (s.nest q x.stack.tail (x.skip - 1)).redraw) ∧
  (∀ (s : State) q x p, s.sub 0 = q → s.take q = some (x, p) → q ≠ 0 → pfield p 0 0 8 = 6 → (x.skip = 0 → strayBits p [0xFF, 0, 0, 0] = false) → ∀ a n rest, x.stack = (0, a, n + 2) :: rest → x.skip = 0 →
    exec .henezEndloop s = .next (s.moveQueue q (fun x => { x with stack := (0, a, n + 1) :: rest, next := (a + 1) % 2 ^ 32 })).redraw) ∧
  (∀ (s : State) q x p, s.sub 0 = q → s.take q = some (x, p) → q ≠ 0 → pfield p 0 0 8 = 7 → (x.skip = 0 → strayBits p [0xFFF, 0x1FFFFFFFFFFFFF, 0xFFFFFFFFFFFFFFFF, 0xFFFFFFFFFFFFFFFF] = false) → s.launchesOpen q = false → x.stack.length < 8 → x.skip = 0 → badCondition p = false → s.noHome (pfield p 1 0 53) = false →
    exec .henezIf s = .next (s.nest q ((1, x.next, 0) :: x.stack) (if s.condNow p then 0 else 1)).redraw) ∧
  (∀ (s : State) q x p, s.sub 0 = q → s.take q = some (x, p) → q ≠ 0 → pfield p 0 0 8 = 7 → (x.skip = 0 → strayBits p [0xFFF, 0x1FFFFFFFFFFFFF, 0xFFFFFFFFFFFFFFFF, 0xFFFFFFFFFFFFFFFF] = false) → s.launchesOpen q = false → x.stack.length < 8 → 0 < x.skip →
    exec .henezIf s = .next (s.nest q ((1, x.next, 0) :: x.stack) (x.skip + 1)).redraw) ∧
  (∀ (s : State) q x p, s.sub 0 = q → s.take q = some (x, p) → q ≠ 0 → pfield p 0 0 8 = 8 → (x.skip = 0 → strayBits p [0xFF, 0, 0, 0] = false) → s.launchesOpen q = false → ∀ a n rest, x.stack = (1, a, n) :: rest →
    exec .henezElse s = .next (s.nest q ((2, a, n) :: rest) (if x.skip = 0 then 1 else if x.skip = 1 then 0 else x.skip)).redraw) ∧
  (∀ (s : State) q x p, s.sub 0 = q → s.take q = some (x, p) → q ≠ 0 → pfield p 0 0 8 = 9 → (x.skip = 0 → strayBits p [0xFF, 0, 0, 0] = false) → s.launchesOpen q = false → (((x.stack.head?).map (·.1)) = some 1 ∨ ((x.stack.head?).map (·.1)) = some 2) →
    exec .henezEndif s = .next (s.nest q x.stack.tail (x.skip - 1)).redraw) ∧
  (∀ (s : State) q x p, s.sub 0 = q → s.take q = some (x, p) → x.skip = 0 → x.busy ≠ some x.next → pfield p 0 0 8 = 4 → strayBits p [0x1F07FF, 0x1FFFFFFFFFFFFFF, 0xFFFFFFFFFFFFFFFF, 0] = false →
    ∀ pa grain n, pfield p 0 8 1 = 0 → n = (if pfield p 0 9 1 = 1 then 8 else 4) → (pfield p 0 10 1 = 0 → pfield p 1 53 4 = 0) →
    s.launchesOpen q = false → (∀ k ∈ s.cores, ∀ e ∈ k.path, ∀ y ∈ s.launches, y.queue = q → e.launch ≠ y.num) → s.signalAt q p = .home pa grain →
    exec .henezSignalStore s = .next ((s.homeWriteAll pa grain (bytesOf (pfield p 2 0 64) n)).pass q).redraw) ∧
  (∀ (s : State) q x p, s.sub 0 = q → s.take q = some (x, p) → x.skip = 0 → x.busy ≠ some x.next → pfield p 0 0 8 = 4 → strayBits p [0x1F07FF, 0x1FFFFFFFFFFFFFF, 0xFFFFFFFFFFFFFFFF, 0] = false →
    ∀ pa grain n, pfield p 0 8 1 = 1 → n = (if pfield p 0 9 1 = 1 then 8 else 4) → (pfield p 0 10 1 = 0 → pfield p 1 53 4 = 0) →
    s.launchesOpen q = false → (∀ k ∈ s.cores, ∀ e ∈ k.path, ∀ y ∈ s.launches, y.queue = q → e.launch ≠ y.num) → s.signalAt q p = .home pa grain →
    exec .henezSignalAdd s = .next ((s.homeWriteAll pa grain (bytesOf (s.homeNum pa n + pfield p 2 0 64) n)).pass q).redraw)

/-- A launch packet, where the lease holder may give a number, takes the next one, with the block, extents, debug bit and
queue of its packet, and waits or is refused for one of the seven reasons. Placed, where it may take its place and
fits, it has one team on each core of its list, its groups at its entry clause, and zero die scratch. It is over, with
no team, group or operation left, when it owes nothing, or once stopped when its groups have halted. Under a lease
holder: PREEMPT holds a launch, RESUME releases it, ABORT ends a held one. A MAP answers the request that FILL 2 has
left to the host: it maps the page and tells its waiters, or declines. TOPO replaces the topology by one that topoOk
accepts while no launch is placed; PAGEMODE starts the changes of its pages and stalls; BANKROLE is accepted where 8
cache banks will be left, and once its die is free leaves it with its roles, no block, no predictor entry, no operand
buffer, zero scratch, its L1s empty, and other bytes as before; XFER leaves memory, or stores the bytes that came. The
model's choices: PREEMPT holding a launch not yet placed (log 55), which pages PAGEMODE changes (log 52), and an XFER
in one step with free bytes from the far end (log 13). (01_device_overview (R27), 06_traps_and_context (R168),
08_translation (R241), 09_near_cache_engine (R257), 14_fabric_engine (R376, R397), 15_command_engine (R406, R407,
R409, R410, R419, R423)) -/
def Obligations.LaunchPackets : Prop :=
  (∀ (s : State) q x p, s.sub 0 = q → s.take q = some (x, p) → x.skip = 0 → x.busy ≠ some x.next → q ≠ 0 → pfield p 0 0 8 = 1 → strayBits p [0x3FF, 0x1FFFFFFFFFFFFF, 0xFFFFFFFFFFFFFFFF, 0xFFFFFFFF] = false →
    pfield p 1 0 53 % 128 = 0 → (pfield p 0 9 1 = 1 → s.launchesOpen q = false) → s.dies.length = 60 → 
    (∀ d, s.leader? = some d → notAfter (s.die d).lease.next (s.die d).lease.ackedCeiling = true → ∃ t' y, exec .henezLaunch s = .next t' ∧ t'.launch? (s.die d).lease.next = some y ∧ y.queue = q ∧ y.ext = (pfield p 2 0 32, pfield p 2 32 32, pfield p 3 0 32) ∧
      y.debug = decide (pfield p 0 8 1 = 1) ∧ y.block = (s.cmdWords (pfield p 1 0 53) 16 8).map (BitVec.ofNat 64) ∧
      (y.phase = .waiting ∨ (y.phase = .over ∧ 1 ≤ y.reason ∧ y.reason ≤ 7)) ∧ (t'.die d).lease.next = nextNumber (s.die d).lease.next ∧
      t'.teams = s.teams ∧ t'.groups = s.groups ∧ t'.lanes = s.lanes)) ∧
  (∀ (s : State) q x p, s.sub 0 = q → s.take q = some (x, p) → x.skip = 0 → x.busy ≠ some x.next → q ≠ 0 → pfield p 0 0 8 = 2 → strayBits p [0x1FF, 0x1FFFFFFFFFFFFF, 0x1FFFFFFFFFFFFF, 0] = false →
    pfield p 1 0 53 % 128 = 0 → s.launchesOpen q = false → s.dies.length = 60 → ∀ a, a = pfield p 2 0 53 → a % 16 = 0 → s.noHome a = false → 
    (∀ d, s.leader? = some d → notAfter (s.die d).lease.next (s.die d).lease.ackedCeiling = true → ∃ t' y, exec .henezLaunchInd s = .next t' ∧ t'.launch? (s.die d).lease.next = some y ∧ y.queue = q ∧ y.ext = (s.homeNum a 4, s.homeNum (a + 4) 4, s.homeNum (a + 8) 4) ∧
      y.debug = decide (pfield p 0 8 1 = 1) ∧ y.block = (s.cmdWords (pfield p 1 0 53) 16 8).map (BitVec.ofNat 64) ∧
      (y.phase = .waiting ∨ (y.phase = .over ∧ 1 ≤ y.reason ∧ y.reason ≤ 7)) ∧ (t'.die d).lease.next = nextNumber (s.die d).lease.next ∧
      t'.teams = s.teams ∧ t'.groups = s.groups ∧ t'.lanes = s.lanes)) ∧
  (∀ (s : State) x, s.launch? (s.sub 0) = some x → x.phase = .waiting → x.held = false → s.leader?.isSome = true →
    (∀ y ∈ s.launches.takeWhile (fun y => y.num != x.num), y.queue = x.queue → y.phase ≠ .waiting) → s.mayTake x.num = true → s.fitsWithout x [] = true →
    ∃ t' y, exec .launchPlace s = .next t' ∧ t'.launch? x.num = some y ∧ y.phase = .placed ∧ y.block = x.block ∧ y.cores = x.cores ∧
      t'.groups = s.groups ++ (List.range x.cores.length).flatMap x.startGroups ∧ t'.teams.length = s.teams.length + x.cores.length ∧
      (∀ i < x.cores.length, ∃ slot, x.startTeam i (x.cores.getD i 0) slot ∈ t'.teams) ∧
      (∀ a, Cells.get 0 t'.mem a = if a / 2 ^ 60 = x.num + 1 then 0 else Cells.get 0 s.mem a)) ∧
  (∀ (s : State) x, s.launch? (s.sub 0) = some x → x.phase ≠ .over →
    ((x.stopping = true ∧ x.kept = false ∧ (∀ t ∈ s.alive x.num, t.ctx ≠ .run) ∧ ∀ l ∈ s.lanes, l.launch ≠ x.num) ∨
      (x.stopping = false ∧ x.phase = .placed ∧ s.alive x.num = [] ∧ s.owesNothing x.num = true)) →
    ∃ t' y, exec .launchRetire s = .next t' ∧ t'.launch? x.num = some y ∧ y.phase = .over ∧ y.stopping = false ∧
      (∀ t ∈ t'.teams, t.launch ≠ x.num) ∧ (∀ g ∈ t'.groups, g.launch ≠ x.num) ∧ (∀ o ∈ t'.ops, o.launch ≠ x.num)) ∧
  (∀ (s : State) q x p, s.sub 0 = q → s.take q = some (x, p) → x.skip = 0 → x.busy ≠ some x.next → pfield p 0 0 8 = 0x13 → strayBits p [0xFFFFFFFF000003FF, 0, 0, 0] = false →
    s.leader?.isSome = true → ∀ y, pfield p 0 8 1 = 0 → pfield p 0 9 1 = 0 → s.launch? (pfield p 0 32 32) = some y → y.stopping = false → y.phase ≠ .over → y.num = (pfield p 0 32 32) →
    (∀ z ∈ s.launches, z.num = y.num → z = y) → exec .henezPreempt s = .next ((s.modLaunch (pfield p 0 32 32) (fun x => { x with held := true })).pass q).redraw) ∧
  (∀ (s : State) q x p, s.sub 0 = q → s.take q = some (x, p) → x.skip = 0 → x.busy ≠ some x.next → pfield p 0 0 8 = 0x13 → strayBits p [0xFFFFFFFF000003FF, 0, 0, 0] = false →
    s.leader?.isSome = true → pfield p 0 8 1 = 1 → pfield p 0 9 1 = 0 →
    exec .henezPreemptResume s = .next ((s.modLaunch (pfield p 0 32 32) (fun x => { x with held := false, kept := x.kept && x.stopping })).pass q).redraw) ∧
  (∀ (s : State) q x p, s.sub 0 = q → s.take q = some (x, p) → x.skip = 0 → x.busy ≠ some x.next → pfield p 0 0 8 = 0x13 → strayBits p [0xFFFFFFFF000003FF, 0, 0, 0] = false →
    s.leader?.isSome = true → ∀ y, pfield p 0 8 1 = 0 → pfield p 0 9 1 = 1 → s.launch? (pfield p 0 32 32) = some y → y.phase ≠ .over → y.held = true →
    (y.kept = false → exec .henezPreemptAbort s = .next ((s.endLaunch y 4 0).pass q).redraw) ∧
    (y.kept = true → exec .henezPreemptAbort s = .next (((s.endLaunch y 4 0).haltQueue y.queue 4 y.pkt).pass q).redraw)) ∧
  (∀ (s : State) x p r, s.leader?.isSome = true → s.sub 0 = 0 → s.take 0 = some (x, p) → x.skip = 0 → x.busy ≠ some x.next → pfield p 0 0 8 = 0x14 → pfield p 0 13 1 = 0 →
    strayBits p [0xFFFFFFFF00003FFF, 0x1FFFFFFFFFFFFFF, 0xFFFFFFFFFFFFFFFF, 0] = false → s.mapReqs.find? (fun r => r.isl == pfield p 0 8 5 && r.launch == (pfield p 0 32 32) && r.page == pfield p 1 0 57) = some r →
    (p.getD 2 0).getLsbD 0 = true → (p.getD 2 0).getLsbD 1 = true → inTransition (p.getD 2 0) = false → leafOk (p.getD 2 0) r.size = true →
    (∃ a b c d e, s.mappedAt (pfield p 0 8 5) (pfield p 0 32 32) (pfield p 1 0 57) = some (.absent a b c d e) ∧ (r.posted = true ∨ c = 2)) →
    exec .henezMap s = .next ((((s.writeLeaf (pfield p 0 8 5) (pfield p 0 32 32) (pfield p 1 0 57) r.size (p.getD 2 0)).sendNotices (pfield p 0 8 5) (pfield p 0 32 32) (pfield p 1 0 57) r.size false).pass 0)).redraw) ∧
  (∀ (s : State) x p r, s.leader?.isSome = true → s.sub 0 = 0 → s.take 0 = some (x, p) → x.skip = 0 → x.busy ≠ some x.next → pfield p 0 0 8 = 0x14 → pfield p 0 13 1 = 1 →
    strayBits p [0xFFFFFFFF00003FFF, 0x1FFFFFFFFFFFFFF, 0xFFFFFFFFFFFFFFFF, 0] = false → s.mapReqs.find? (fun r => r.isl == pfield p 0 8 5 && r.launch == (pfield p 0 32 32) && r.page == pfield p 1 0 57) = some r →
    (∃ a b c d e, s.mappedAt (pfield p 0 8 5) (pfield p 0 32 32) (pfield p 1 0 57) = some (.absent a b c d e) ∧ (r.posted = true ∨ c = 2)) →
    exec .henezMapDecline s = .next (((s.sendNotices (pfield p 0 8 5) (pfield p 0 32 32) (pfield p 1 0 57) r.size true).pass 0)).redraw) ∧
  (∀ (s : State) q x p, s.sub 0 = q → s.take q = some (x, p) → x.skip = 0 → x.busy ≠ some x.next → q ≠ 0 → pfield p 0 0 8 = 0x12 → strayBits p [0xFF, 0x1FFFFFFFFFFFFF, 0, 0] = false →
    s.leader?.isSome = true → ∀ ts, s.launches.any Launch.onDies = false → s.noHome (pfield p 1 0 53) = false →
    ts = (List.range 900).map (fun i => BitVec.ofNat 32 (s.cmdNum (pfield p 1 0 53 + 4 * i) 4)) → s.topoOk ts = true →
    exec .henezTopo s = .next ({ s with topo := ts }.pass q).redraw) ∧
  (∀ (s : State) q x p, s.sub 0 = q → s.take q = some (x, p) → x.skip = 0 → x.busy ≠ some x.next → q ≠ 0 → pfield p 0 0 8 = 0x11 → strayBits p [0xFFFFFFFF00001FFF, 0x1FFFFFFFFFFFFFF, 0xFFFFFFFFFFFFFFFF, 0xFFFFFFFF] = false →
    s.leader?.isSome = true → ∀ y t n, pfield p 3 0 32 = n → n ≠ 0 → pfield p 0 8 5 < 30 → (p.getD 2 0).getLsbD 1 = true → inTransition (p.getD 2 0) = false →
    leafOk (p.getD 2 0) 65536 = true → leafOk (p.getD 2 0) t.size = true → s.launch? (pfield p 0 32 32) = some y → y.phase ≠ .over →
    s.mappedAt (pfield p 0 8 5) (pfield p 0 32 32) (pfield p 1 0 57) = some (.present t) → t.page = pfield p 1 0 57 → t.page + n * t.size ≤ windowBase →
    (∀ k < n, ∃ e, s.islandEntry (pfield p 0 8 5) (pfield p 0 32 32) (t.page + k * t.size) t.size = some e ∧ e.getLsbD 1 = true) →
    (∀ c ∈ s.changes, c.launch = (pfield p 0 32 32) → c.isl = pfield p 0 8 5 → meets c.page c.size t.page (n * t.size) = false) →
    ∃ t' cs, exec .henezPagemode s = .next t' ∧ t'.mem = s.mem ∧ t'.launches = s.launches ∧ (t'.queue q) = { x with stalled := true } ∧
      t'.changes = s.changes ++ cs ∧ cs.map (·.page) = (List.range n).map (fun k => t.page + k * t.size) ∧
      ∀ c ∈ cs, c.size = t.size ∧ c.launch = (pfield p 0 32 32) ∧ c.isl = pfield p 0 8 5 ∧ c.queue = q ∧ c.retire = false) ∧
  (∀ (s : State) q x p, s.sub 0 = q → s.take q = some (x, p) → x.skip = 0 → x.busy ≠ some x.next → q ≠ 0 → pfield p 0 0 8 = 0x10 → strayBits p [0x1FFFFFFF, 0xFFFFFFFF, 0, 0] = false →
    s.leader?.isSome = true → ∀ d, d = 2 * pfield p 0 8 5 + pfield p 0 13 1 → pfield p 0 8 5 < 30 → s.diePresent d = true → pfield p 0 14 2 ≠ 3 → pfield p 0 16 13 ≤ 4608 →
    fewCaches (rolesAfter (s.die d) ((s.die d).bankCmd ++ [(q, pfield p 1 0 32, pfield p 0 14 2, pfield p 0 16 13)])) = false →
    s.dies.length = 60 → ∃ t', exec .henezBankrole s = .next t' ∧ t'.mem = s.mem ∧ t'.launches = s.launches ∧ (t'.queue q) = { x with stalled := true } ∧
      t'.die d = { s.die d with bankCmd := (s.die d).bankCmd ++ [(q, pfield p 1 0 32, pfield p 0 14 2, pfield p 0 16 13)] } ∧ ∀ e, e ≠ d → t'.die e = s.die e) ∧
  (∀ (s : State) d q mask role quota rest, s.sub 0 = d → d < 60 → s.dies.length = 60 → (s.die d).bankCmd = (q, mask, role, quota) :: rest → s.dieInUse d = false → s.leader?.isSome = true → fewCaches (rolesAfter (s.die d) [(q, mask, role, quota)]) = false → s.RindOk →
    ∃ t', exec .bankroleExecute s = .next t' ∧ t'.launches = s.launches ∧ (t'.die d).bankCmd = rest ∧ (t'.die d).obuf = [] ∧ (t'.die d).predictor = [] ∧
      (t'.die d).blocks = [] ∧ (t'.die d).brole.length = (s.die d).brole.length ∧
      (∀ b < (s.die d).brole.length, (t'.die d).brole.getD b {} = if mask.testBit b then { (s.die d).brole.getD b {} with role := role, accq := quota, aused := 0 }
        else { (s.die d).brole.getD b {} with aused := 0 }) ∧
      (∀ k ∈ t'.cores, dieOfCore k.id = d → k.l1 = []) ∧
      ∀ a, t'.homeByte a = if isScratch a = true ∧ dieOfPa a = d then 0 else s.homeByte a) ∧
  (∀ (s : State) q x p, s.sub 0 = q → s.take q = some (x, p) → x.skip = 0 → x.busy ≠ some x.next → q ≠ 0 → pfield p 0 0 8 = 0x15 → strayBits p [0xFFFFFFFF000003FF, 0x1FFFFFFFFFFFFF, 0x1FFFFFFFFFFFFF, 0] = false →
    s.leader?.isSome = true → pfield p 0 9 1 = 0 → pfield p 0 32 32 % 32 = 0 → s.launchesOpen q = false → s.sub 1 ≠ 1 → s.noHome (pfield p 1 0 53) = false →
    s.noHome (pfield p 1 0 53 + pfield p 0 32 32 - 1) = false → exec .henezXferSend s = .next (s.pass q).redraw) ∧
  (∀ (s : State) q x p, s.sub 0 = q → s.take q = some (x, p) → x.skip = 0 → x.busy ≠ some x.next → q ≠ 0 → pfield p 0 0 8 = 0x15 → strayBits p [0xFFFFFFFF000003FF, 0x1FFFFFFFFFFFFF, 0x1FFFFFFFFFFFFF, 0] = false →
    s.leader?.isSome = true → pfield p 0 9 1 = 1 → pfield p 0 32 32 % 32 = 0 → s.launchesOpen q = false → s.sub 1 ≠ 1 → s.noHome (pfield p 1 0 53) = false →
    s.noHome (pfield p 1 0 53 + pfield p 0 32 32 - 1) = false → exec .henezXferFetch s = .next ((s.cmdWrite (pfield p 1 0 53) ((List.range (pfield p 0 32 32)).map (fun i => Config.farByte (pfield p 0 8 1) (pfield p 2 0 53 + i)))).pass q).redraw)
end

