-- ==== Sys2Proof/Laws/Cells.lean ====
section
/-!
SUPPORT. Laws/Cells.lean: the laws of the sparse maps: reading what was written, leaving the other keys alone, and
keeping the canonical form.
-/
namespace Sys2Proof

theorem Cells.get_insert_same {α : Type} (z : α) (m : Cells α) (k : Nat) (v : α) (h : ∀ e ∈ m, e.1 ≠ k) :
    Cells.get z (Cells.insert m k v) k = v := by
  induction m with
  | nil => simp [Cells.insert, Cells.get]
  | cons e m ih =>
    obtain ⟨k', v'⟩ := e
    have hk : k' ≠ k := h (k', v') (by simp)
    simp only [Cells.insert]
    split
    · simp [Cells.get]
    · simp only [Cells.get, if_neg hk.symm]
      exact ih (fun e he => h e (by simp [he]))

theorem Cells.get_insert_other {α : Type} (z : α) (m : Cells α) (k j : Nat) (v : α) (h : j ≠ k) :
    Cells.get z (Cells.insert m k v) j = Cells.get z m j := by
  induction m with
  | nil => simp [Cells.insert, Cells.get, h]
  | cons e m ih =>
    obtain ⟨k', v'⟩ := e
    simp only [Cells.insert]
    split
    · simp [Cells.get, h]
    · simp only [Cells.get]
      split
      · rfl
      · exact ih

theorem Cells.get_filter {α : Type} (z : α) (p : Nat → Bool) (m : Cells α) (j : Nat) :
    Cells.get z (m.filter (fun e => p e.1)) j = if p j then Cells.get z m j else z := by
  induction m with
  | nil => simp [Cells.get]
  | cons e m ih =>
    obtain ⟨k', v'⟩ := e
    by_cases hp : p k'
    · simp only [List.filter_cons, hp, if_true, Cells.get]
      by_cases hj : j = k'
      · subst hj; simp [hp]
      · simp only [if_neg hj]; exact ih
    · simp only [List.filter_cons, hp, Cells.get]
      by_cases hj : j = k'
      · subst hj; simpa [hp] using ih
      · simpa [hj] using ih

/-- Reading the key just written gives the value written. -/
theorem Cells.get_set_same {α : Type} [DecidableEq α] (z : α) (m : Cells α) (k : Nat) (v : α) :
    Cells.get z (Cells.set z m k v) k = v := by
  unfold Cells.set
  split
  · rename_i h
    rw [Cells.get_filter z (fun x => decide (x ≠ k)) m k]
    simp [h]
  · apply Cells.get_insert_same
    intro e he
    simpa using (List.mem_filter.mp he).2

/-- Every other key reads as before. -/
theorem Cells.get_set_other {α : Type} [DecidableEq α] (z : α) (m : Cells α) (k j : Nat) (v : α) (h : j ≠ k) :
    Cells.get z (Cells.set z m k v) j = Cells.get z m j := by
  unfold Cells.set
  have hf := Cells.get_filter z (fun x => decide (x ≠ k)) m j
  rw [if_pos (by simpa using h)] at hf
  split
  · exact hf
  · rw [Cells.get_insert_other z _ k j v h]; exact hf

@[simp] theorem Cells.get_set {α : Type} [DecidableEq α] (z : α) (m : Cells α) (k j : Nat) (v : α) :
    Cells.get z (Cells.set z m k v) j = if j = k then v else Cells.get z m j := by
  split
  · rename_i h; subst h; exact Cells.get_set_same z m j v
  · rename_i h; exact Cells.get_set_other z m k j v h

@[simp] theorem Cells.get_keep {α : Type} (z : α) (p : Nat → Bool) (m : Cells α) (j : Nat) :
    Cells.get z (Cells.keep p m) j = if p j then Cells.get z m j else z := Cells.get_filter z p m j

theorem Cells.wfFrom_le {α : Type} [DecidableEq α] {z : α} {m : Cells α} {a b : Nat} (h : a ≤ b)
    (w : Cells.wfFrom z b m = true) : Cells.wfFrom z a m = true := by
  cases m with
  | nil => rfl
  | cons e m =>
    simp only [Cells.wfFrom, Bool.and_eq_true, decide_eq_true_eq] at w ⊢
    exact ⟨⟨by omega, w.1.2⟩, w.2⟩

theorem Cells.wfFrom_filter {α : Type} [DecidableEq α] {z : α} (p : Nat × α → Bool) {m : Cells α} {lo : Nat}
    (w : Cells.wfFrom z lo m = true) : Cells.wfFrom z lo (m.filter p) = true := by
  induction m generalizing lo with
  | nil => rfl
  | cons e m ih =>
    simp only [Cells.wfFrom, Bool.and_eq_true, decide_eq_true_eq] at w
    simp only [List.filter_cons]
    split
    · simp only [Cells.wfFrom, Bool.and_eq_true, decide_eq_true_eq]
      exact ⟨w.1, ih w.2⟩
    · exact ih (Cells.wfFrom_le (by omega) w.2)

theorem Cells.wfFrom_insert {α : Type} [DecidableEq α] {z : α} {m : Cells α} {lo k : Nat} {v : α} (hk : lo ≤ k)
    (hv : v ≠ z) (hn : ∀ e ∈ m, e.1 ≠ k) (w : Cells.wfFrom z lo m = true) : Cells.wfFrom z lo (Cells.insert m k v) = true := by
  induction m generalizing lo with
  | nil => simp [Cells.insert, Cells.wfFrom, hk, hv]
  | cons e m ih =>
    simp only [Cells.wfFrom, Bool.and_eq_true, decide_eq_true_eq] at w
    have hne : e.1 ≠ k := hn e (by simp)
    simp only [Cells.insert]
    split
    · rename_i hlt
      simp only [Cells.wfFrom, Bool.and_eq_true, decide_eq_true_eq]
      exact ⟨⟨hk, hv⟩, ⟨by omega, w.1.2⟩, w.2⟩
    · simp only [Cells.wfFrom, Bool.and_eq_true, decide_eq_true_eq]
      exact ⟨w.1, ih (by omega) (fun x hx => hn x (by simp [hx])) w.2⟩

/-- A write keeps the canonical form. -/
theorem Cells.wf_set {α : Type} [DecidableEq α] {z : α} {m : Cells α} (k : Nat) (v : α) (w : Cells.wf z m = true) :
    Cells.wf z (Cells.set z m k v) = true := by
  unfold Cells.set Cells.wf
  have hf := Cells.wfFrom_filter (fun e => decide (e.1 ≠ k)) w
  split
  · exact hf
  · rename_i h
    exact Cells.wfFrom_insert (Nat.zero_le k) h (fun e he => by simpa using (List.mem_filter.mp he).2) hf

/-- So does keeping some of the entries. -/
theorem Cells.wf_keep {α : Type} [DecidableEq α] {z : α} {m : Cells α} (p : Nat → Bool) (w : Cells.wf z m = true) :
    Cells.wf z (Cells.keep p m) = true := Cells.wfFrom_filter (fun e => p e.1) w

/-- And a run of writes. -/
theorem Cells.wf_foldl {α β : Type} [DecidableEq α] {z : α} (f : β → Nat) (g : β → α) (l : List β) {m : Cells α}
    (w : Cells.wf z m = true) : Cells.wf z (l.foldl (fun m x => Cells.set z m (f x) (g x)) m) = true := by
  induction l generalizing m with
  | nil => exact w
  | cons x l ih => exact ih (Cells.wf_set (f x) (g x) w)

/-- What a key reads as after a run of writes to keys that all differ: the value its own write gave, if it has one. -/
theorem Cells.get_foldl {α β : Type} [DecidableEq α] (z : α) (f : β → Nat) (g : β → α) (l : List β) (m : Cells α) (j : Nat) :
    Cells.get z (l.foldl (fun m x => Cells.set z m (f x) (g x)) m) j =
      match l.reverse.find? (fun x => decide (f x = j)) with
      | some x => g x
      | none => Cells.get z m j := by
  induction l generalizing m with
  | nil => rfl
  | cons x l ih =>
    rw [List.foldl_cons, ih, List.reverse_cons, List.find?_append]
    cases hfind : l.reverse.find? (fun x => decide (f x = j)) with
    | some y => rfl
    | none =>
      by_cases hx : f x = j
      · subst hx; simp
      · simp [hx, Ne.symm hx]

end Sys2Proof
end

