-- ==== Sys2Proof/Laws/State.lean ====
section
/-!
SUPPORT. Laws/State.lean: what the updates of one part of the state leave alone, field by field, and what the parts then
are.
-/
namespace Sys2Proof.Machine

/-! ### setGroup changes only groups -/

@[simp] theorem State.setGroup_islMask (s : State) (g : Group) : (s.setGroup g).islMask = s.islMask := rfl
@[simp] theorem State.setGroup_dieMask (s : State) (g : Group) : (s.setGroup g).dieMask = s.dieMask := rfl
@[simp] theorem State.setGroup_now (s : State) (g : Group) : (s.setGroup g).now = s.now := rfl
@[simp] theorem State.setGroup_fabricTime (s : State) (g : Group) : (s.setGroup g).fabricTime = s.fabricTime := rfl
@[simp] theorem State.setGroup_slot (s : State) (g : Group) : (s.setGroup g).slot = s.slot := rfl
@[simp] theorem State.setGroup_dies (s : State) (g : Group) : (s.setGroup g).dies = s.dies := rfl
@[simp] theorem State.setGroup_mem (s : State) (g : Group) : (s.setGroup g).mem = s.mem := rfl
@[simp] theorem State.setGroup_cores (s : State) (g : Group) : (s.setGroup g).cores = s.cores := rfl
@[simp] theorem State.setGroup_launches (s : State) (g : Group) : (s.setGroup g).launches = s.launches := rfl
@[simp] theorem State.setGroup_teams (s : State) (g : Group) : (s.setGroup g).teams = s.teams := rfl
@[simp] theorem State.setGroup_lanes (s : State) (g : Group) : (s.setGroup g).lanes = s.lanes := rfl
@[simp] theorem State.setGroup_ops (s : State) (g : Group) : (s.setGroup g).ops = s.ops := rfl
@[simp] theorem State.setGroup_fills (s : State) (g : Group) : (s.setGroup g).fills = s.fills := rfl
@[simp] theorem State.setGroup_ranges (s : State) (g : Group) : (s.setGroup g).ranges = s.ranges := rfl
@[simp] theorem State.setGroup_contribs (s : State) (g : Group) : (s.setGroup g).contribs = s.contribs := rfl
@[simp] theorem State.setGroup_mmas (s : State) (g : Group) : (s.setGroup g).mmas = s.mmas := rfl
@[simp] theorem State.setGroup_copies (s : State) (g : Group) : (s.setGroup g).copies = s.copies := rfl
@[simp] theorem State.setGroup_fabs (s : State) (g : Group) : (s.setGroup g).fabs = s.fabs := rfl
@[simp] theorem State.setGroup_packets (s : State) (g : Group) : (s.setGroup g).packets = s.packets := rfl
@[simp] theorem State.setGroup_arrivals (s : State) (g : Group) : (s.setGroup g).arrivals = s.arrivals := rfl
@[simp] theorem State.setGroup_gangQ (s : State) (g : Group) : (s.setGroup g).gangQ = s.gangQ := rfl
@[simp] theorem State.setGroup_mapReqs (s : State) (g : Group) : (s.setGroup g).mapReqs = s.mapReqs := rfl
@[simp] theorem State.setGroup_notices (s : State) (g : Group) : (s.setGroup g).notices = s.notices := rfl
@[simp] theorem State.setGroup_shoots (s : State) (g : Group) : (s.setGroup g).shoots = s.shoots := rfl
@[simp] theorem State.setGroup_changes (s : State) (g : Group) : (s.setGroup g).changes = s.changes := rfl
@[simp] theorem State.setGroup_topo (s : State) (g : Group) : (s.setGroup g).topo = s.topo := rfl
@[simp] theorem State.setGroup_links (s : State) (g : Group) : (s.setGroup g).links = s.links := rfl
@[simp] theorem State.setGroup_blackout (s : State) (g : Group) : (s.setGroup g).blackout = s.blackout := rfl
@[simp] theorem State.setGroup_queues (s : State) (g : Group) : (s.setGroup g).queues = s.queues := rfl
@[simp] theorem State.setGroup_attest (s : State) (g : Group) : (s.setGroup g).attest = s.attest := rfl
@[simp] theorem State.setGroup_mailboxMoved (s : State) (g : Group) : (s.setGroup g).mailboxMoved = s.mailboxMoved := rfl
@[simp] theorem State.setGroup_retired (s : State) (g : Group) : (s.setGroup g).retired = s.retired := rfl
@[simp] theorem State.setGroup_hostData (s : State) (g : Group) : (s.setGroup g).hostData = s.hostData := rfl
@[simp] theorem State.setGroup_nextId (s : State) (g : Group) : (s.setGroup g).nextId = s.nextId := rfl
@[simp] theorem State.setGroup_freeCtr (s : State) (g : Group) : (s.setGroup g).freeCtr = s.freeCtr := rfl
@[simp] theorem State.setGroup_subj (s : State) (g : Group) : (s.setGroup g).subj = s.subj := rfl
@[simp] theorem State.setGroup_sched (s : State) (g : Group) : (s.setGroup g).sched = s.sched := rfl

/-! ### modGroup changes only groups -/

@[simp] theorem State.modGroup_islMask (s : State) (L T G : Nat) (f : Group → Group) : (s.modGroup L T G f).islMask = s.islMask := rfl
@[simp] theorem State.modGroup_dieMask (s : State) (L T G : Nat) (f : Group → Group) : (s.modGroup L T G f).dieMask = s.dieMask := rfl
@[simp] theorem State.modGroup_now (s : State) (L T G : Nat) (f : Group → Group) : (s.modGroup L T G f).now = s.now := rfl
@[simp] theorem State.modGroup_fabricTime (s : State) (L T G : Nat) (f : Group → Group) : (s.modGroup L T G f).fabricTime = s.fabricTime := rfl
@[simp] theorem State.modGroup_slot (s : State) (L T G : Nat) (f : Group → Group) : (s.modGroup L T G f).slot = s.slot := rfl
@[simp] theorem State.modGroup_dies (s : State) (L T G : Nat) (f : Group → Group) : (s.modGroup L T G f).dies = s.dies := rfl
@[simp] theorem State.modGroup_mem (s : State) (L T G : Nat) (f : Group → Group) : (s.modGroup L T G f).mem = s.mem := rfl
@[simp] theorem State.modGroup_cores (s : State) (L T G : Nat) (f : Group → Group) : (s.modGroup L T G f).cores = s.cores := rfl
@[simp] theorem State.modGroup_launches (s : State) (L T G : Nat) (f : Group → Group) : (s.modGroup L T G f).launches = s.launches := rfl
@[simp] theorem State.modGroup_teams (s : State) (L T G : Nat) (f : Group → Group) : (s.modGroup L T G f).teams = s.teams := rfl
@[simp] theorem State.modGroup_lanes (s : State) (L T G : Nat) (f : Group → Group) : (s.modGroup L T G f).lanes = s.lanes := rfl
@[simp] theorem State.modGroup_ops (s : State) (L T G : Nat) (f : Group → Group) : (s.modGroup L T G f).ops = s.ops := rfl
@[simp] theorem State.modGroup_fills (s : State) (L T G : Nat) (f : Group → Group) : (s.modGroup L T G f).fills = s.fills := rfl
@[simp] theorem State.modGroup_ranges (s : State) (L T G : Nat) (f : Group → Group) : (s.modGroup L T G f).ranges = s.ranges := rfl
@[simp] theorem State.modGroup_contribs (s : State) (L T G : Nat) (f : Group → Group) : (s.modGroup L T G f).contribs = s.contribs := rfl
@[simp] theorem State.modGroup_mmas (s : State) (L T G : Nat) (f : Group → Group) : (s.modGroup L T G f).mmas = s.mmas := rfl
@[simp] theorem State.modGroup_copies (s : State) (L T G : Nat) (f : Group → Group) : (s.modGroup L T G f).copies = s.copies := rfl
@[simp] theorem State.modGroup_fabs (s : State) (L T G : Nat) (f : Group → Group) : (s.modGroup L T G f).fabs = s.fabs := rfl
@[simp] theorem State.modGroup_packets (s : State) (L T G : Nat) (f : Group → Group) : (s.modGroup L T G f).packets = s.packets := rfl
@[simp] theorem State.modGroup_arrivals (s : State) (L T G : Nat) (f : Group → Group) : (s.modGroup L T G f).arrivals = s.arrivals := rfl
@[simp] theorem State.modGroup_gangQ (s : State) (L T G : Nat) (f : Group → Group) : (s.modGroup L T G f).gangQ = s.gangQ := rfl
@[simp] theorem State.modGroup_mapReqs (s : State) (L T G : Nat) (f : Group → Group) : (s.modGroup L T G f).mapReqs = s.mapReqs := rfl
@[simp] theorem State.modGroup_notices (s : State) (L T G : Nat) (f : Group → Group) : (s.modGroup L T G f).notices = s.notices := rfl
@[simp] theorem State.modGroup_shoots (s : State) (L T G : Nat) (f : Group → Group) : (s.modGroup L T G f).shoots = s.shoots := rfl
@[simp] theorem State.modGroup_changes (s : State) (L T G : Nat) (f : Group → Group) : (s.modGroup L T G f).changes = s.changes := rfl
@[simp] theorem State.modGroup_topo (s : State) (L T G : Nat) (f : Group → Group) : (s.modGroup L T G f).topo = s.topo := rfl
@[simp] theorem State.modGroup_links (s : State) (L T G : Nat) (f : Group → Group) : (s.modGroup L T G f).links = s.links := rfl
@[simp] theorem State.modGroup_blackout (s : State) (L T G : Nat) (f : Group → Group) : (s.modGroup L T G f).blackout = s.blackout := rfl
@[simp] theorem State.modGroup_queues (s : State) (L T G : Nat) (f : Group → Group) : (s.modGroup L T G f).queues = s.queues := rfl
@[simp] theorem State.modGroup_attest (s : State) (L T G : Nat) (f : Group → Group) : (s.modGroup L T G f).attest = s.attest := rfl
@[simp] theorem State.modGroup_mailboxMoved (s : State) (L T G : Nat) (f : Group → Group) : (s.modGroup L T G f).mailboxMoved = s.mailboxMoved := rfl
@[simp] theorem State.modGroup_retired (s : State) (L T G : Nat) (f : Group → Group) : (s.modGroup L T G f).retired = s.retired := rfl
@[simp] theorem State.modGroup_hostData (s : State) (L T G : Nat) (f : Group → Group) : (s.modGroup L T G f).hostData = s.hostData := rfl
@[simp] theorem State.modGroup_nextId (s : State) (L T G : Nat) (f : Group → Group) : (s.modGroup L T G f).nextId = s.nextId := rfl
@[simp] theorem State.modGroup_freeCtr (s : State) (L T G : Nat) (f : Group → Group) : (s.modGroup L T G f).freeCtr = s.freeCtr := rfl
@[simp] theorem State.modGroup_subj (s : State) (L T G : Nat) (f : Group → Group) : (s.modGroup L T G f).subj = s.subj := rfl
@[simp] theorem State.modGroup_sched (s : State) (L T G : Nat) (f : Group → Group) : (s.modGroup L T G f).sched = s.sched := rfl

/-! ### modTeam changes only teams -/

@[simp] theorem State.modTeam_islMask (s : State) (L T : Nat) (f : Team → Team) : (s.modTeam L T f).islMask = s.islMask := rfl
@[simp] theorem State.modTeam_dieMask (s : State) (L T : Nat) (f : Team → Team) : (s.modTeam L T f).dieMask = s.dieMask := rfl
@[simp] theorem State.modTeam_now (s : State) (L T : Nat) (f : Team → Team) : (s.modTeam L T f).now = s.now := rfl
@[simp] theorem State.modTeam_fabricTime (s : State) (L T : Nat) (f : Team → Team) : (s.modTeam L T f).fabricTime = s.fabricTime := rfl
@[simp] theorem State.modTeam_slot (s : State) (L T : Nat) (f : Team → Team) : (s.modTeam L T f).slot = s.slot := rfl
@[simp] theorem State.modTeam_dies (s : State) (L T : Nat) (f : Team → Team) : (s.modTeam L T f).dies = s.dies := rfl
@[simp] theorem State.modTeam_mem (s : State) (L T : Nat) (f : Team → Team) : (s.modTeam L T f).mem = s.mem := rfl
@[simp] theorem State.modTeam_cores (s : State) (L T : Nat) (f : Team → Team) : (s.modTeam L T f).cores = s.cores := rfl
@[simp] theorem State.modTeam_launches (s : State) (L T : Nat) (f : Team → Team) : (s.modTeam L T f).launches = s.launches := rfl
@[simp] theorem State.modTeam_groups (s : State) (L T : Nat) (f : Team → Team) : (s.modTeam L T f).groups = s.groups := rfl
@[simp] theorem State.modTeam_lanes (s : State) (L T : Nat) (f : Team → Team) : (s.modTeam L T f).lanes = s.lanes := rfl
@[simp] theorem State.modTeam_ops (s : State) (L T : Nat) (f : Team → Team) : (s.modTeam L T f).ops = s.ops := rfl
@[simp] theorem State.modTeam_fills (s : State) (L T : Nat) (f : Team → Team) : (s.modTeam L T f).fills = s.fills := rfl
@[simp] theorem State.modTeam_ranges (s : State) (L T : Nat) (f : Team → Team) : (s.modTeam L T f).ranges = s.ranges := rfl
@[simp] theorem State.modTeam_contribs (s : State) (L T : Nat) (f : Team → Team) : (s.modTeam L T f).contribs = s.contribs := rfl
@[simp] theorem State.modTeam_mmas (s : State) (L T : Nat) (f : Team → Team) : (s.modTeam L T f).mmas = s.mmas := rfl
@[simp] theorem State.modTeam_copies (s : State) (L T : Nat) (f : Team → Team) : (s.modTeam L T f).copies = s.copies := rfl
@[simp] theorem State.modTeam_fabs (s : State) (L T : Nat) (f : Team → Team) : (s.modTeam L T f).fabs = s.fabs := rfl
@[simp] theorem State.modTeam_packets (s : State) (L T : Nat) (f : Team → Team) : (s.modTeam L T f).packets = s.packets := rfl
@[simp] theorem State.modTeam_arrivals (s : State) (L T : Nat) (f : Team → Team) : (s.modTeam L T f).arrivals = s.arrivals := rfl
@[simp] theorem State.modTeam_gangQ (s : State) (L T : Nat) (f : Team → Team) : (s.modTeam L T f).gangQ = s.gangQ := rfl
@[simp] theorem State.modTeam_mapReqs (s : State) (L T : Nat) (f : Team → Team) : (s.modTeam L T f).mapReqs = s.mapReqs := rfl
@[simp] theorem State.modTeam_notices (s : State) (L T : Nat) (f : Team → Team) : (s.modTeam L T f).notices = s.notices := rfl
@[simp] theorem State.modTeam_shoots (s : State) (L T : Nat) (f : Team → Team) : (s.modTeam L T f).shoots = s.shoots := rfl
@[simp] theorem State.modTeam_changes (s : State) (L T : Nat) (f : Team → Team) : (s.modTeam L T f).changes = s.changes := rfl
@[simp] theorem State.modTeam_topo (s : State) (L T : Nat) (f : Team → Team) : (s.modTeam L T f).topo = s.topo := rfl
@[simp] theorem State.modTeam_links (s : State) (L T : Nat) (f : Team → Team) : (s.modTeam L T f).links = s.links := rfl
@[simp] theorem State.modTeam_blackout (s : State) (L T : Nat) (f : Team → Team) : (s.modTeam L T f).blackout = s.blackout := rfl
@[simp] theorem State.modTeam_queues (s : State) (L T : Nat) (f : Team → Team) : (s.modTeam L T f).queues = s.queues := rfl
@[simp] theorem State.modTeam_attest (s : State) (L T : Nat) (f : Team → Team) : (s.modTeam L T f).attest = s.attest := rfl
@[simp] theorem State.modTeam_mailboxMoved (s : State) (L T : Nat) (f : Team → Team) : (s.modTeam L T f).mailboxMoved = s.mailboxMoved := rfl
@[simp] theorem State.modTeam_retired (s : State) (L T : Nat) (f : Team → Team) : (s.modTeam L T f).retired = s.retired := rfl
@[simp] theorem State.modTeam_hostData (s : State) (L T : Nat) (f : Team → Team) : (s.modTeam L T f).hostData = s.hostData := rfl
@[simp] theorem State.modTeam_nextId (s : State) (L T : Nat) (f : Team → Team) : (s.modTeam L T f).nextId = s.nextId := rfl
@[simp] theorem State.modTeam_freeCtr (s : State) (L T : Nat) (f : Team → Team) : (s.modTeam L T f).freeCtr = s.freeCtr := rfl
@[simp] theorem State.modTeam_subj (s : State) (L T : Nat) (f : Team → Team) : (s.modTeam L T f).subj = s.subj := rfl
@[simp] theorem State.modTeam_sched (s : State) (L T : Nat) (f : Team → Team) : (s.modTeam L T f).sched = s.sched := rfl

/-! ### modLaunch changes only launches -/

@[simp] theorem State.modLaunch_islMask (s : State) (L : Nat) (f : Launch → Launch) : (s.modLaunch L f).islMask = s.islMask := rfl
@[simp] theorem State.modLaunch_dieMask (s : State) (L : Nat) (f : Launch → Launch) : (s.modLaunch L f).dieMask = s.dieMask := rfl
@[simp] theorem State.modLaunch_now (s : State) (L : Nat) (f : Launch → Launch) : (s.modLaunch L f).now = s.now := rfl
@[simp] theorem State.modLaunch_fabricTime (s : State) (L : Nat) (f : Launch → Launch) : (s.modLaunch L f).fabricTime = s.fabricTime := rfl
@[simp] theorem State.modLaunch_slot (s : State) (L : Nat) (f : Launch → Launch) : (s.modLaunch L f).slot = s.slot := rfl
@[simp] theorem State.modLaunch_dies (s : State) (L : Nat) (f : Launch → Launch) : (s.modLaunch L f).dies = s.dies := rfl
@[simp] theorem State.modLaunch_mem (s : State) (L : Nat) (f : Launch → Launch) : (s.modLaunch L f).mem = s.mem := rfl
@[simp] theorem State.modLaunch_cores (s : State) (L : Nat) (f : Launch → Launch) : (s.modLaunch L f).cores = s.cores := rfl
@[simp] theorem State.modLaunch_teams (s : State) (L : Nat) (f : Launch → Launch) : (s.modLaunch L f).teams = s.teams := rfl
@[simp] theorem State.modLaunch_groups (s : State) (L : Nat) (f : Launch → Launch) : (s.modLaunch L f).groups = s.groups := rfl
@[simp] theorem State.modLaunch_lanes (s : State) (L : Nat) (f : Launch → Launch) : (s.modLaunch L f).lanes = s.lanes := rfl
@[simp] theorem State.modLaunch_ops (s : State) (L : Nat) (f : Launch → Launch) : (s.modLaunch L f).ops = s.ops := rfl
@[simp] theorem State.modLaunch_fills (s : State) (L : Nat) (f : Launch → Launch) : (s.modLaunch L f).fills = s.fills := rfl
@[simp] theorem State.modLaunch_ranges (s : State) (L : Nat) (f : Launch → Launch) : (s.modLaunch L f).ranges = s.ranges := rfl
@[simp] theorem State.modLaunch_contribs (s : State) (L : Nat) (f : Launch → Launch) : (s.modLaunch L f).contribs = s.contribs := rfl
@[simp] theorem State.modLaunch_mmas (s : State) (L : Nat) (f : Launch → Launch) : (s.modLaunch L f).mmas = s.mmas := rfl
@[simp] theorem State.modLaunch_copies (s : State) (L : Nat) (f : Launch → Launch) : (s.modLaunch L f).copies = s.copies := rfl
@[simp] theorem State.modLaunch_fabs (s : State) (L : Nat) (f : Launch → Launch) : (s.modLaunch L f).fabs = s.fabs := rfl
@[simp] theorem State.modLaunch_packets (s : State) (L : Nat) (f : Launch → Launch) : (s.modLaunch L f).packets = s.packets := rfl
@[simp] theorem State.modLaunch_arrivals (s : State) (L : Nat) (f : Launch → Launch) : (s.modLaunch L f).arrivals = s.arrivals := rfl
@[simp] theorem State.modLaunch_gangQ (s : State) (L : Nat) (f : Launch → Launch) : (s.modLaunch L f).gangQ = s.gangQ := rfl
@[simp] theorem State.modLaunch_mapReqs (s : State) (L : Nat) (f : Launch → Launch) : (s.modLaunch L f).mapReqs = s.mapReqs := rfl
@[simp] theorem State.modLaunch_notices (s : State) (L : Nat) (f : Launch → Launch) : (s.modLaunch L f).notices = s.notices := rfl
@[simp] theorem State.modLaunch_shoots (s : State) (L : Nat) (f : Launch → Launch) : (s.modLaunch L f).shoots = s.shoots := rfl
@[simp] theorem State.modLaunch_changes (s : State) (L : Nat) (f : Launch → Launch) : (s.modLaunch L f).changes = s.changes := rfl
@[simp] theorem State.modLaunch_topo (s : State) (L : Nat) (f : Launch → Launch) : (s.modLaunch L f).topo = s.topo := rfl
@[simp] theorem State.modLaunch_links (s : State) (L : Nat) (f : Launch → Launch) : (s.modLaunch L f).links = s.links := rfl
@[simp] theorem State.modLaunch_blackout (s : State) (L : Nat) (f : Launch → Launch) : (s.modLaunch L f).blackout = s.blackout := rfl
@[simp] theorem State.modLaunch_queues (s : State) (L : Nat) (f : Launch → Launch) : (s.modLaunch L f).queues = s.queues := rfl
@[simp] theorem State.modLaunch_attest (s : State) (L : Nat) (f : Launch → Launch) : (s.modLaunch L f).attest = s.attest := rfl
@[simp] theorem State.modLaunch_mailboxMoved (s : State) (L : Nat) (f : Launch → Launch) : (s.modLaunch L f).mailboxMoved = s.mailboxMoved := rfl
@[simp] theorem State.modLaunch_retired (s : State) (L : Nat) (f : Launch → Launch) : (s.modLaunch L f).retired = s.retired := rfl
@[simp] theorem State.modLaunch_hostData (s : State) (L : Nat) (f : Launch → Launch) : (s.modLaunch L f).hostData = s.hostData := rfl
@[simp] theorem State.modLaunch_nextId (s : State) (L : Nat) (f : Launch → Launch) : (s.modLaunch L f).nextId = s.nextId := rfl
@[simp] theorem State.modLaunch_freeCtr (s : State) (L : Nat) (f : Launch → Launch) : (s.modLaunch L f).freeCtr = s.freeCtr := rfl
@[simp] theorem State.modLaunch_subj (s : State) (L : Nat) (f : Launch → Launch) : (s.modLaunch L f).subj = s.subj := rfl
@[simp] theorem State.modLaunch_sched (s : State) (L : Nat) (f : Launch → Launch) : (s.modLaunch L f).sched = s.sched := rfl

/-! ### modDie changes only dies -/

@[simp] theorem State.modDie_islMask (s : State) (d : Nat) (f : Die → Die) : (s.modDie d f).islMask = s.islMask := rfl
@[simp] theorem State.modDie_dieMask (s : State) (d : Nat) (f : Die → Die) : (s.modDie d f).dieMask = s.dieMask := rfl
@[simp] theorem State.modDie_now (s : State) (d : Nat) (f : Die → Die) : (s.modDie d f).now = s.now := rfl
@[simp] theorem State.modDie_fabricTime (s : State) (d : Nat) (f : Die → Die) : (s.modDie d f).fabricTime = s.fabricTime := rfl
@[simp] theorem State.modDie_slot (s : State) (d : Nat) (f : Die → Die) : (s.modDie d f).slot = s.slot := rfl
@[simp] theorem State.modDie_mem (s : State) (d : Nat) (f : Die → Die) : (s.modDie d f).mem = s.mem := rfl
@[simp] theorem State.modDie_cores (s : State) (d : Nat) (f : Die → Die) : (s.modDie d f).cores = s.cores := rfl
@[simp] theorem State.modDie_launches (s : State) (d : Nat) (f : Die → Die) : (s.modDie d f).launches = s.launches := rfl
@[simp] theorem State.modDie_teams (s : State) (d : Nat) (f : Die → Die) : (s.modDie d f).teams = s.teams := rfl
@[simp] theorem State.modDie_groups (s : State) (d : Nat) (f : Die → Die) : (s.modDie d f).groups = s.groups := rfl
@[simp] theorem State.modDie_lanes (s : State) (d : Nat) (f : Die → Die) : (s.modDie d f).lanes = s.lanes := rfl
@[simp] theorem State.modDie_ops (s : State) (d : Nat) (f : Die → Die) : (s.modDie d f).ops = s.ops := rfl
@[simp] theorem State.modDie_fills (s : State) (d : Nat) (f : Die → Die) : (s.modDie d f).fills = s.fills := rfl
@[simp] theorem State.modDie_ranges (s : State) (d : Nat) (f : Die → Die) : (s.modDie d f).ranges = s.ranges := rfl
@[simp] theorem State.modDie_contribs (s : State) (d : Nat) (f : Die → Die) : (s.modDie d f).contribs = s.contribs := rfl
@[simp] theorem State.modDie_mmas (s : State) (d : Nat) (f : Die → Die) : (s.modDie d f).mmas = s.mmas := rfl
@[simp] theorem State.modDie_copies (s : State) (d : Nat) (f : Die → Die) : (s.modDie d f).copies = s.copies := rfl
@[simp] theorem State.modDie_fabs (s : State) (d : Nat) (f : Die → Die) : (s.modDie d f).fabs = s.fabs := rfl
@[simp] theorem State.modDie_packets (s : State) (d : Nat) (f : Die → Die) : (s.modDie d f).packets = s.packets := rfl
@[simp] theorem State.modDie_arrivals (s : State) (d : Nat) (f : Die → Die) : (s.modDie d f).arrivals = s.arrivals := rfl
@[simp] theorem State.modDie_gangQ (s : State) (d : Nat) (f : Die → Die) : (s.modDie d f).gangQ = s.gangQ := rfl
@[simp] theorem State.modDie_mapReqs (s : State) (d : Nat) (f : Die → Die) : (s.modDie d f).mapReqs = s.mapReqs := rfl
@[simp] theorem State.modDie_notices (s : State) (d : Nat) (f : Die → Die) : (s.modDie d f).notices = s.notices := rfl
@[simp] theorem State.modDie_shoots (s : State) (d : Nat) (f : Die → Die) : (s.modDie d f).shoots = s.shoots := rfl
@[simp] theorem State.modDie_changes (s : State) (d : Nat) (f : Die → Die) : (s.modDie d f).changes = s.changes := rfl
@[simp] theorem State.modDie_topo (s : State) (d : Nat) (f : Die → Die) : (s.modDie d f).topo = s.topo := rfl
@[simp] theorem State.modDie_links (s : State) (d : Nat) (f : Die → Die) : (s.modDie d f).links = s.links := rfl
@[simp] theorem State.modDie_blackout (s : State) (d : Nat) (f : Die → Die) : (s.modDie d f).blackout = s.blackout := rfl
@[simp] theorem State.modDie_queues (s : State) (d : Nat) (f : Die → Die) : (s.modDie d f).queues = s.queues := rfl
@[simp] theorem State.modDie_attest (s : State) (d : Nat) (f : Die → Die) : (s.modDie d f).attest = s.attest := rfl
@[simp] theorem State.modDie_mailboxMoved (s : State) (d : Nat) (f : Die → Die) : (s.modDie d f).mailboxMoved = s.mailboxMoved := rfl
@[simp] theorem State.modDie_retired (s : State) (d : Nat) (f : Die → Die) : (s.modDie d f).retired = s.retired := rfl
@[simp] theorem State.modDie_hostData (s : State) (d : Nat) (f : Die → Die) : (s.modDie d f).hostData = s.hostData := rfl
@[simp] theorem State.modDie_nextId (s : State) (d : Nat) (f : Die → Die) : (s.modDie d f).nextId = s.nextId := rfl
@[simp] theorem State.modDie_freeCtr (s : State) (d : Nat) (f : Die → Die) : (s.modDie d f).freeCtr = s.freeCtr := rfl
@[simp] theorem State.modDie_subj (s : State) (d : Nat) (f : Die → Die) : (s.modDie d f).subj = s.subj := rfl
@[simp] theorem State.modDie_sched (s : State) (d : Nat) (f : Die → Die) : (s.modDie d f).sched = s.sched := rfl

/-! ### modOp changes only ops -/

@[simp] theorem State.modOp_islMask (s : State) (i : Nat) (f : Op → Op) : (s.modOp i f).islMask = s.islMask := rfl
@[simp] theorem State.modOp_dieMask (s : State) (i : Nat) (f : Op → Op) : (s.modOp i f).dieMask = s.dieMask := rfl
@[simp] theorem State.modOp_now (s : State) (i : Nat) (f : Op → Op) : (s.modOp i f).now = s.now := rfl
@[simp] theorem State.modOp_fabricTime (s : State) (i : Nat) (f : Op → Op) : (s.modOp i f).fabricTime = s.fabricTime := rfl
@[simp] theorem State.modOp_slot (s : State) (i : Nat) (f : Op → Op) : (s.modOp i f).slot = s.slot := rfl
@[simp] theorem State.modOp_dies (s : State) (i : Nat) (f : Op → Op) : (s.modOp i f).dies = s.dies := rfl
@[simp] theorem State.modOp_mem (s : State) (i : Nat) (f : Op → Op) : (s.modOp i f).mem = s.mem := rfl
@[simp] theorem State.modOp_cores (s : State) (i : Nat) (f : Op → Op) : (s.modOp i f).cores = s.cores := rfl
@[simp] theorem State.modOp_launches (s : State) (i : Nat) (f : Op → Op) : (s.modOp i f).launches = s.launches := rfl
@[simp] theorem State.modOp_teams (s : State) (i : Nat) (f : Op → Op) : (s.modOp i f).teams = s.teams := rfl
@[simp] theorem State.modOp_groups (s : State) (i : Nat) (f : Op → Op) : (s.modOp i f).groups = s.groups := rfl
@[simp] theorem State.modOp_lanes (s : State) (i : Nat) (f : Op → Op) : (s.modOp i f).lanes = s.lanes := rfl
@[simp] theorem State.modOp_fills (s : State) (i : Nat) (f : Op → Op) : (s.modOp i f).fills = s.fills := rfl
@[simp] theorem State.modOp_ranges (s : State) (i : Nat) (f : Op → Op) : (s.modOp i f).ranges = s.ranges := rfl
@[simp] theorem State.modOp_contribs (s : State) (i : Nat) (f : Op → Op) : (s.modOp i f).contribs = s.contribs := rfl
@[simp] theorem State.modOp_mmas (s : State) (i : Nat) (f : Op → Op) : (s.modOp i f).mmas = s.mmas := rfl
@[simp] theorem State.modOp_copies (s : State) (i : Nat) (f : Op → Op) : (s.modOp i f).copies = s.copies := rfl
@[simp] theorem State.modOp_fabs (s : State) (i : Nat) (f : Op → Op) : (s.modOp i f).fabs = s.fabs := rfl
@[simp] theorem State.modOp_packets (s : State) (i : Nat) (f : Op → Op) : (s.modOp i f).packets = s.packets := rfl
@[simp] theorem State.modOp_arrivals (s : State) (i : Nat) (f : Op → Op) : (s.modOp i f).arrivals = s.arrivals := rfl
@[simp] theorem State.modOp_gangQ (s : State) (i : Nat) (f : Op → Op) : (s.modOp i f).gangQ = s.gangQ := rfl
@[simp] theorem State.modOp_mapReqs (s : State) (i : Nat) (f : Op → Op) : (s.modOp i f).mapReqs = s.mapReqs := rfl
@[simp] theorem State.modOp_notices (s : State) (i : Nat) (f : Op → Op) : (s.modOp i f).notices = s.notices := rfl
@[simp] theorem State.modOp_shoots (s : State) (i : Nat) (f : Op → Op) : (s.modOp i f).shoots = s.shoots := rfl
@[simp] theorem State.modOp_changes (s : State) (i : Nat) (f : Op → Op) : (s.modOp i f).changes = s.changes := rfl
@[simp] theorem State.modOp_topo (s : State) (i : Nat) (f : Op → Op) : (s.modOp i f).topo = s.topo := rfl
@[simp] theorem State.modOp_links (s : State) (i : Nat) (f : Op → Op) : (s.modOp i f).links = s.links := rfl
@[simp] theorem State.modOp_blackout (s : State) (i : Nat) (f : Op → Op) : (s.modOp i f).blackout = s.blackout := rfl
@[simp] theorem State.modOp_queues (s : State) (i : Nat) (f : Op → Op) : (s.modOp i f).queues = s.queues := rfl
@[simp] theorem State.modOp_attest (s : State) (i : Nat) (f : Op → Op) : (s.modOp i f).attest = s.attest := rfl
@[simp] theorem State.modOp_mailboxMoved (s : State) (i : Nat) (f : Op → Op) : (s.modOp i f).mailboxMoved = s.mailboxMoved := rfl
@[simp] theorem State.modOp_retired (s : State) (i : Nat) (f : Op → Op) : (s.modOp i f).retired = s.retired := rfl
@[simp] theorem State.modOp_hostData (s : State) (i : Nat) (f : Op → Op) : (s.modOp i f).hostData = s.hostData := rfl
@[simp] theorem State.modOp_nextId (s : State) (i : Nat) (f : Op → Op) : (s.modOp i f).nextId = s.nextId := rfl
@[simp] theorem State.modOp_freeCtr (s : State) (i : Nat) (f : Op → Op) : (s.modOp i f).freeCtr = s.freeCtr := rfl
@[simp] theorem State.modOp_subj (s : State) (i : Nat) (f : Op → Op) : (s.modOp i f).subj = s.subj := rfl
@[simp] theorem State.modOp_sched (s : State) (i : Nat) (f : Op → Op) : (s.modOp i f).sched = s.sched := rfl

/-! ### setHbm changes only mem -/

@[simp] theorem State.setHbm_islMask (s : State) (pa : Nat) (bs : List Byte) : (s.setHbm pa bs).islMask = s.islMask := rfl
@[simp] theorem State.setHbm_dieMask (s : State) (pa : Nat) (bs : List Byte) : (s.setHbm pa bs).dieMask = s.dieMask := rfl
@[simp] theorem State.setHbm_now (s : State) (pa : Nat) (bs : List Byte) : (s.setHbm pa bs).now = s.now := rfl
@[simp] theorem State.setHbm_fabricTime (s : State) (pa : Nat) (bs : List Byte) : (s.setHbm pa bs).fabricTime = s.fabricTime := rfl
@[simp] theorem State.setHbm_slot (s : State) (pa : Nat) (bs : List Byte) : (s.setHbm pa bs).slot = s.slot := rfl
@[simp] theorem State.setHbm_dies (s : State) (pa : Nat) (bs : List Byte) : (s.setHbm pa bs).dies = s.dies := rfl
@[simp] theorem State.setHbm_cores (s : State) (pa : Nat) (bs : List Byte) : (s.setHbm pa bs).cores = s.cores := rfl
@[simp] theorem State.setHbm_launches (s : State) (pa : Nat) (bs : List Byte) : (s.setHbm pa bs).launches = s.launches := rfl
@[simp] theorem State.setHbm_teams (s : State) (pa : Nat) (bs : List Byte) : (s.setHbm pa bs).teams = s.teams := rfl
@[simp] theorem State.setHbm_groups (s : State) (pa : Nat) (bs : List Byte) : (s.setHbm pa bs).groups = s.groups := rfl
@[simp] theorem State.setHbm_lanes (s : State) (pa : Nat) (bs : List Byte) : (s.setHbm pa bs).lanes = s.lanes := rfl
@[simp] theorem State.setHbm_ops (s : State) (pa : Nat) (bs : List Byte) : (s.setHbm pa bs).ops = s.ops := rfl
@[simp] theorem State.setHbm_fills (s : State) (pa : Nat) (bs : List Byte) : (s.setHbm pa bs).fills = s.fills := rfl
@[simp] theorem State.setHbm_ranges (s : State) (pa : Nat) (bs : List Byte) : (s.setHbm pa bs).ranges = s.ranges := rfl
@[simp] theorem State.setHbm_contribs (s : State) (pa : Nat) (bs : List Byte) : (s.setHbm pa bs).contribs = s.contribs := rfl
@[simp] theorem State.setHbm_mmas (s : State) (pa : Nat) (bs : List Byte) : (s.setHbm pa bs).mmas = s.mmas := rfl
@[simp] theorem State.setHbm_copies (s : State) (pa : Nat) (bs : List Byte) : (s.setHbm pa bs).copies = s.copies := rfl
@[simp] theorem State.setHbm_fabs (s : State) (pa : Nat) (bs : List Byte) : (s.setHbm pa bs).fabs = s.fabs := rfl
@[simp] theorem State.setHbm_packets (s : State) (pa : Nat) (bs : List Byte) : (s.setHbm pa bs).packets = s.packets := rfl
@[simp] theorem State.setHbm_arrivals (s : State) (pa : Nat) (bs : List Byte) : (s.setHbm pa bs).arrivals = s.arrivals := rfl
@[simp] theorem State.setHbm_gangQ (s : State) (pa : Nat) (bs : List Byte) : (s.setHbm pa bs).gangQ = s.gangQ := rfl
@[simp] theorem State.setHbm_mapReqs (s : State) (pa : Nat) (bs : List Byte) : (s.setHbm pa bs).mapReqs = s.mapReqs := rfl
@[simp] theorem State.setHbm_notices (s : State) (pa : Nat) (bs : List Byte) : (s.setHbm pa bs).notices = s.notices := rfl
@[simp] theorem State.setHbm_shoots (s : State) (pa : Nat) (bs : List Byte) : (s.setHbm pa bs).shoots = s.shoots := rfl
@[simp] theorem State.setHbm_changes (s : State) (pa : Nat) (bs : List Byte) : (s.setHbm pa bs).changes = s.changes := rfl
@[simp] theorem State.setHbm_topo (s : State) (pa : Nat) (bs : List Byte) : (s.setHbm pa bs).topo = s.topo := rfl
@[simp] theorem State.setHbm_links (s : State) (pa : Nat) (bs : List Byte) : (s.setHbm pa bs).links = s.links := rfl
@[simp] theorem State.setHbm_blackout (s : State) (pa : Nat) (bs : List Byte) : (s.setHbm pa bs).blackout = s.blackout := rfl
@[simp] theorem State.setHbm_queues (s : State) (pa : Nat) (bs : List Byte) : (s.setHbm pa bs).queues = s.queues := rfl
@[simp] theorem State.setHbm_attest (s : State) (pa : Nat) (bs : List Byte) : (s.setHbm pa bs).attest = s.attest := rfl
@[simp] theorem State.setHbm_mailboxMoved (s : State) (pa : Nat) (bs : List Byte) : (s.setHbm pa bs).mailboxMoved = s.mailboxMoved := rfl
@[simp] theorem State.setHbm_retired (s : State) (pa : Nat) (bs : List Byte) : (s.setHbm pa bs).retired = s.retired := rfl
@[simp] theorem State.setHbm_hostData (s : State) (pa : Nat) (bs : List Byte) : (s.setHbm pa bs).hostData = s.hostData := rfl
@[simp] theorem State.setHbm_nextId (s : State) (pa : Nat) (bs : List Byte) : (s.setHbm pa bs).nextId = s.nextId := rfl
@[simp] theorem State.setHbm_freeCtr (s : State) (pa : Nat) (bs : List Byte) : (s.setHbm pa bs).freeCtr = s.freeCtr := rfl
@[simp] theorem State.setHbm_subj (s : State) (pa : Nat) (bs : List Byte) : (s.setHbm pa bs).subj = s.subj := rfl
@[simp] theorem State.setHbm_sched (s : State) (pa : Nat) (bs : List Byte) : (s.setHbm pa bs).sched = s.sched := rfl

/-! ### redraw changes only freeCtr -/

@[simp] theorem State.redraw_islMask (s : State) : s.redraw.islMask = s.islMask := rfl
@[simp] theorem State.redraw_dieMask (s : State) : s.redraw.dieMask = s.dieMask := rfl
@[simp] theorem State.redraw_now (s : State) : s.redraw.now = s.now := rfl
@[simp] theorem State.redraw_fabricTime (s : State) : s.redraw.fabricTime = s.fabricTime := rfl
@[simp] theorem State.redraw_slot (s : State) : s.redraw.slot = s.slot := rfl
@[simp] theorem State.redraw_dies (s : State) : s.redraw.dies = s.dies := rfl
@[simp] theorem State.redraw_mem (s : State) : s.redraw.mem = s.mem := rfl
@[simp] theorem State.redraw_cores (s : State) : s.redraw.cores = s.cores := rfl
@[simp] theorem State.redraw_launches (s : State) : s.redraw.launches = s.launches := rfl
@[simp] theorem State.redraw_teams (s : State) : s.redraw.teams = s.teams := rfl
@[simp] theorem State.redraw_groups (s : State) : s.redraw.groups = s.groups := rfl
@[simp] theorem State.redraw_lanes (s : State) : s.redraw.lanes = s.lanes := rfl
@[simp] theorem State.redraw_ops (s : State) : s.redraw.ops = s.ops := rfl
@[simp] theorem State.redraw_fills (s : State) : s.redraw.fills = s.fills := rfl
@[simp] theorem State.redraw_ranges (s : State) : s.redraw.ranges = s.ranges := rfl
@[simp] theorem State.redraw_contribs (s : State) : s.redraw.contribs = s.contribs := rfl
@[simp] theorem State.redraw_mmas (s : State) : s.redraw.mmas = s.mmas := rfl
@[simp] theorem State.redraw_copies (s : State) : s.redraw.copies = s.copies := rfl
@[simp] theorem State.redraw_fabs (s : State) : s.redraw.fabs = s.fabs := rfl
@[simp] theorem State.redraw_packets (s : State) : s.redraw.packets = s.packets := rfl
@[simp] theorem State.redraw_arrivals (s : State) : s.redraw.arrivals = s.arrivals := rfl
@[simp] theorem State.redraw_gangQ (s : State) : s.redraw.gangQ = s.gangQ := rfl
@[simp] theorem State.redraw_mapReqs (s : State) : s.redraw.mapReqs = s.mapReqs := rfl
@[simp] theorem State.redraw_notices (s : State) : s.redraw.notices = s.notices := rfl
@[simp] theorem State.redraw_shoots (s : State) : s.redraw.shoots = s.shoots := rfl
@[simp] theorem State.redraw_changes (s : State) : s.redraw.changes = s.changes := rfl
@[simp] theorem State.redraw_topo (s : State) : s.redraw.topo = s.topo := rfl
@[simp] theorem State.redraw_links (s : State) : s.redraw.links = s.links := rfl
@[simp] theorem State.redraw_blackout (s : State) : s.redraw.blackout = s.blackout := rfl
@[simp] theorem State.redraw_queues (s : State) : s.redraw.queues = s.queues := rfl
@[simp] theorem State.redraw_attest (s : State) : s.redraw.attest = s.attest := rfl
@[simp] theorem State.redraw_mailboxMoved (s : State) : s.redraw.mailboxMoved = s.mailboxMoved := rfl
@[simp] theorem State.redraw_retired (s : State) : s.redraw.retired = s.retired := rfl
@[simp] theorem State.redraw_hostData (s : State) : s.redraw.hostData = s.hostData := rfl
@[simp] theorem State.redraw_nextId (s : State) : s.redraw.nextId = s.nextId := rfl
@[simp] theorem State.redraw_subj (s : State) : s.redraw.subj = s.subj := rfl
@[simp] theorem State.redraw_sched (s : State) : s.redraw.sched = s.sched := rfl

/-! ### modQueue changes only queues -/

@[simp] theorem State.modQueue_islMask (s : State) (q : Nat) (f : Queue → Queue) : (s.modQueue q f).islMask = s.islMask := rfl
@[simp] theorem State.modQueue_dieMask (s : State) (q : Nat) (f : Queue → Queue) : (s.modQueue q f).dieMask = s.dieMask := rfl
@[simp] theorem State.modQueue_now (s : State) (q : Nat) (f : Queue → Queue) : (s.modQueue q f).now = s.now := rfl
@[simp] theorem State.modQueue_fabricTime (s : State) (q : Nat) (f : Queue → Queue) : (s.modQueue q f).fabricTime = s.fabricTime := rfl
@[simp] theorem State.modQueue_slot (s : State) (q : Nat) (f : Queue → Queue) : (s.modQueue q f).slot = s.slot := rfl
@[simp] theorem State.modQueue_dies (s : State) (q : Nat) (f : Queue → Queue) : (s.modQueue q f).dies = s.dies := rfl
@[simp] theorem State.modQueue_mem (s : State) (q : Nat) (f : Queue → Queue) : (s.modQueue q f).mem = s.mem := rfl
@[simp] theorem State.modQueue_cores (s : State) (q : Nat) (f : Queue → Queue) : (s.modQueue q f).cores = s.cores := rfl
@[simp] theorem State.modQueue_launches (s : State) (q : Nat) (f : Queue → Queue) : (s.modQueue q f).launches = s.launches := rfl
@[simp] theorem State.modQueue_teams (s : State) (q : Nat) (f : Queue → Queue) : (s.modQueue q f).teams = s.teams := rfl
@[simp] theorem State.modQueue_groups (s : State) (q : Nat) (f : Queue → Queue) : (s.modQueue q f).groups = s.groups := rfl
@[simp] theorem State.modQueue_lanes (s : State) (q : Nat) (f : Queue → Queue) : (s.modQueue q f).lanes = s.lanes := rfl
@[simp] theorem State.modQueue_ops (s : State) (q : Nat) (f : Queue → Queue) : (s.modQueue q f).ops = s.ops := rfl
@[simp] theorem State.modQueue_fills (s : State) (q : Nat) (f : Queue → Queue) : (s.modQueue q f).fills = s.fills := rfl
@[simp] theorem State.modQueue_ranges (s : State) (q : Nat) (f : Queue → Queue) : (s.modQueue q f).ranges = s.ranges := rfl
@[simp] theorem State.modQueue_contribs (s : State) (q : Nat) (f : Queue → Queue) : (s.modQueue q f).contribs = s.contribs := rfl
@[simp] theorem State.modQueue_mmas (s : State) (q : Nat) (f : Queue → Queue) : (s.modQueue q f).mmas = s.mmas := rfl
@[simp] theorem State.modQueue_copies (s : State) (q : Nat) (f : Queue → Queue) : (s.modQueue q f).copies = s.copies := rfl
@[simp] theorem State.modQueue_fabs (s : State) (q : Nat) (f : Queue → Queue) : (s.modQueue q f).fabs = s.fabs := rfl
@[simp] theorem State.modQueue_packets (s : State) (q : Nat) (f : Queue → Queue) : (s.modQueue q f).packets = s.packets := rfl
@[simp] theorem State.modQueue_arrivals (s : State) (q : Nat) (f : Queue → Queue) : (s.modQueue q f).arrivals = s.arrivals := rfl
@[simp] theorem State.modQueue_gangQ (s : State) (q : Nat) (f : Queue → Queue) : (s.modQueue q f).gangQ = s.gangQ := rfl
@[simp] theorem State.modQueue_mapReqs (s : State) (q : Nat) (f : Queue → Queue) : (s.modQueue q f).mapReqs = s.mapReqs := rfl
@[simp] theorem State.modQueue_notices (s : State) (q : Nat) (f : Queue → Queue) : (s.modQueue q f).notices = s.notices := rfl
@[simp] theorem State.modQueue_shoots (s : State) (q : Nat) (f : Queue → Queue) : (s.modQueue q f).shoots = s.shoots := rfl
@[simp] theorem State.modQueue_changes (s : State) (q : Nat) (f : Queue → Queue) : (s.modQueue q f).changes = s.changes := rfl
@[simp] theorem State.modQueue_topo (s : State) (q : Nat) (f : Queue → Queue) : (s.modQueue q f).topo = s.topo := rfl
@[simp] theorem State.modQueue_links (s : State) (q : Nat) (f : Queue → Queue) : (s.modQueue q f).links = s.links := rfl
@[simp] theorem State.modQueue_blackout (s : State) (q : Nat) (f : Queue → Queue) : (s.modQueue q f).blackout = s.blackout := rfl
@[simp] theorem State.modQueue_attest (s : State) (q : Nat) (f : Queue → Queue) : (s.modQueue q f).attest = s.attest := rfl
@[simp] theorem State.modQueue_mailboxMoved (s : State) (q : Nat) (f : Queue → Queue) : (s.modQueue q f).mailboxMoved = s.mailboxMoved := rfl
@[simp] theorem State.modQueue_retired (s : State) (q : Nat) (f : Queue → Queue) : (s.modQueue q f).retired = s.retired := rfl
@[simp] theorem State.modQueue_hostData (s : State) (q : Nat) (f : Queue → Queue) : (s.modQueue q f).hostData = s.hostData := rfl
@[simp] theorem State.modQueue_nextId (s : State) (q : Nat) (f : Queue → Queue) : (s.modQueue q f).nextId = s.nextId := rfl
@[simp] theorem State.modQueue_freeCtr (s : State) (q : Nat) (f : Queue → Queue) : (s.modQueue q f).freeCtr = s.freeCtr := rfl
@[simp] theorem State.modQueue_subj (s : State) (q : Nat) (f : Queue → Queue) : (s.modQueue q f).subj = s.subj := rfl
@[simp] theorem State.modQueue_sched (s : State) (q : Nat) (f : Queue → Queue) : (s.modQueue q f).sched = s.sched := rfl

/-! ### modRange changes only ranges -/

@[simp] theorem State.modRange_islMask (s : State) (i : Nat) (f : Range → Range) : (s.modRange i f).islMask = s.islMask := rfl
@[simp] theorem State.modRange_dieMask (s : State) (i : Nat) (f : Range → Range) : (s.modRange i f).dieMask = s.dieMask := rfl
@[simp] theorem State.modRange_now (s : State) (i : Nat) (f : Range → Range) : (s.modRange i f).now = s.now := rfl
@[simp] theorem State.modRange_fabricTime (s : State) (i : Nat) (f : Range → Range) : (s.modRange i f).fabricTime = s.fabricTime := rfl
@[simp] theorem State.modRange_slot (s : State) (i : Nat) (f : Range → Range) : (s.modRange i f).slot = s.slot := rfl
@[simp] theorem State.modRange_dies (s : State) (i : Nat) (f : Range → Range) : (s.modRange i f).dies = s.dies := rfl
@[simp] theorem State.modRange_mem (s : State) (i : Nat) (f : Range → Range) : (s.modRange i f).mem = s.mem := rfl
@[simp] theorem State.modRange_cores (s : State) (i : Nat) (f : Range → Range) : (s.modRange i f).cores = s.cores := rfl
@[simp] theorem State.modRange_launches (s : State) (i : Nat) (f : Range → Range) : (s.modRange i f).launches = s.launches := rfl
@[simp] theorem State.modRange_teams (s : State) (i : Nat) (f : Range → Range) : (s.modRange i f).teams = s.teams := rfl
@[simp] theorem State.modRange_groups (s : State) (i : Nat) (f : Range → Range) : (s.modRange i f).groups = s.groups := rfl
@[simp] theorem State.modRange_lanes (s : State) (i : Nat) (f : Range → Range) : (s.modRange i f).lanes = s.lanes := rfl
@[simp] theorem State.modRange_ops (s : State) (i : Nat) (f : Range → Range) : (s.modRange i f).ops = s.ops := rfl
@[simp] theorem State.modRange_fills (s : State) (i : Nat) (f : Range → Range) : (s.modRange i f).fills = s.fills := rfl
@[simp] theorem State.modRange_contribs (s : State) (i : Nat) (f : Range → Range) : (s.modRange i f).contribs = s.contribs := rfl
@[simp] theorem State.modRange_mmas (s : State) (i : Nat) (f : Range → Range) : (s.modRange i f).mmas = s.mmas := rfl
@[simp] theorem State.modRange_copies (s : State) (i : Nat) (f : Range → Range) : (s.modRange i f).copies = s.copies := rfl
@[simp] theorem State.modRange_fabs (s : State) (i : Nat) (f : Range → Range) : (s.modRange i f).fabs = s.fabs := rfl
@[simp] theorem State.modRange_packets (s : State) (i : Nat) (f : Range → Range) : (s.modRange i f).packets = s.packets := rfl
@[simp] theorem State.modRange_arrivals (s : State) (i : Nat) (f : Range → Range) : (s.modRange i f).arrivals = s.arrivals := rfl
@[simp] theorem State.modRange_gangQ (s : State) (i : Nat) (f : Range → Range) : (s.modRange i f).gangQ = s.gangQ := rfl
@[simp] theorem State.modRange_mapReqs (s : State) (i : Nat) (f : Range → Range) : (s.modRange i f).mapReqs = s.mapReqs := rfl
@[simp] theorem State.modRange_notices (s : State) (i : Nat) (f : Range → Range) : (s.modRange i f).notices = s.notices := rfl
@[simp] theorem State.modRange_shoots (s : State) (i : Nat) (f : Range → Range) : (s.modRange i f).shoots = s.shoots := rfl
@[simp] theorem State.modRange_changes (s : State) (i : Nat) (f : Range → Range) : (s.modRange i f).changes = s.changes := rfl
@[simp] theorem State.modRange_topo (s : State) (i : Nat) (f : Range → Range) : (s.modRange i f).topo = s.topo := rfl
@[simp] theorem State.modRange_links (s : State) (i : Nat) (f : Range → Range) : (s.modRange i f).links = s.links := rfl
@[simp] theorem State.modRange_blackout (s : State) (i : Nat) (f : Range → Range) : (s.modRange i f).blackout = s.blackout := rfl
@[simp] theorem State.modRange_queues (s : State) (i : Nat) (f : Range → Range) : (s.modRange i f).queues = s.queues := rfl
@[simp] theorem State.modRange_attest (s : State) (i : Nat) (f : Range → Range) : (s.modRange i f).attest = s.attest := rfl
@[simp] theorem State.modRange_mailboxMoved (s : State) (i : Nat) (f : Range → Range) : (s.modRange i f).mailboxMoved = s.mailboxMoved := rfl
@[simp] theorem State.modRange_retired (s : State) (i : Nat) (f : Range → Range) : (s.modRange i f).retired = s.retired := rfl
@[simp] theorem State.modRange_hostData (s : State) (i : Nat) (f : Range → Range) : (s.modRange i f).hostData = s.hostData := rfl
@[simp] theorem State.modRange_nextId (s : State) (i : Nat) (f : Range → Range) : (s.modRange i f).nextId = s.nextId := rfl
@[simp] theorem State.modRange_freeCtr (s : State) (i : Nat) (f : Range → Range) : (s.modRange i f).freeCtr = s.freeCtr := rfl
@[simp] theorem State.modRange_subj (s : State) (i : Nat) (f : Range → Range) : (s.modRange i f).subj = s.subj := rfl
@[simp] theorem State.modRange_sched (s : State) (i : Nat) (f : Range → Range) : (s.modRange i f).sched = s.sched := rfl

/-! ### modFab changes only fabs -/

@[simp] theorem State.modFab_islMask (s : State) (i : Nat) (f : FabOp → FabOp) : (s.modFab i f).islMask = s.islMask := rfl
@[simp] theorem State.modFab_dieMask (s : State) (i : Nat) (f : FabOp → FabOp) : (s.modFab i f).dieMask = s.dieMask := rfl
@[simp] theorem State.modFab_now (s : State) (i : Nat) (f : FabOp → FabOp) : (s.modFab i f).now = s.now := rfl
@[simp] theorem State.modFab_fabricTime (s : State) (i : Nat) (f : FabOp → FabOp) : (s.modFab i f).fabricTime = s.fabricTime := rfl
@[simp] theorem State.modFab_slot (s : State) (i : Nat) (f : FabOp → FabOp) : (s.modFab i f).slot = s.slot := rfl
@[simp] theorem State.modFab_dies (s : State) (i : Nat) (f : FabOp → FabOp) : (s.modFab i f).dies = s.dies := rfl
@[simp] theorem State.modFab_mem (s : State) (i : Nat) (f : FabOp → FabOp) : (s.modFab i f).mem = s.mem := rfl
@[simp] theorem State.modFab_cores (s : State) (i : Nat) (f : FabOp → FabOp) : (s.modFab i f).cores = s.cores := rfl
@[simp] theorem State.modFab_launches (s : State) (i : Nat) (f : FabOp → FabOp) : (s.modFab i f).launches = s.launches := rfl
@[simp] theorem State.modFab_teams (s : State) (i : Nat) (f : FabOp → FabOp) : (s.modFab i f).teams = s.teams := rfl
@[simp] theorem State.modFab_groups (s : State) (i : Nat) (f : FabOp → FabOp) : (s.modFab i f).groups = s.groups := rfl
@[simp] theorem State.modFab_lanes (s : State) (i : Nat) (f : FabOp → FabOp) : (s.modFab i f).lanes = s.lanes := rfl
@[simp] theorem State.modFab_ops (s : State) (i : Nat) (f : FabOp → FabOp) : (s.modFab i f).ops = s.ops := rfl
@[simp] theorem State.modFab_fills (s : State) (i : Nat) (f : FabOp → FabOp) : (s.modFab i f).fills = s.fills := rfl
@[simp] theorem State.modFab_ranges (s : State) (i : Nat) (f : FabOp → FabOp) : (s.modFab i f).ranges = s.ranges := rfl
@[simp] theorem State.modFab_contribs (s : State) (i : Nat) (f : FabOp → FabOp) : (s.modFab i f).contribs = s.contribs := rfl
@[simp] theorem State.modFab_mmas (s : State) (i : Nat) (f : FabOp → FabOp) : (s.modFab i f).mmas = s.mmas := rfl
@[simp] theorem State.modFab_copies (s : State) (i : Nat) (f : FabOp → FabOp) : (s.modFab i f).copies = s.copies := rfl
@[simp] theorem State.modFab_packets (s : State) (i : Nat) (f : FabOp → FabOp) : (s.modFab i f).packets = s.packets := rfl
@[simp] theorem State.modFab_arrivals (s : State) (i : Nat) (f : FabOp → FabOp) : (s.modFab i f).arrivals = s.arrivals := rfl
@[simp] theorem State.modFab_gangQ (s : State) (i : Nat) (f : FabOp → FabOp) : (s.modFab i f).gangQ = s.gangQ := rfl
@[simp] theorem State.modFab_mapReqs (s : State) (i : Nat) (f : FabOp → FabOp) : (s.modFab i f).mapReqs = s.mapReqs := rfl
@[simp] theorem State.modFab_notices (s : State) (i : Nat) (f : FabOp → FabOp) : (s.modFab i f).notices = s.notices := rfl
@[simp] theorem State.modFab_shoots (s : State) (i : Nat) (f : FabOp → FabOp) : (s.modFab i f).shoots = s.shoots := rfl
@[simp] theorem State.modFab_changes (s : State) (i : Nat) (f : FabOp → FabOp) : (s.modFab i f).changes = s.changes := rfl
@[simp] theorem State.modFab_topo (s : State) (i : Nat) (f : FabOp → FabOp) : (s.modFab i f).topo = s.topo := rfl
@[simp] theorem State.modFab_links (s : State) (i : Nat) (f : FabOp → FabOp) : (s.modFab i f).links = s.links := rfl
@[simp] theorem State.modFab_blackout (s : State) (i : Nat) (f : FabOp → FabOp) : (s.modFab i f).blackout = s.blackout := rfl
@[simp] theorem State.modFab_queues (s : State) (i : Nat) (f : FabOp → FabOp) : (s.modFab i f).queues = s.queues := rfl
@[simp] theorem State.modFab_attest (s : State) (i : Nat) (f : FabOp → FabOp) : (s.modFab i f).attest = s.attest := rfl
@[simp] theorem State.modFab_mailboxMoved (s : State) (i : Nat) (f : FabOp → FabOp) : (s.modFab i f).mailboxMoved = s.mailboxMoved := rfl
@[simp] theorem State.modFab_retired (s : State) (i : Nat) (f : FabOp → FabOp) : (s.modFab i f).retired = s.retired := rfl
@[simp] theorem State.modFab_hostData (s : State) (i : Nat) (f : FabOp → FabOp) : (s.modFab i f).hostData = s.hostData := rfl
@[simp] theorem State.modFab_nextId (s : State) (i : Nat) (f : FabOp → FabOp) : (s.modFab i f).nextId = s.nextId := rfl
@[simp] theorem State.modFab_freeCtr (s : State) (i : Nat) (f : FabOp → FabOp) : (s.modFab i f).freeCtr = s.freeCtr := rfl
@[simp] theorem State.modFab_subj (s : State) (i : Nat) (f : FabOp → FabOp) : (s.modFab i f).subj = s.subj := rfl
@[simp] theorem State.modFab_sched (s : State) (i : Nat) (f : FabOp → FabOp) : (s.modFab i f).sched = s.sched := rfl

/-! ### modPacket changes only packets -/

@[simp] theorem State.modPacket_islMask (s : State) (i : Nat) (f : Packet → Packet) : (s.modPacket i f).islMask = s.islMask := rfl
@[simp] theorem State.modPacket_dieMask (s : State) (i : Nat) (f : Packet → Packet) : (s.modPacket i f).dieMask = s.dieMask := rfl
@[simp] theorem State.modPacket_now (s : State) (i : Nat) (f : Packet → Packet) : (s.modPacket i f).now = s.now := rfl
@[simp] theorem State.modPacket_fabricTime (s : State) (i : Nat) (f : Packet → Packet) : (s.modPacket i f).fabricTime = s.fabricTime := rfl
@[simp] theorem State.modPacket_slot (s : State) (i : Nat) (f : Packet → Packet) : (s.modPacket i f).slot = s.slot := rfl
@[simp] theorem State.modPacket_dies (s : State) (i : Nat) (f : Packet → Packet) : (s.modPacket i f).dies = s.dies := rfl
@[simp] theorem State.modPacket_mem (s : State) (i : Nat) (f : Packet → Packet) : (s.modPacket i f).mem = s.mem := rfl
@[simp] theorem State.modPacket_cores (s : State) (i : Nat) (f : Packet → Packet) : (s.modPacket i f).cores = s.cores := rfl
@[simp] theorem State.modPacket_launches (s : State) (i : Nat) (f : Packet → Packet) : (s.modPacket i f).launches = s.launches := rfl
@[simp] theorem State.modPacket_teams (s : State) (i : Nat) (f : Packet → Packet) : (s.modPacket i f).teams = s.teams := rfl
@[simp] theorem State.modPacket_groups (s : State) (i : Nat) (f : Packet → Packet) : (s.modPacket i f).groups = s.groups := rfl
@[simp] theorem State.modPacket_lanes (s : State) (i : Nat) (f : Packet → Packet) : (s.modPacket i f).lanes = s.lanes := rfl
@[simp] theorem State.modPacket_ops (s : State) (i : Nat) (f : Packet → Packet) : (s.modPacket i f).ops = s.ops := rfl
@[simp] theorem State.modPacket_fills (s : State) (i : Nat) (f : Packet → Packet) : (s.modPacket i f).fills = s.fills := rfl
@[simp] theorem State.modPacket_ranges (s : State) (i : Nat) (f : Packet → Packet) : (s.modPacket i f).ranges = s.ranges := rfl
@[simp] theorem State.modPacket_contribs (s : State) (i : Nat) (f : Packet → Packet) : (s.modPacket i f).contribs = s.contribs := rfl
@[simp] theorem State.modPacket_mmas (s : State) (i : Nat) (f : Packet → Packet) : (s.modPacket i f).mmas = s.mmas := rfl
@[simp] theorem State.modPacket_copies (s : State) (i : Nat) (f : Packet → Packet) : (s.modPacket i f).copies = s.copies := rfl
@[simp] theorem State.modPacket_fabs (s : State) (i : Nat) (f : Packet → Packet) : (s.modPacket i f).fabs = s.fabs := rfl
@[simp] theorem State.modPacket_arrivals (s : State) (i : Nat) (f : Packet → Packet) : (s.modPacket i f).arrivals = s.arrivals := rfl
@[simp] theorem State.modPacket_gangQ (s : State) (i : Nat) (f : Packet → Packet) : (s.modPacket i f).gangQ = s.gangQ := rfl
@[simp] theorem State.modPacket_mapReqs (s : State) (i : Nat) (f : Packet → Packet) : (s.modPacket i f).mapReqs = s.mapReqs := rfl
@[simp] theorem State.modPacket_notices (s : State) (i : Nat) (f : Packet → Packet) : (s.modPacket i f).notices = s.notices := rfl
@[simp] theorem State.modPacket_shoots (s : State) (i : Nat) (f : Packet → Packet) : (s.modPacket i f).shoots = s.shoots := rfl
@[simp] theorem State.modPacket_changes (s : State) (i : Nat) (f : Packet → Packet) : (s.modPacket i f).changes = s.changes := rfl
@[simp] theorem State.modPacket_topo (s : State) (i : Nat) (f : Packet → Packet) : (s.modPacket i f).topo = s.topo := rfl
@[simp] theorem State.modPacket_links (s : State) (i : Nat) (f : Packet → Packet) : (s.modPacket i f).links = s.links := rfl
@[simp] theorem State.modPacket_blackout (s : State) (i : Nat) (f : Packet → Packet) : (s.modPacket i f).blackout = s.blackout := rfl
@[simp] theorem State.modPacket_queues (s : State) (i : Nat) (f : Packet → Packet) : (s.modPacket i f).queues = s.queues := rfl
@[simp] theorem State.modPacket_attest (s : State) (i : Nat) (f : Packet → Packet) : (s.modPacket i f).attest = s.attest := rfl
@[simp] theorem State.modPacket_mailboxMoved (s : State) (i : Nat) (f : Packet → Packet) : (s.modPacket i f).mailboxMoved = s.mailboxMoved := rfl
@[simp] theorem State.modPacket_retired (s : State) (i : Nat) (f : Packet → Packet) : (s.modPacket i f).retired = s.retired := rfl
@[simp] theorem State.modPacket_hostData (s : State) (i : Nat) (f : Packet → Packet) : (s.modPacket i f).hostData = s.hostData := rfl
@[simp] theorem State.modPacket_nextId (s : State) (i : Nat) (f : Packet → Packet) : (s.modPacket i f).nextId = s.nextId := rfl
@[simp] theorem State.modPacket_freeCtr (s : State) (i : Nat) (f : Packet → Packet) : (s.modPacket i f).freeCtr = s.freeCtr := rfl
@[simp] theorem State.modPacket_subj (s : State) (i : Nat) (f : Packet → Packet) : (s.modPacket i f).subj = s.subj := rfl
@[simp] theorem State.modPacket_sched (s : State) (i : Nat) (f : Packet → Packet) : (s.modPacket i f).sched = s.sched := rfl

/-! ### The parts themselves -/

@[simp] theorem State.modGroup_groups (s : State) (L T G : Nat) (f : Group → Group) :
    (s.modGroup L T G f).groups = updWhere (fun h => h.launch == L && h.team == T && h.gnum == G) f s.groups := rfl
@[simp] theorem State.modTeam_teams (s : State) (L T : Nat) (f : Team → Team) :
    (s.modTeam L T f).teams = updWhere (fun t => t.launch == L && t.idx == T) f s.teams := rfl
@[simp] theorem State.modLaunch_launches (s : State) (L : Nat) (f : Launch → Launch) :
    (s.modLaunch L f).launches = updWhere (fun x => x.num == L) f s.launches := rfl
@[simp] theorem State.modDie_dies (s : State) (d : Nat) (f : Die → Die) : (s.modDie d f).dies = setNth s.dies d (f (s.die d)) := rfl
@[simp] theorem State.modOp_ops (s : State) (i : Nat) (f : Op → Op) :
    (s.modOp i f).ops = updWhere (fun o => o.id == i) f s.ops := rfl
@[simp] theorem State.redraw_freeCtr (s : State) : s.redraw.freeCtr = s.freeCtr + 1 := rfl

/-! ### The n-th member of a list -/

@[simp] theorem setNth_length {α : Type} (l : List α) (n : Nat) (v : α) : (setNth l n v).length = l.length := by
  induction l generalizing n with
  | nil => rfl
  | cons x l ih =>
    cases n with
    | zero => rfl
    | succ n => simpa [setNth] using ih n

theorem getElem?_setNth {α : Type} (l : List α) (n k : Nat) (v : α) :
    (setNth l n v)[k]? = if k = n ∧ n < l.length then some v else l[k]? := by
  induction l generalizing n k with
  | nil => simp [setNth]
  | cons x l ih =>
    cases n with
    | zero => cases k with
      | zero => simp [setNth]
      | succ k => simp [setNth]
    | succ n => cases k with
      | zero => simp [setNth]
      | succ k => simpa [setNth] using ih n k

@[simp] theorem setNth_setNth {α : Type} (l : List α) (n : Nat) (v w : α) : setNth (setNth l n v) n w = setNth l n w := by
  induction l generalizing n with
  | nil => rfl
  | cons x l ih =>
    cases n with
    | zero => rfl
    | succ n => simpa [setNth] using ih n

/-! ### Dies -/

theorem State.die_modDie (s : State) (d : Nat) (f : Die → Die) (h : d < s.dies.length) : (s.modDie d f).die d = f (s.die d) := by
  show (setNth s.dies d (f (s.die d))).getD d {} = _
  rw [List.getD_eq_getElem?_getD, getElem?_setNth, if_pos ⟨rfl, h⟩, Option.getD_some]

theorem State.die_modDie_ne (s : State) (d e : Nat) (f : Die → Die) (h : e ≠ d) : (s.modDie d f).die e = s.die e := by
  show (setNth s.dies d (f (s.die d))).getD e {} = s.dies.getD e {}
  rw [List.getD_eq_getElem?_getD, getElem?_setNth, if_neg (fun x => h x.1), List.getD_eq_getElem?_getD]

/-- Two changes of one die are one. -/
theorem State.modDie_modDie (s : State) (d : Nat) (f g : Die → Die) (h : d < s.dies.length) :
    (s.modDie d f).modDie d g = s.modDie d (fun x => g (f x)) := by
  have e := s.die_modDie d f h
  unfold State.modDie at *
  simp [e]

/-! ### Groups, teams and launches -/

/-- Finding a member after a change of the members of that kind. -/
theorem find?_updWhere {α : Type} (p : α → Bool) (f : α → α) (l : List α) (hf : ∀ x, p x = true → p (f x) = true) :
    (updWhere p f l).find? p = (l.find? p).map f := by
  induction l with
  | nil => rfl
  | cons x l ih =>
    rw [updWhere] at ih ⊢
    cases hx : p x with
    | true => simp [hx, hf x hx]
    | false => simpa [List.find?_cons, hx] using ih

/-- A group after a change that keeps its names. -/
theorem State.group?_modGroup (s : State) (L T G : Nat) (f : Group → Group)
    (h : ∀ g, (f g).launch = g.launch ∧ (f g).team = g.team ∧ (f g).gnum = g.gnum) :
    (s.modGroup L T G f).group? L T G = (s.group? L T G).map f :=
  find?_updWhere _ f s.groups (fun x e => by simpa [h x] using e)

/-- A team after a change that keeps its names. -/
theorem State.team?_modTeam (s : State) (L T : Nat) (f : Team → Team)
    (h : ∀ t, (f t).launch = t.launch ∧ (f t).idx = t.idx) :
    (s.modTeam L T f).team? L T = (s.team? L T).map f :=
  find?_updWhere _ f s.teams (fun x e => by simpa [h x] using e)

/-- A launch after a change that keeps its number. -/
theorem State.launch?_modLaunch (s : State) (L : Nat) (f : Launch → Launch)
    (h : ∀ x, (f x).num = x.num) :
    (s.modLaunch L f).launch? L = (s.launch? L).map f :=
  find?_updWhere _ f s.launches (fun x e => by simpa [h x] using e)

/-! ### Steps of the engines -/

/-- An engine step that can be taken. -/
theorem event_some (s t : State) : event s (some t) = .next t.redraw := rfl

/-- An engine step whose conditions do not hold changes nothing. -/
theorem event_none (s : State) : event s none = .next s := rfl

/-- What an engine step answers. -/
theorem event_next (s : State) (r : Option State) (t : State) : event s r = .next t ↔ t = (r.map State.redraw).getD s := by
  cases r <;> simp [event, eq_comm]

end Sys2Proof.Machine
end

