-- ==== Sys2Proof/Laws/Registers.lean ====
section
/-!
SUPPORT. Laws/Registers.lean: what writing registers does (`State.putRegs`), and what every instruction built on
`alu` does.
-/
namespace Sys2Proof.Machine

/-- A change that a view of the members does not show. -/
theorem map_updWhere {α β : Type} (p : α → Bool) (f : α → α) (v : α → β) (l : List α) (h : ∀ x, p x = true → v (f x) = v x) :
    (updWhere p f l).map v = l.map v := by
  simp only [updWhere, List.map_map]
  refine List.map_congr_left (fun x _ => ?_)
  cases hx : p x with
  | true => simp [hx, h x hx]
  | false => simp [hx]

/-- Changing a group leaves a view of the groups alone that does not see the change. -/
theorem butRegs_regs (L T G : Nat) (g : Group) (m : Cells Word) (h : (g.launch == L && g.team == T && g.gnum == G) = true) :
    Group.butRegs L T G { g with regs := m } = Group.butRegs L T G g := by
  simp only [Group.butRegs, h, if_true]

theorem butStores_regs (L T G : Nat) (g : Group) (m : Cells Word) (h : (g.launch == L && g.team == T && g.gnum == G) = true) :
    Group.butStores L T G { g with regs := m } = Group.butStores L T G g := by
  simp only [Group.butStores, h, if_true]

theorem butStores_spoil (L T G : Nat) (s : State) (o : Op) (g : Group)
    (h : (g.launch == L && g.team == T && g.gnum == G) = true) :
    Group.butStores L T G (g.spoil s o) = Group.butStores L T G g := by
  simp only [Group.butStores, Group.spoil, h, if_true]

/-- What spoiled operations leave alone. -/
theorem taint_all (l : List Op) (s : State) (L T G : Nat) (hl : ∀ o ∈ l, o.launch = L ∧ o.team = T ∧ o.gnum = G) :
    let s1 := l.foldl (fun s o => s.taint o) s
    s1.rest = s.rest ∧ s1.lanes = s.lanes ∧ s1.freeCtr = s.freeCtr ∧
    (s1.group? L T G).map Group.regs = (s.group? L T G).map Group.regs ∧
    s1.groups.map (Group.butStores L T G) = s.groups.map (Group.butStores L T G) := by
  induction l generalizing s with
  | nil => simp
  | cons o l ih =>
    obtain ⟨rfl, rfl, rfl⟩ := hl o (by simp)
    have h := ih (s.taint o) (fun x hx => hl x (by simp [hx]))
    simp only [List.foldl_cons] at h ⊢
    refine ⟨h.1, h.2.1, h.2.2.1, h.2.2.2.1.trans ?_, h.2.2.2.2.trans ?_⟩
    · simp only [State.group?, State.taint, State.modGroup]
      rw [find?_updWhere (fun g : Group => g.launch == o.launch && g.team == o.team && g.gnum == o.gnum) (Group.spoil s o) _
        (fun g h => h), Option.map_map]
      rfl
    · exact map_updWhere _ _ _ _ (fun g hg => butStores_spoil _ _ _ s o g hg)

/-- Writing registers: everything else stays, but for what a source written too early costs (R101). -/
theorem putRegs_spec (s : State) (L T G : Nat) (ws : List RegWrite) :
    (s.putRegs L T G ws).rest = s.rest ∧ (s.putRegs L T G ws).lanes = s.lanes ∧
    (s.putRegs L T G ws).freeCtr = s.freeCtr ∧
    ((s.putRegs L T G ws).group? L T G).map Group.regs =
      (s.group? L T G).map (fun g => ws.foldl (fun m w => Cells.set 0 m (32 * w.2.1 + w.1) w.2.2) g.regs) ∧
    (s.putRegs L T G ws).groups.map (Group.butStores L T G) = s.groups.map (Group.butStores L T G) ∧
    ((∀ o ∈ s.ops, (o.launch == L && o.team == T && o.gnum == G && ws.any (fun w => o.reads w.2.1 w.1)) = false) →
      (s.putRegs L T G ws).ops = s.ops ∧ (s.putRegs L T G ws).contribs = s.contribs ∧
      (s.putRegs L T G ws).cores = s.cores ∧
      (s.putRegs L T G ws).groups.map (Group.butRegs L T G) = s.groups.map (Group.butRegs L T G)) := by
  have ht := taint_all (s.ops.filter (fun o => o.launch == L && o.team == T && o.gnum == G && ws.any (fun w => o.reads w.2.1 w.1)))
    s L T G (by
      intro o ho
      have h := (List.mem_filter.mp ho).2
      simp only [Bool.and_eq_true, beq_iff_eq] at h
      exact ⟨h.1.1.1, h.1.1.2, h.1.2⟩)
  obtain ⟨h1, h2, h3, h4, h5⟩ := ht
  refine ⟨h1, h2, h3, ?_, ?_, ?_⟩
  · simp only [State.putRegs, State.group?, State.modGroup] at h4 ⊢
    rw [find?_updWhere (fun g : Group => g.launch == L && g.team == T && g.gnum == G) _ _ (by intro g h; exact h), Option.map_map]
    cases hg : List.find? (fun g : Group => g.launch == L && g.team == T && g.gnum == G) s.groups with
    | none => rw [hg] at h4; simpa using h4
    | some g =>
      rw [hg] at h4
      simp only [Option.map_some, Option.map_eq_some_iff] at h4 ⊢
      obtain ⟨g', hg', hr⟩ := h4
      exact ⟨g', hg', by simp [hr]⟩
  · exact (map_updWhere _ _ _ _ (fun g hg => butStores_regs L T G g _ hg)).trans h5
  · intro hn
    have hnil : s.ops.filter (fun o => o.launch == L && o.team == T && o.gnum == G && ws.any (fun w => o.reads w.2.1 w.1)) = [] :=
      List.filter_eq_nil_iff.mpr (fun o ho => by simp [hn o ho])
    simp only [State.putRegs, hnil, List.foldl_nil]
    exact ⟨rfl, rfl, rfl, map_updWhere _ _ _ _ (fun g hg => butRegs_regs L T G g _ hg)⟩

/-! ### Results -/

theorem writesAt_length (g : Group) (d : BitVec 7) (h : ¬ d.toNat < 112) (rs : List (Nat × List Word)) : writesAt g d rs = [] := by
  simp [writesAt, h]

/-- The threads of a mask, each once. -/
theorem mem_threadsOf (m : Word) (t : Nat) : t ∈ threadsOf m ↔ t < 32 ∧ m.getLsbD t = true := by
  simp [threadsOf]

/-- A register write of a list of results, found by its thread and register. -/
theorem mem_writes (base : Nat) (l : List Nat) (val : Nat → List Word) (w : RegWrite) :
    w ∈ (l.map (fun t => (t, val t))).flatMap (fun r => r.2.zipIdx.map (fun x => (r.1, base + x.2, x.1))) ↔
      w.1 ∈ l ∧ base ≤ w.2.1 ∧ w.2.1 < base + (val w.1).length ∧ w.2.2 = (val w.1).getD (w.2.1 - base) 0 := by
  obtain ⟨t, r, v⟩ := w
  simp only [List.mem_flatMap, List.mem_map, Prod.exists, Prod.mk.injEq]
  constructor
  · rintro ⟨t', x, ⟨t'', ht, rfl, rfl⟩, v', k, hk, rfl, rfl, rfl⟩
    have hk' := List.mem_zipIdx hk
    simp only [Nat.zero_add, Nat.sub_zero] at hk'
    refine ⟨ht, by omega, by omega, ?_⟩
    rw [show base + k - base = k by omega, hk'.2.2]
    simp [List.getD, hk'.2.1]
  · rintro ⟨ht, h1, h2, hv⟩
    refine ⟨t, val t, ⟨t, ht, rfl, rfl⟩, v, r - base, ?_, rfl, by omega, rfl⟩
    rw [List.mk_mem_zipIdx_iff_getElem?]
    have hlt : r - base < (val t).length := by omega
    simp only [List.getD] at hv
    rw [hv, List.getElem?_eq_getElem hlt]
    simp

theorem results_eq (l : Lane) (u : Bool) (f : Nat → List Word) :
    l.results u f = (threadsOf l.issuing).map (fun t => (t, f (if u then l.lowest else t))) := by
  cases u <;> rfl

/-- The register writes of a field, by what `fieldVal` says of each register. -/
theorem mem_writesAt (s : State) (l : Lane) (g : Group) (u : Bool) (d : BitVec 7) (f : Thr → List Word) (w : RegWrite) :
    w ∈ writesAt g d (resultsOf s l g u f) ↔
      w.1 < 32 ∧ l.issuing.getLsbD w.1 = true ∧ fieldVal g d (f (viewOf s l g u w.1)) w.2.1 = some w.2.2 := by
  simp only [writesAt, resultsOf, results_eq, fieldVal]
  by_cases hd : d.toNat < 112
  · rw [if_pos hd, mem_writes (16 * g.wb + d.toNat) (threadsOf l.issuing)
      (fun t => f { s := s, l := l, g := g, t := if u then l.lowest else t }), mem_threadsOf]
    simp only [hd, true_and, viewOf]
    by_cases hr : 16 * g.wb + d.toNat ≤ w.2.1 ∧ w.2.1 < 16 * g.wb + d.toNat + (f (viewOf s l g u w.1)).length
    · rw [viewOf] at hr
      rw [if_pos hr]
      simp only [hr, true_and, Option.some.injEq]
      constructor
      · rintro ⟨⟨h1, h2⟩, h3⟩; exact ⟨h1, h2, h3.symm⟩
      · rintro ⟨h1, h2, h3⟩; exact ⟨⟨h1, h2⟩, h3.symm⟩
    · rw [viewOf] at hr
      rw [if_neg hr]
      simp only [reduceCtorEq, and_false, iff_false]
      rintro ⟨-, h2, h3, -⟩
      exact hr ⟨h2, h3⟩
  · simp [hd]

/-- What a register holds after the writes of `ws`, where they are exactly what `new` says of the issuing threads. -/
theorem get_regWrites (m : Cells Word) (iss : Word) (new : Nat → Nat → Option Word) (ws : List RegWrite)
    (hws : ∀ w : RegWrite, w ∈ ws → w.1 < 32 ∧ iss.getLsbD w.1 = true ∧ new w.2.1 w.1 = some w.2.2)
    (hall : ∀ r th v, th < 32 → iss.getLsbD th = true → new r th = some v → (th, r, v) ∈ ws) (r th : Nat) (hth : th < 32) :
    Cells.get 0 (ws.foldl (fun m (w : RegWrite) => Cells.set 0 m (32 * w.2.1 + w.1) w.2.2) m) (32 * r + th) =
      if iss.getLsbD th then (new r th).getD (Cells.get 0 m (32 * r + th)) else Cells.get 0 m (32 * r + th) := by
  rw [Cells.get_foldl 0 (fun w : RegWrite => 32 * w.2.1 + w.1) (fun w => w.2.2)]
  split
  · rename_i w hw
    have hk := List.find?_some hw
    have hm := hws w (List.mem_reverse.mp (List.mem_of_find?_eq_some hw))
    simp only [decide_eq_true_eq] at hk
    have h1 : w.1 = th := by omega
    have h2 : w.2.1 = r := by omega
    subst h1 h2
    simp [hm.2.1, hm.2.2]
  · rename_i hnone
    by_cases hi : iss.getLsbD th = true
    · rw [if_pos hi]
      cases hn : new r th with
      | none => rfl
      | some v =>
        have := List.find?_eq_none.mp hnone (th, r, v) (List.mem_reverse.mpr (hall r th v hth hi hn))
        simp at this
    · rw [if_neg hi]

/-- Register writes that are exactly what `new` says, the clause having become `now`. -/
theorem putRegs_writes (s t : State) (now l : Lane) (ls : List Lane) (g : Group) (new : Nat → Nat → Option Word)
    (ws : List RegWrite) (hg : s.laneGroup? l = some g)
    (hws : ∀ w : RegWrite, w ∈ ws → w.1 < 32 ∧ l.issuing.getLsbD w.1 = true ∧ new w.2.1 w.1 = some w.2.2)
    (hall : ∀ r th v, th < 32 → l.issuing.getLsbD th = true → new r th = some v → (th, r, v) ∈ ws)
    (ht : t.lanes = now :: ls) (hr : t.rest = (s.putRegs l.launch l.team l.gnum ws).rest)
    (hgr : t.groups = (s.putRegs l.launch l.team l.gnum ws).groups) (ho : t.ops = (s.putRegs l.launch l.team l.gnum ws).ops)
    (hc : t.contribs = (s.putRegs l.launch l.team l.gnum ws).contribs)
    (hk : t.cores = (s.putRegs l.launch l.team l.gnum ws).cores) : WritesOnly s t now l ls g new := by
  obtain ⟨h1, h2, h3, h4, h5, h6⟩ := putRegs_spec s l.launch l.team l.gnum ws
  refine ⟨hr.trans h1, ht, ?_, by rw [hgr]; exact h5, ?_⟩
  · change (s.group? l.launch l.team l.gnum) = some g at hg
    rw [hg] at h4
    simp only [Option.map_some, Option.map_eq_some_iff] at h4
    obtain ⟨g', hg', hreg⟩ := h4
    refine ⟨g', ?_, fun r th hth => ?_⟩
    · simp only [State.laneGroup?, State.group?, hgr]; exact hg'
    · simp only [Group.at_, hreg]
      exact get_regWrites g.regs l.issuing new ws hws hall r th hth
  · intro hn
    rw [hgr, ho, hc, hk]
    refine h6 (fun o hos => ?_)
    rw [Bool.eq_false_iff]
    intro hcon
    simp only [Bool.and_eq_true, List.any_eq_true] at hcon
    obtain ⟨hkey, w, hw, hrd⟩ := hcon
    have hw' := hws w hw
    have hs := hn w.2.1 w.1 hw'.2.1 (by simp [hw'.2.2])
    simp only [State.stillRead, List.any_eq_false] at hs
    exact hs o hos (by simpa [hrd] using hkey)

/-- Writing the results of an instruction to a field. -/
theorem putResults_spec (s : State) (l : Lane) (ls : List Lane) (g : Group) (u : Bool) (d : BitVec 7) (f : Thr → List Word)
    (hl : s.lanes = l :: ls) (hg : s.laneGroup? l = some g) :
    WritesOnly s (s.putResults l g u d f).advance l.after l ls g (fun r th => fieldVal g d (f (viewOf s l g u th)) r) := by
  have hlane : (s.putResults l g u d f).lanes = l :: ls :=
    (putRegs_spec s l.launch l.team l.gnum (writesAt g d (resultsOf s l g u f))).2.1.trans hl
  have hadv : (s.putResults l g u d f).advance =
      { s.putResults l g u d f with
        lanes := l.after :: ls
        freeCtr := (s.putResults l g u d f).freeCtr + 1 } := by
    simp only [State.advance, hlane]; rfl
  rw [hadv]
  exact putRegs_writes s _ l.after l ls g _ (writesAt g d (resultsOf s l g u f)) hg
    (fun w hw => (mem_writesAt s l g u d f w).mp hw) (fun r th v h1 h2 h3 => (mem_writesAt s l g u d f (th, r, v)).mpr ⟨h1, h2, h3⟩)
    rfl rfl rfl rfl rfl rfl

/-- A word whose checks find nothing has the effect of its body, and the clause goes on. -/
theorem runWord_next (i : Instr) (own : State → Lane → Group → Option Trap) (body : State → Lane → Group → State) (s : State)
    (l : Lane) (ls : List Lane) (g : Group) (h : Runs i s l ls g) (ho : own s l g = none) :
    runWord i own body s = .next (body s l g).advance := by
  obtain ⟨h1, h2, h3⟩ := h
  simp [runWord, h1, h2, h3, ho]

/-- Every instruction built on `alu` computes its function. -/
theorem alu_computes (i : Instr) (u : Bool) (d : BitVec 7) (f : Thr → List Word) (h : ∀ s, exec i s = alu i u d f s) :
    Computes i u d f := by
  intro s l ls g hr
  refine ⟨_, (h s).trans (runWord_next i noOwn _ s l ls g hr rfl), ?_⟩
  exact putResults_spec s l ls g u d f hr.1 hr.2.1

end Sys2Proof.Machine
end

