-- ==== Sys2Proof/Laws/Faults.lean ====
section
/-!
SUPPORT. Laws/Faults.lean: what taking an instruction fault does (`State.raiseInstr`).
-/
namespace Sys2Proof.Machine

theorem getD_setNth (l : List Nat) (n v k : Nat) : (setNth l n v).getD k 0 = if k = n ∧ n < l.length then v else l.getD k 0 := by
  induction l generalizing n k with
  | nil => simp [setNth]
  | cons x l ih =>
    cases n with
    | zero =>
      cases k with
      | zero => simp [setNth]
      | succ k => simp [setNth]
    | succ n =>
      cases k with
      | zero => simp [setNth]
      | succ k => simpa [setNth] using ih n k

/-- Withdrawing increments changes only the pending counts, each by the times its flag is named. -/
theorem withdraw_fold (fs : List Nat) (g : Group) :
    let g' := fs.foldl (fun g f => g.bumpFlag f 1 true) g
    { g' with fcnt := g.fcnt } = g ∧ ∀ f, g'.fcnt.getD f 0 = g.fcnt.getD f 0 - fs.count f := by
  induction fs generalizing g with
  | nil => simp
  | cons a fs ih =>
    obtain ⟨h1, h2⟩ := ih (g.bumpFlag a 1 true)
    refine ⟨?_, fun f => ?_⟩
    · have : ∀ (x y : Group) (c : List Nat), { x with fcnt := (y.bumpFlag a 1 true).fcnt } = y.bumpFlag a 1 true →
          { x with fcnt := y.fcnt } = y := by
        intro x y c h
        have := congrArg (fun z : Group => { z with fcnt := y.fcnt }) h
        exact this
      exact this _ g [] h1
    · have h3 := h2 f
      simp only [List.foldl_cons] at h3 ⊢
      rw [h3]
      simp only [Group.bumpFlag, if_true, getD_setNth, List.count_cons]
      by_cases hf : f = a
      · subst hf
        by_cases hl : f < g.fcnt.length
        · simp [hl]; omega
        · simp [hl]
      · simp [hf, Ne.symm hf]

theorem quiesce_spec (s : State) (L T : Nat) :
    (s.quiesce L T).groups = s.groups ∧ (s.quiesce L T).lanes = s.lanes ∧ (s.quiesce L T).dies = s.dies ∧
    (s.quiesce L T).mem = s.mem ∧ (s.quiesce L T).ops = s.ops ∧ (s.quiesce L T).cores = s.cores ∧
    (s.quiesce L T).launches = s.launches ∧ (s.quiesce L T).ranges = s.ranges ∧
    ((∀ h ∈ s.teams, h.ctx ≠ .halting) → (s.quiesce L T).teams = s.teams) := by
  unfold State.quiesce
  split
  · simp
  · refine ⟨rfl, rfl, rfl, rfl, rfl, rfl, rfl, rfl, fun h => ?_⟩
    simp only [State.modTeam, updWhere]
    refine (List.map_congr_left (fun t ht => ?_)).trans (List.map_id _)
    simp only [h t ht, if_false, ite_self, id]

/-- Taking an instruction fault. -/
theorem raiseInstr_raised (s : State) (l : Lane) (ls : List Lane) (g : Group) (x : Trap) (hl : s.lanes = l :: ls)
    (hg : s.laneGroup? l = some g) : Raised s (s.raiseInstr l x) l ls g x := by
  unfold State.raiseInstr
  simp only
  have hq := quiesce_spec
    { (s.modGroup l.launch l.team l.gnum (fun g =>
        l.owedFlags.foldl (fun g f => g.bumpFlag f 1 true) { g with halt := .faulted, readySince := none })).handRecord
        (dieOfCore l.core) (s.laneRecord l x.code Cls.instr l.idx x.addr x.thread (l.words.getD l.idx 0)) with
      lanes := s.lanes.tail, freeCtr := s.freeCtr + 1 } l.launch l.team
  obtain ⟨q1, q2, q3, q4, q5, q6, q7, q8, q9⟩ := hq
  refine ⟨q2.trans (by simp [hl]), q3.trans ?_, ?_, q4, q5, q6, q7, q8, q9⟩
  · simp only [State.handRecord, State.modDie, State.modGroup, State.die, State.laneRecord, hg, Option.map_some, Option.getD_some]
  · have hw := withdraw_fold l.owedFlags { g with halt := .faulted, readySince := none }
    obtain ⟨w1, w2⟩ := hw
    refine ⟨_, ?_, ?_, ?_, ?_, w2⟩
    · simp only [State.laneGroup?, State.group?, q1]
      simp only [State.handRecord, State.modDie, State.modGroup]
      rw [find?_updWhere (fun h : Group => h.launch == l.launch && h.team == l.team && h.gnum == l.gnum)]
      · change (s.group? l.launch l.team l.gnum).map _ = _
        change s.group? l.launch l.team l.gnum = some g at hg
        rw [hg]; rfl
      · intro h hh
        have h1 := (withdraw_fold l.owedFlags { h with halt := .faulted, readySince := none }).1
        have e1 := congrArg Group.launch h1
        have e2 := congrArg Group.team h1
        have e3 := congrArg Group.gnum h1
        simp only at e1 e2 e3
        rw [e1, e2, e3]; exact hh
    · have := congrArg (fun z : Group => { z with halt := g.halt, readySince := g.readySince }) w1
      exact this
    · exact congrArg Group.halt w1
    · exact congrArg Group.readySince w1

/-- A word that a check of steps 1 to 5 of R45 refuses raises its fault. -/
theorem runWord_refused (i : Instr) (own : State → Lane → Group → Option Trap) (body : State → Lane → Group → State) (s : State)
    (l : Lane) (ls : List Lane) (g : Group) (x : Trap) (hl : s.lanes = l :: ls) (hg : s.laneGroup? l = some g)
    (hc : checkWord i s l g = some x) : ∃ t, runWord i own body s = .next t ∧ Raised s t l ls g x := by
  refine ⟨_, ?_, raiseInstr_raised s l ls g x hl hg⟩
  simp [runWord, hl, hg, hc]

/-- A word that its own check refuses raises its fault. -/
theorem runWord_own (i : Instr) (own : State → Lane → Group → Option Trap) (body : State → Lane → Group → State) (s : State)
    (l : Lane) (ls : List Lane) (g : Group) (x : Trap) (hr : Runs i s l ls g) (ho : own s l g = some x) :
    ∃ t, runWord i own body s = .next t ∧ Raised s t l ls g x := by
  refine ⟨_, ?_, raiseInstr_raised s l ls g x hr.1 hr.2.1⟩
  simp [runWord, hr.1, hr.2.1, hr.2.2, ho]

end Sys2Proof.Machine
end

