-- ==== Sys2Proof/Laws/Start.lean ====
section
/-!
SUPPORT. Laws/Start.lean: what starting an operation on global memory leaves unchanged (`State.startMem`).
-/
namespace Sys2Proof.Machine

/-- From s to t nothing that `still` keeps has changed, and the operations show the same faces. -/
def Calm (s t : State) : Prop := t.still = s.still ∧ t.lanes = s.lanes ∧ t.ops.map Op.asked = s.ops.map Op.asked

theorem Calm.refl (s : State) : Calm s s := ⟨rfl, rfl, rfl⟩

theorem Calm.trans {s t u : State} (h : Calm s t) (k : Calm t u) : Calm s u :=
  ⟨k.1.trans h.1, k.2.1.trans h.2.1, k.2.2.trans h.2.2⟩

/-- A change of fields that `still` leaves out. -/
theorem calm_of (s t : State) (hs : { t with lanes := [], ops := [], contribs := [], cores := [], mapReqs := [], fills := [], nextId := 0, freeCtr := 0, dies := s.dies, groups := s.groups } =
      { s with lanes := [], ops := [], contribs := [], cores := [], mapReqs := [], fills := [], nextId := 0, freeCtr := 0, dies := s.dies, groups := s.groups })
    (hd : t.dies.map (fun (d : Die) => { d with walker := [] }) = s.dies.map (fun (d : Die) => { d with walker := [] }))
    (hg : t.groups.map (fun (g : Group) => { g with sq := [] }) = s.groups.map (fun (g : Group) => { g with sq := [] }))
    (hl : t.lanes = s.lanes) (ho : t.ops.map Op.asked = s.ops.map Op.asked) : Calm s t := by
  refine ⟨?_, hl, ho⟩
  have := congrArg (fun z : State => { z with
    dies := t.dies.map (fun (d : Die) => { d with walker := [] }), groups := t.groups.map (fun (g : Group) => { g with sq := [] }) }) hs
  refine Eq.trans ?_ (this.trans ?_)
  · rfl
  · simp only [State.still, hd, hg]

theorem calm_modCore (s : State) (c : Nat) (f : Core → Core) : Calm s (s.modCore c f) := by
  unfold State.modCore State.setCore
  split <;> exact calm_of _ _ rfl rfl rfl rfl rfl

theorem calm_modAcc (s : State) (i a : Nat) (f : Access → Access)
    (hf : ∀ x, (f x).asked = x.asked) : Calm s (s.modAcc i a f) := by
  refine calm_of _ _ rfl rfl rfl rfl (map_updWhere _ _ _ _ (fun o _ => ?_))
  simp only [Op.asked]
  congr 1
  exact map_updWhere _ _ _ _ (fun x _ => hf x)

theorem calm_modGroup_sq (s : State) (L T G : Nat) (f : Group → List Store) :
    Calm s (s.modGroup L T G (fun g => { g with sq := f g })) :=
  calm_of _ _ rfl rfl (map_updWhere _ _ _ _ (fun _ _ => rfl)) rfl rfl

theorem map_setNth_getD {α β : Type} (v : α → β) (l : List α) (d : Nat) (z : α) (f : α → α)
    (h : ∀ x, v (f x) = v x) : (setNth l d (f (l.getD d z))).map v = l.map v := by
  induction l generalizing d with
  | nil => rfl
  | cons x l ih =>
    cases d with
    | zero => simp [setNth, h]
    | succ d => simpa [setNth] using ih d

/-- A run of changes that are each calm. -/
theorem calm_foldl {α : Type} (f : State → α → State) (h : ∀ s x, Calm s (f s x)) (xs : List α) (s : State) : Calm s (xs.foldl f s) := by
  induction xs generalizing s with
  | nil => exact Calm.refl s
  | cons x xs ih => exact (h s x).trans (ih (f s x))

theorem calm_walkRead (s : State) (adr : Nat) : Calm s (s.walkRead adr) := by
  unfold State.walkRead
  simp only
  split
  · exact Calm.refl s
  · exact calm_of _ _ rfl rfl rfl rfl rfl

theorem calm_requestFill (s : State) (d pa grain n : Nat) (r : Bool) : Calm s (s.requestFill d pa grain n r) := by
  unfold State.requestFill
  simp only
  split
  · exact Calm.refl s
  · exact calm_of _ _ rfl rfl rfl rfl rfl

theorem calm_walker (s : State) (d : Nat) (f : Die → List (Nat × Nat × DWord)) :
    Calm s (s.modDie d (fun x => { x with walker := f x })) :=
  calm_of _ _ rfl (map_setNth_getD _ s.dies d _ (fun x => { x with walker := f x }) (fun _ => rfl)) rfl rfl rfl

theorem calm_noteWalk (s : State) (d launch va : Nat) : Calm s (s.noteWalk d launch va) :=
  (calm_foldl _ calm_walkRead _ s).trans (calm_walker _ d (fun x =>
    (pointersFrom s d launch va levels 18 (s.root launch d) ++
      x.walker.filter (fun w => !(pointersFrom s d launch va levels 18 (s.root launch d)).contains w)).take 256))

theorem calm_noteLook (s : State) (c launch : Nat) (slot : Option (Nat × Nat)) (l : Look) : Calm s (s.noteLook c launch slot l) := by
  unfold State.noteLook
  split
  · split
    · exact Calm.refl s
    · refine Calm.trans ?_ (calm_modCore _ _ _)
      split
      · exact Calm.refl s
      · exact calm_noteWalk _ _ _ _
  · exact calm_noteWalk _ _ _ _
  · exact calm_noteWalk _ _ _ _

theorem calm_requestMap (s : State) (c launch va : Nat) (slot : Option (Nat × Nat)) : Calm s (s.requestMap c launch va slot) := by
  unfold State.requestMap
  split
  · simp only
    split
    · exact Calm.refl s
    · exact calm_of _ _ rfl rfl rfl rfl rfl
  · exact Calm.refl s

theorem calm_placeAccess (s : State) (core launch : Nat) (slot : Option (Nat × Nat)) (plain : Bool) (a : Access) :
    Calm s (s.placeAccess core launch slot plain a).1 ∧ (s.placeAccess core launch slot plain a).2.asked = a.asked := by
  unfold State.placeAccess
  split
  · exact ⟨Calm.refl s, rfl⟩
  · simp only
    split
    · exact ⟨calm_noteLook _ _ _ _ _, rfl⟩
    · exact ⟨(calm_noteLook _ _ _ _ _).trans (calm_requestMap _ _ _ _ _), rfl⟩
    · exact ⟨(calm_noteLook _ _ _ _ _).trans (calm_requestMap _ _ _ _ _), rfl⟩

theorem calm_nextId (s : State) (n : Nat) : Calm s { s with nextId := n } := calm_of _ _ rfl rfl rfl rfl rfl

theorem calm_placeAll (core launch : Nat) (slot : Nat → Option (Nat × Nat)) (plain : Bool) (accs : List Access) (s : State) :
    Calm s (placeAll core launch slot plain accs s).1 ∧
    (placeAll core launch slot plain accs s).2.map Access.asked = accs.map Access.asked := by
  induction accs generalizing s with
  | nil => exact ⟨Calm.refl s, rfl⟩
  | cons a rest ih =>
    simp only [placeAll, List.map_cons]
    have h := calm_placeAccess s core launch (slot a.thread) plain { a with id := s.nextId }
    obtain ⟨h1, h2⟩ := h
    have k := ih { (s.placeAccess core launch (slot a.thread) plain { a with id := s.nextId }).1 with
      nextId := (s.placeAccess core launch (slot a.thread) plain { a with id := s.nextId }).1.nextId + 1 }
    exact ⟨h1.trans ((calm_nextId _ _).trans k.1), by rw [k.2, h2]; rfl⟩

theorem calm_enqueue (s t : State) (o : Op) (e : Store) (h : s.enqueue o e = some t) : Calm s t := by
  unfold State.enqueue at h
  split at h
  · cases h
  · split at h
    · cases h
    · cases h; exact calm_modGroup_sq _ _ _ _ _

theorem calm_contribs (s : State) (c : List Contrib) : Calm s { s with contribs := c } := calm_of _ _ rfl rfl rfl rfl rfl

theorem calm_zeroLoop (o : Op) (a : Access) (n done : Nat) (s : State) : Calm s (zeroLoop o a n done s) := by
  induction n generalizing done s with
  | zero => exact calm_modAcc _ _ _ _ (fun _ => rfl)
  | succ n ih =>
    simp only [zeroLoop]
    split
    · exact calm_modAcc _ _ _ _ (fun _ => rfl)
    · split
      · exact calm_modAcc _ _ _ _ (fun _ => rfl)
      · rename_i s1 hs
        exact (calm_nextId s _).trans ((calm_enqueue _ _ _ _ hs).trans (ih _ _))

theorem calm_admitPlain (s t : State) (o : Op) (a : Access) (tr : Tr) (h : s.admitPlain o a tr = some t) : Calm s t := by
  unfold State.admitPlain at h
  split at h
  · cases h; exact (calm_modGroup_sq _ _ _ _ _).trans (calm_modAcc _ _ _ _ (fun _ => rfl))
  · obtain ⟨s1, h1, rfl⟩ := Option.map_eq_some_iff.mp h
    exact (calm_enqueue _ _ _ _ h1).trans (calm_modAcc _ _ _ _ (fun _ => rfl))

theorem calm_admitOne (s t : State) (o : Op) (a : Access) (h : s.admitOne o a = some t) : Calm s t := by
  unfold State.admitOne at h
  split at h
  · cases h
  · split at h
    · cases h; exact calm_zeroLoop _ _ _ _ _
    · obtain ⟨r, -, hr⟩ := Option.bind_eq_some_iff.mp h
      unfold State.admitContrib at hr
      split at hr
      · cases hr
      · obtain ⟨s1, h1, rfl⟩ := Option.map_eq_some_iff.mp hr
        exact (calm_enqueue _ _ _ _ h1).trans ((calm_contribs _ _).trans (calm_modAcc _ _ _ _ (fun _ => rfl)))
    · obtain ⟨r, -, hr⟩ := Option.bind_eq_some_iff.mp h
      unfold State.admitScale at hr
      obtain ⟨s1, h1, rfl⟩ := Option.map_eq_some_iff.mp hr
      exact (calm_enqueue _ _ _ _ h1).trans ((calm_contribs _ _).trans (calm_modAcc _ _ _ _ (fun _ => rfl)))
    · split at h
      · exact calm_admitPlain _ _ _ _ _ h
      · unfold State.admitLog at h
        simp only at h
        split at h
        · split at h
          · cases h
          · cases h; exact (calm_modCore _ _ _).trans (calm_modAcc _ _ _ _ (fun _ => rfl))
        · cases h

theorem calm_joinList (o : Op) (l : List (Nat × Nat)) (s : State) : Calm s (joinList o l s) := by
  induction l generalizing s with
  | nil => exact Calm.refl s
  | cons x rest ih =>
    obtain ⟨i, j⟩ := x
    simp only [joinList]
    split
    · exact ih s
    · split
      · exact ih s
      · split
        · cases h : s.admitPlain o _ _ with
          | none => exact ih s
          | some t => exact (calm_admitPlain _ _ _ _ _ h).trans (ih t)
        · exact ih s

theorem calm_admitList (l : List (Nat × Nat)) (stop : Option Nat) (s : State) : Calm s (admitList l stop s) := by
  induction l generalizing stop s with
  | nil => exact Calm.refl s
  | cons x rest ih =>
    obtain ⟨i, j⟩ := x
    simp only [admitList]
    split
    · exact ih _ _
    · split
      · exact ih _ _
      · split
        · exact Calm.refl s
        · split
          · exact ih _ _
          · split
            · exact calm_joinList _ _ _
            · rename_i t ht
              split
              · exact calm_admitOne _ _ _ _ ht
              · exact (calm_admitOne _ _ _ _ ht).trans (ih _ _)

theorem calm_admitStores (s : State) (L T G : Nat) : Calm s (s.admitStores L T G) := by
  unfold State.admitStores
  simp only
  split
  · exact Calm.refl s
  · exact calm_admitList _ _ _

/-- Starting an operation on global memory. -/
theorem startMem_spec (s : State) (l : Lane) (o : Op) (plain : Bool) (accs : List Access) :
    (s.startMem l o plain accs).still = s.still ∧ (s.startMem l o plain accs).lanes = s.lanes ∧
    (s.startMem l o plain accs).ops.map Op.asked = s.ops.map Op.asked ++ [({ o with accs := accs } : Op).asked] := by
  unfold State.startMem
  simp only
  have h := calm_placeAll l.core l.launch (fun t => (s.team? l.launch l.team).map (fun x => (groupSlot x l.gnum, t))) plain accs
    { s with nextId := s.nextId + 1 }
  generalize placeAll l.core l.launch (fun t => (s.team? l.launch l.team).map (fun x => (groupSlot x l.gnum, t))) plain accs
    { s with nextId := s.nextId + 1 } = r at h
  obtain ⟨s1, bs⟩ := r
  obtain ⟨h1, h2⟩ := h
  simp only at h1 h2 ⊢
  have e1 := (calm_nextId s _).trans h1
  refine ⟨(calm_admitStores _ _ _ _).1.trans (Eq.trans rfl e1.1), (calm_admitStores _ _ _ _).2.1.trans e1.2.1,
    (calm_admitStores _ _ _ _).2.2.trans ?_⟩
  simp only [List.map_append, e1.2.2, List.map_cons, List.map_nil]
  simp only [Op.asked, h2]

end Sys2Proof.Machine
end

