-- ==== Sys2Proof/Laws/Checks.lean ====
section
/-!
SUPPORT. Laws/Checks.lean: what the checks of memory instructions find (`firstFail` and the lists of R194, R211 and R284),
and what a word that starts an operation does.
-/
namespace Sys2Proof.Machine

theorem firstFail_none (s : State) (l : Lane) (g : Group) (u : Bool) (cs : List (Thr → Option Trap)) :
    firstFail s l g u cs = none ↔ ∀ c ∈ cs, ∀ th ∈ l.execThreads u, c (viewOf s l g false th) = none := by
  simp only [firstFail, List.findSome?_eq_none_iff, Option.map_eq_none_iff]
  rfl

/-- The first check that fails, with every check before it passed by every thread, decides. -/
theorem firstFail_some (s : State) (l : Lane) (g : Group) (u : Bool) (pre post : List (Thr → Option Trap))
    (c : Thr → Option Trap) (th : Nat) (x : Trap)
    (hp : ∀ c ∈ pre, ∀ t ∈ l.execThreads u, c (viewOf s l g false t) = none)
    (hc : (l.execThreads u).findSome? (fun t => (c (viewOf s l g false t)).map (fun x => { x with thread := t })) =
      some { x with thread := th }) :
    firstFail s l g u (pre ++ c :: post) = some { x with thread := th } := by
  have h0 : firstFail s l g u pre = none := (firstFail_none ..).2 hp
  simp only [firstFail] at h0 ⊢
  rw [List.findSome?_append, h0]
  simp only [Option.none_or, List.findSome?_cons]
  have : (l.execThreads u).findSome? (fun t => (c { s := s, l := l, g := g, t := t }).map (fun x => { x with thread := t })) =
    some { x with thread := th } := hc
  rw [this]

/-- A check by `failIf`, at the first thread for which it fails. -/
theorem findSome_failIf (s : State) (l : Lane) (g : Group) (u : Bool) (bad : Thr → Bool) (code : Nat) (adr : Thr → Nat) (th : Nat)
    (h : (l.execThreads u).find? (fun t => bad (viewOf s l g false t)) = some th) :
    (l.execThreads u).findSome? (fun t => (failIf bad code adr (viewOf s l g false t)).map (fun x => { x with thread := t })) =
      some { code := code, addr := adr (viewOf s l g false th), thread := th } := by
  generalize l.execThreads u = ts at h
  induction ts with
  | nil => cases h
  | cons t ts ih =>
    by_cases hb : bad (viewOf s l g false t) = true
    · simp only [List.find?_cons, hb] at h
      cases h
      simp [failIf, hb]
    · simp only [Bool.not_eq_true] at hb
      simp only [List.find?_cons, hb] at h
      simp only [List.findSome?_cons, failIf, hb]
      simpa [failIf] using ih h

theorem failIf_none (bad : Thr → Bool) (code : Nat) (adr : Thr → Nat) (e : Thr) :
    failIf bad code adr e = none ↔ bad e = false := by
  unfold failIf
  split
  · rename_i h; simp [h]
  · rename_i h; simpa using h

theorem onPage_none (adr : Thr → Nat) (code : Thr → Tr → Option Nat) (e : Thr) :
    onPage adr code e = none ↔ ∀ t, e.present (adr e) = some t → code e t = none := by
  unfold onPage
  cases e.present (adr e) with
  | none => simp
  | some t => simp

/-- R211 finds nothing. -/
theorem dataChecks_none (u : Bool) (a : BitVec 7) (n : Nat) (k : AccKind) (s : State) (l : Lane) (g : Group)
    (h : ∀ th ∈ l.execThreads u, Accessible k n (viewOf s l g false th) (pairAt s l g a th)) :
    dataChecks u a n k [] s l g = none := by
  unfold dataChecks
  rw [firstFail_none]
  intro c hc th ht
  obtain ⟨h1, h2, h3⟩ := h th ht
  simp only [List.append_nil, List.cons_append, List.nil_append, chkPage, List.mem_cons, List.not_mem_nil, or_false] at hc
  have h1' : (viewOf s l g false th).adr a < 2 ^ 57 := h1
  have h2' : (viewOf s l g false th).adr a % n = 0 := h2
  rcases hc with rfl | rfl | rfl | rfl | rfl
  · rw [chkRange, failIf_none]; simpa using h1'
  · rw [chkAlign, failIf_none]; simpa using h2'
  · rw [onPage_none]; intro t hp; simp; exact (h3 t hp).1
  · rw [onPage_none]; intro t hp; simp; exact (h3 t hp).2.1
  · rw [onPage_none]; intro t hp
    have := (h3 t hp).2.2
    cases hs : t.scratch with
    | true => simp
    | false => simpa [hs] using this hs

/-- A word whose body starts an operation on global memory. -/
theorem startMem_started (i : Instr) (own : State → Lane → Group → Option Trap) (s : State) (l : Lane) (ls : List Lane) (g : Group)
    (o : State → Lane → Group → Op) (plain : Bool) (accs : State → Lane → Group → List Access) (h : Runs i s l ls g)
    (ho : own s l g = none) :
    ∃ t, runWord i own (fun s l g => s.startMem l (o s l g) plain (accs s l g)) s = .next t ∧
      Started s t l ls { o s l g with accs := accs s l g } := by
  refine ⟨_, runWord_next i own _ s l ls g h ho, ?_⟩
  have k := startMem_spec s l (o s l g) plain (accs s l g)
  have hl : (s.startMem l (o s l g) plain (accs s l g)).lanes = l :: ls := k.2.1.trans h.1
  unfold Started State.advance
  rw [hl]
  exact ⟨rfl, k.1, k.2.2⟩

/-- Two operations that ask for the same are started by the same step. -/
theorem Started.of_asked {s t : State} {l : Lane} {ls : List Lane} {o p : Op} (h : Started s t l ls o) (e : o.asked = p.asked) :
    Started s t l ls p := ⟨h.1, h.2.1, h.2.2.trans (by rw [e])⟩

theorem advance_of (b : State) (l : Lane) (ls : List Lane) (h : b.lanes = l :: ls) :
    b.advance = { b with lanes := l.after :: ls, freeCtr := b.freeCtr + 1 } := by
  unfold State.advance; rw [h]; rfl

theorem calm_prefRind (s : State) (e : Thr) (va k : Nat) : Calm s (s.prefRind e va k) := by
  unfold State.prefRind
  split
  · exact Calm.refl s
  · split
    · exact Calm.refl s
    · exact calm_requestFill _ _ _ _ _ _

theorem onPages_none (adr len : Thr → Nat) (skip : Thr → Bool) (code : Thr → Nat → Tr → Option Nat) (e : Thr)
    (h : skip e = false → ∀ p ∈ e.pages (adr e) (len e), code e p.1 p.2 = none) : onPages adr len skip code e = none := by
  unfold onPages
  split
  · rfl
  · rename_i hs
    simp only [List.findSome?_eq_none_iff, Option.map_eq_none_iff]
    exact h (by simpa using hs)

theorem chkPages_none (adr len : Thr → Nat) (skip : Thr → Bool) (k : AccKind) (e : Thr)
    (h : skip e = false → ∀ p ∈ e.pages (adr e) (len e), Permitted k e p.1 p.2) : ∀ c ∈ chkPages adr len skip k, c e = none := by
  intro c hc
  simp only [chkPages, List.mem_cons, List.not_mem_nil, or_false] at hc
  rcases hc with rfl | rfl | rfl
  · apply onPages_none; intro hs p hp; simp; exact (h hs p hp).1
  · apply onPages_none; intro hs p hp; simp; exact (h hs p hp).2.1
  · apply onPages_none; intro hs p hp
    have := (h hs p hp).2.2
    cases hs : p.2.scratch with
    | true => simp
    | false => simpa [hs] using this hs

theorem bits8 (w : Bool) : (if w then 8 else 4) = bitsOf w / 8 := by cases w <;> rfl

theorem red_started (i : Instr) (red : Bool) (k : Nat) (d a : BitVec 7) (b : Option (BitVec 7)) (u w : Bool) s l ls g
    (he : ∀ s, exec i s = redWord i red k d a b u w s) (h : Runs i s l ls g)
    (hk : red = true → (k = 1 ↔ b.isSome = true))
    (h1 : ∀ th ∈ l.execThreads u, pairAt s l g a th + bitsOf w / 8 ≤ 2 ^ 57 ∧ pairAt s l g a th % (bitsOf w / 8) = 0 ∧
      match (viewOf s l g false th).rangeOf (pairAt s l g a th) with
      | some r => red = true ∧ k < 2 ∧ r.fmt64 = w ∧ r.ord = decide (k = 1)
      | none => (red = true → k ≠ 1) ∧ ∀ p ∈ (viewOf s l g false th).pages (pairAt s l g a th) (bitsOf w / 8), Permitted .store (viewOf s l g false th) p.1 p.2) :
    ∃ t', exec i s = .next t' ∧ Started s t' l ls { opOf s l u .red with
      srcs := srcOf g d (wd w) ++ srcOf g a 2 ++ ((b.map (fun c => srcOf g c 1)).getD [])
      accs := (l.execThreads u).map (fun th => ({
        id := 0, thread := th, va := pairAt s l g a th, len := bitsOf w / 8
        data := bytesOf ((viewOf s l g false th).z.vw w d).toNat (bitsOf w / 8), opnd := ((b.map (viewOf s l g false th).y.v32).getD 0).toNat % 65536
        sk := match (viewOf s l g false th).rangeOf (pairAt s l g a th) with
          | some r => .contrib r.id
          | none => if red then .red k w else .redi k w } : Access)) } := by
  rw [he]
  obtain ⟨t', e1, e2⟩ := startMem_started i (fun s l g => firstFail s l g u
      ([ chkSpan (fun e => e.adr a) (fun _ => (if w then 8 else 4)),
         chkAlign (fun e => e.adr a) (if w then 8 else 4),
         failIf (fun e => match e.rangeOf (e.adr a) with
           | some r => !red || decide (2 ≤ k) || (w != r.fmt64) || (decide (k = 1) != r.ord)
           | none => red && decide (k = 1)) Code.accFormat (fun e => e.adr a) ] ++
        chkPages (fun e => e.adr a) (fun _ => (if w then 8 else 4)) (fun e => (e.rangeOf (e.adr a)).isSome) .store)) s l ls g
    (fun s l g => { l.start s .red u with srcs := srcOf g d (wd w) ++ srcOf g a 2 ++ ((b.map (fun c => srcOf g c 1)).getD []) }) true
    (fun s l g => accessesOf s l g u (fun e =>
          let x : Access := { id := 0, thread := 0, va := e.adr a, len := (if w then 8 else 4), data := bytesOf (e.z.vw w d).toNat (if w then 8 else 4), opnd := ((b.map e.y.v32).getD 0).toNat % 65536 }
          match e.rangeOf (e.adr a) with
          | some r => { x with
              tr := r.trs.find? (fun t => decide (t.page ≤ e.adr a) && decide (e.adr a < t.page + t.size)), sk := .contrib r.id }
          | none => { x with sk := if red then .red k w else .redi k w })) h (by
    rw [firstFail_none]
    intro c hc th ht
    obtain ⟨k1, k2, k3⟩ := h1 th ht
    rw [← bits8] at k1 k2
    simp only [List.mem_append, List.mem_cons, List.not_mem_nil, or_false] at hc
    have ha : (viewOf s l g false th).adr a = pairAt s l g a th := rfl
    have hn : 0 < (if w then 8 else 4) := by cases w <;> decide
    rcases hc with (rfl | rfl | rfl) | hc
    · rw [chkSpan, failIf_none, ha]
      simp only [Bool.or_eq_false_iff, decide_eq_false_iff_not]
      omega
    · rw [chkAlign, failIf_none, ha]; simp only [decide_eq_false_iff_not]; omega
    · rw [failIf_none, ha]
      cases hr : (viewOf s l g false th).rangeOf (pairAt s l g a th) with
      | none => rw [hr] at k3; cases red <;> simp_all
      | some r => rw [hr] at k3; obtain ⟨z1, z2, z3, z4⟩ := k3; simp [z1, z3, z4]; omega
    · refine chkPages_none _ _ _ _ _ ?_ c hc
      intro hs
      rw [ha] at hs ⊢
      cases hr : (viewOf s l g false th).rangeOf (pairAt s l g a th) with
      | none => rw [hr] at k3; have := k3.2; rw [← bits8] at this; exact this
      | some r => rw [hr] at hs; simp at hs)
  refine ⟨t', e1, e2.of_asked ?_⟩
  simp only [Op.asked, List.map_map, accessesOf]
  congr 1
  · apply List.map_congr_left
    intro th ht
    simp only [Function.comp, Access.asked, bits8]
    have ha : (thr s l g th).adr a = pairAt s l g a th := rfl
    rw [ha]
    have hv : thr s l g th = viewOf s l g false th := rfl
    rw [hv]
    cases (viewOf s l g false th).rangeOf (pairAt s l g a th) <;> rfl

theorem atom_started (i : Instr) (k : Nat) (d a : BitVec 7) (p : Bool) (o : BitVec 2) (t : BitVec 3) (u : Bool) s l ls g
    (he : ∀ s, exec i s = atomWord i k d a p o t u s) (h : Runs i s l ls g) 
    (h1 : ∀ th ∈ l.execThreads u, Accessible .atomic (4 * atomRegs t) (viewOf s l g false th) (if p then numOfWords (((viewOf s l g false th).vN 4 a).take 2) else pairAt s l g a th))
    (h2 : p = true → ∀ th ∈ l.execThreads u, ((((viewOf s l g false th).vN 4 a).getD 2 0).toNat % 128 < 96 ∧ s.absentCode (dieOfCore (victimCore l.core (((viewOf s l g false th).vN 4 a).getD 2 0))) = none)) :
    ∃ t', exec i s = .next t' ∧ Started s t' l ls { opOf s l u (.atom k t.toNat) with
      dst := dstOf g d (atomRegs t), srcs := srcOf g d (atomGroup k t) ++ srcOf g a (if p then 4 else 2)
      acq := o.getLsbD 0, rel := o.getLsbD 1
      accs := (l.execThreads u).map (fun th => ({
        id := 0, thread := th, va := (if p then numOfWords (((viewOf s l g false th).vN 4 a).take 2) else pairAt s l g a th), len := 4 * atomRegs t, opnd := numOfWords (((viewOf s l g false th).z.vN (atomGroup k t) d).take (atomRegs t))
        opnd2 := numOfWords (((viewOf s l g false th).z.vN (atomGroup k t) d).drop (atomRegs t)), victim := if p then some (victimCore l.core (((viewOf s l g false th).vN 4 a).getD 2 0)) else none } : Access)) } := by
  rw [he]
  exact startMem_started i (fun s l g => firstFail s l g u ([chkRange (fun (e : Thr) => if p then numOfWords ((e.vN 4 a).take 2) else e.adr a), chkAlign (fun (e : Thr) => if p then numOfWords ((e.vN 4 a).take 2) else e.adr a) (4 * atomRegs t)] ++ (if p then promChecks a else []) ++
      chkPage (fun (e : Thr) => if p then numOfWords ((e.vN 4 a).take 2) else e.adr a) .atomic)) s l ls g (fun s l g => { l.start s (.atom k t.toNat) u with
          dst := dstOf g d (atomRegs t), srcs := srcOf g d (atomGroup k t) ++ srcOf g a (if p then 4 else 2)
          acq := o.getLsbD 0, rel := o.getLsbD 1 }) false
       (fun s l g => accessesOf s l g u (fun e =>
          { id := 0, thread := 0, va := if p then numOfWords ((e.vN 4 a).take 2) else e.adr a, len := 4 * atomRegs t, opnd := numOfWords ((e.z.vN (atomGroup k t) d).take (atomRegs t)), opnd2 := numOfWords ((e.z.vN (atomGroup k t) d).drop (atomRegs t))
            victim := if p then some (victimCore l.core ((e.vN 4 a).getD 2 0)) else none })) h (by
    rw [firstFail_none]
    intro c hc th ht
    obtain ⟨k1, k2, k3⟩ := h1 th ht
    have hs := fun (hp : p = true) => h2 hp th ht
    simp only [List.mem_append, List.mem_cons, List.not_mem_nil, or_false] at hc
    rcases hc with ((rfl | rfl) | hc) | hc
    · rw [chkRange, failIf_none]; exact decide_eq_false (Nat.not_le.mpr k1)
    · rw [chkAlign, failIf_none]; exact decide_eq_false (fun z => z k2)
    · cases p with
      | false => simp at hc
      | true =>
        simp only [if_true, promChecks, List.mem_cons, List.not_mem_nil, or_false] at hc
        rcases hc with rfl | rfl
        · rw [failIf_none]; have := (hs rfl).1; simpa using this
        · simp only [Option.map_eq_none_iff]; exact (hs rfl).2
    · simp only [chkPage, List.mem_cons, List.not_mem_nil, or_false] at hc
      rcases hc with rfl | rfl | rfl
      · rw [onPage_none]; intro t hp; simp; exact (k3 t hp).1
      · rw [onPage_none]; intro t hp; simp; exact (k3 t hp).2.1
      · rw [onPage_none]; intro t hp
        have := (k3 t hp).2.2
        cases hs : t.scratch with
        | true => simp
        | false => simpa [hs] using this hs)

end Sys2Proof.Machine
end

