-- ==== Sys2Proof/Laws/Local.lean ====
section
/-!
SUPPORT. Laws/Local.lean: what performing a group's local-store accesses and barrier operations leaves unchanged.
-/
namespace Sys2Proof.Machine

/-- From s to t nothing beyond the core, and no clause, has changed. -/
def Near (s t : State) : Prop := t.beyond = s.beyond ∧ t.lanes = s.lanes

theorem Near.refl (s : State) : Near s s := ⟨rfl, rfl⟩

theorem Near.trans {s t u : State} (h : Near s t) (k : Near t u) : Near s u := ⟨k.1.trans h.1, k.2.trans h.2⟩

theorem near_modTeam (s : State) (L T : Nat) (f : Team → Team) : Near s (s.modTeam L T f) := ⟨rfl, rfl⟩
theorem near_modGroup (s : State) (L T G : Nat) (f : Group → Group) : Near s (s.modGroup L T G f) := ⟨rfl, rfl⟩
theorem near_modOp (s : State) (i : Nat) (f : Op → Op) : Near s (s.modOp i f) := ⟨rfl, rfl⟩
theorem near_modAcc (s : State) (i a : Nat) (f : Access → Access) : Near s (s.modAcc i a f) := ⟨rfl, rfl⟩
theorem near_modDie (s : State) (d : Nat) (f : Die → Die) : Near s (s.modDie d f) := ⟨rfl, rfl⟩
theorem near_groups (s : State) (gs : List Group) : Near s { s with groups := gs } := ⟨rfl, rfl⟩

theorem near_modCore (s : State) (c : Nat) (f : Core → Core) : Near s (s.modCore c f) := by
  unfold State.modCore State.setCore
  split <;> exact ⟨rfl, rfl⟩

theorem near_foldl {α : Type} (f : State → α → State) (h : ∀ s x, Near s (f s x)) (xs : List α) (s : State) :
    Near s (xs.foldl f s) := by
  induction xs generalizing s with
  | nil => exact Near.refl s
  | cons x xs ih => exact (h s x).trans (ih _)

theorem near_acquireL1 (s : State) (c : Nat) : Near s (s.acquireL1 c) :=
  Near.trans (near_modCore s c _) ⟨rfl, rfl⟩

theorem near_raiseWait (s : State) (g : Group) (code addr : Nat) (detail : Word) (ext : List (Nat × Nat × Nat × Nat × Word)) :
    Near s (s.raiseWait g code addr detail ext) := ⟨rfl, rfl⟩

theorem near_raiseLaunch (s : State) (L T code cls addr : Nat) (detail : Word) : Near s (s.raiseLaunch L T code cls addr detail) :=
  ⟨rfl, rfl⟩

theorem near_stirBar (s : State) (L T off : Nat) : Near s (s.stirBar L T off) := ⟨rfl, rfl⟩

theorem near_ringTouch (s : State) (L T off n : Nat) : Near s (s.ringTouch L T off n) := ⟨rfl, rfl⟩

theorem near_ringSeen (s : State) (L T off : Nat) (old : Team) : Near s (s.ringSeen L T off old) := by
  unfold State.ringSeen
  split
  · exact Near.refl s
  · split
    · exact Near.refl s
    · exact near_ringTouch _ _ _ _ _

theorem near_useBar (s : State) (L T off : Nat) : Near s (s.useBar L T off) := by
  unfold State.useBar
  simp only
  split <;> exact ⟨rfl, rfl⟩

theorem near_forgetBsyncs (s : State) (L T off : Nat) : Near s (s.forgetBsyncs L T off) := ⟨rfl, rfl⟩

theorem near_releaseWaiters (s : State) (L T off : Nat) (r : Bool) (p : Nat) : Near s (s.releaseWaiters L T off r p) := by
  unfold State.releaseWaiters
  split
  · exact Near.refl s
  · simp only
    refine Near.trans ?_ (near_groups _ _)
    split
    · exact near_acquireL1 _ _
    · exact Near.refl s

theorem near_invalidateWaiters (s : State) (L T off : Nat) : Near s (s.invalidateWaiters L T off) :=
  near_foldl _ (fun s g => near_raiseWait s g _ _ _ _) _ s

theorem near_dropEvent (s : State) (L T off : Nat) (e : BarEvent) : Near s (s.dropEvent L T off e) := by
  unfold State.dropEvent
  split <;> first | exact near_raiseLaunch _ _ _ _ _ _ _ | exact Near.refl s

theorem near_barEvent (s : State) (L T off : Nat) (e : BarEvent) : Near s (s.barEvent L T off e) := by
  unfold State.barEvent
  simp only
  split
  · exact Near.refl s
  · split
    · exact (near_useBar _ _ _ _).trans (near_dropEvent _ _ _ _ _)
    · refine (near_useBar s L T off).trans (Near.trans ?_ (near_ringSeen _ _ _ _ _))
      split
      · exact (near_modTeam _ _ _ _).trans ((near_modTeam _ _ _ _).trans (near_releaseWaiters _ _ _ _ _ _))
      · exact near_modTeam _ _ _ _

theorem near_barInit (s : State) (L T off : Nat) (v : DWord) : Near s (s.barInit L T off v) :=
  (near_invalidateWaiters s L T off).trans ((near_stirBar _ L T off).trans ((near_forgetBsyncs _ L T off).trans
    ((near_modTeam _ L T _).trans (near_ringTouch _ L T off 32))))

theorem near_barInval (s : State) (L T off : Nat) : Near s (s.barInval L T off) := by
  unfold State.barInval
  simp only
  split
  · exact Near.refl s
  · split
    · exact (near_useBar _ _ _ _).trans ((near_modTeam _ _ _ _).trans ((near_invalidateWaiters _ _ _ _).trans
        ((near_forgetBsyncs _ _ _ _).trans (near_ringSeen _ _ _ _ _))))
    · exact near_useBar _ _ _ _

theorem near_waitReturns (s : State) (g : Group) (off : Nat) (r : Bool) : Near s (s.waitReturns g off r) := by
  unfold State.waitReturns
  simp only
  split
  · exact near_modGroup _ _ _ _ _
  · split
    · exact (near_modGroup _ _ _ _ _).trans (near_acquireL1 _ _)
    · exact near_modGroup _ _ _ _ _

theorem near_applyBwait (s : State) (g : Group) (addr : Nat) (r : Bool) (p : Nat) : Near s (s.applyBwait g addr r p) := by
  unfold State.applyBwait
  simp only
  split
  · exact Near.refl s
  · split
    · exact (near_useBar _ _ _ _).trans (near_raiseWait _ _ _ _ _ _)
    · split
      · exact (near_useBar _ _ _ _).trans (near_waitReturns _ _ _ _)
      · exact (near_useBar _ _ _ _).trans (near_modGroup _ _ _ _ _)

theorem near_applyBsync (s : State) (g : Group) (addr n t : Nat) (m : Word) : Near s (s.applyBsync g addr n t m) := by
  unfold State.applyBsync
  simp only
  split
  · exact Near.refl s
  · split
    · exact (near_useBar _ _ _ _).trans (near_raiseWait _ _ _ _ _ _)
    · exact (near_useBar _ _ _ _).trans ((near_modGroup _ _ _ _ _).trans (near_barEvent _ _ _ _ _))

theorem near_stlRings (s : State) (old : Team) (L T off : Nat) (bs : List Byte) (w : List (Nat × Nat)) (b : Bool) :
    Near s (s.stlRings old L T off bs w b) := ⟨rfl, rfl⟩

theorem near_stlWrite (s : State) (L T off : Nat) (bs : List Byte) (w : List (Nat × Nat)) : Near s (s.stlWrite L T off bs w) := by
  unfold State.stlWrite
  split
  · exact Near.refl s
  · simp only
    refine Near.trans ?_ (near_stlRings _ _ _ _ _ _ _ _)
    split <;> exact near_modTeam _ _ _ _

theorem near_landLocal (s : State) (L T off : Nat) (bs : List Byte) : Near s (s.landLocal L T off bs) := by
  unfold State.landLocal
  split
  · exact Near.refl s
  · exact (near_modTeam _ _ _ _).trans (near_stlRings _ _ _ _ _ _ _ _)

theorem near_performLocal (s : State) (g : Group) (e : LocalAcc) : Near s (s.performLocal g e) := by
  unfold State.performLocal
  simp only
  split
  · exact near_modAcc _ _ _ _
  · exact near_stlWrite _ _ _ _ _ _
  · exact near_barInit _ _ _ _ _
  · exact near_barInval _ _ _ _
  · split
    · split
      · exact Near.refl s
      · exact near_barEvent _ _ _ _ _
    · exact near_barEvent _ _ _ _ _
  · exact near_barEvent _ _ _ _ _
  · exact near_applyBwait _ _ _ _ _
  · exact near_applyBsync _ _ _ _ _ _

theorem near_drainList (L T G : Nat) (r : Bool) (l behind : List LocalAcc) (s : State) : Near s (drainList L T G r l behind s) := by
  induction l generalizing behind s with
  | nil => exact near_modGroup _ _ _ _ _
  | cons e rest ih =>
    simp only [drainList]
    split
    · exact Near.refl s
    · split
      · refine Near.trans ?_ (ih _ _)
        split
        · exact (near_performLocal _ _ _).trans (near_modOp _ _ _)
        · exact near_performLocal _ _ _
      · exact ih _ _

/-- Performing a group's local-store accesses. -/
theorem near_drainLocal (s : State) (L T G : Nat) (r : Bool) : Near s (s.drainLocal L T G r) := by
  unfold State.drainLocal
  split
  · exact Near.refl s
  · split
    · exact Near.refl s
    · exact near_drainList _ _ _ _ _ _ s

/-- Entries that may not perform yet stay, in their order. -/
theorem drainList_stuck (L T G : Nat) (r : Bool) (l behind : List LocalAcc) (s : State) (g : Group) (hg : s.group? L T G = some g)
    (h : ∀ e ∈ l, ∀ b, s.localReady g b e r = false) :
    drainList L T G r l behind s = s.modGroup L T G (fun g => { g with stream := behind ++ l }) := by
  induction l generalizing behind with
  | nil => simp [drainList]
  | cons e rest ih =>
    simp only [drainList, hg]
    rw [if_neg (by simp [h e (by simp) behind]), ih _ (fun e he => h e (by simp [he]))]
    simp

end Sys2Proof.Machine
end

