-- ==== Sys2Proof/Laws/Memory.lean ====
section
/-!
SUPPORT. Laws/Memory.lean: every operation over memory keeps its canonical form.
-/
namespace Sys2Proof.Machine

/-- From s to t memory's canonical form is kept. -/
def Keeps (s t : State) : Prop := Memory.wf s.mem = true → Memory.wf t.mem = true

theorem Keeps.refl (s : State) : Keeps s s := id
theorem Keeps.trans {s t u : State} (h : Keeps s t) (k : Keeps t u) : Keeps s u := fun w => k (h w)
theorem Keeps.of_mem {s t : State} (h : t.mem = s.mem) : Keeps s t := fun w => h ▸ w

/-- A run of operations that each keep it. -/
theorem keeps_foldl {α : Type} (f : State → α → State) (h : ∀ s x, Keeps s (f s x)) (xs : List α) (s : State) : Keeps s (xs.foldl f s) := by
  induction xs generalizing s with
  | nil => exact Keeps.refl s
  | cons x xs ih => exact (h s x).trans (ih (f s x))

/-- Keeping some of the bytes. -/
theorem keeps_keep {s t : State} (p : Nat → Bool) (h : t.mem = s.mem.keep p) : Keeps s t := fun w => by
  rw [h]; exact Cells.wf_keep p w

/-! ### Bytes at rest, and the rind -/

theorem keeps_setHbm (s : State) (pa : Nat) (bs : List Byte) : Keeps s (s.setHbm pa bs) :=
  fun w => Cells.wf_foldl (fun x : Byte × Nat => pa + x.2) (fun x => x.1) bs.zipIdx w

theorem keeps_writeBack (s : State) (b : Block) : Keeps s (s.writeBack b) := keeps_foldl _ (fun s _ => keeps_setHbm s _ _) _ _

theorem keeps_dropBlocks (s : State) (d : Nat) (p : Block → Bool) : Keeps s (s.dropBlocks d p) :=
  (keeps_foldl _ keeps_writeBack _ s).trans (Keeps.of_mem rfl)

theorem keeps_evictFor (d f : Nat) (ok : State → Bool) (n : Nat) (s : State) : Keeps s (evictFor d f ok n s) := by
  induction n generalizing s with
  | zero => exact Keeps.refl s
  | succ n ih =>
    simp only [evictFor]
    split
    · exact Keeps.refl s
    · split
      · exact Keeps.refl s
      · exact (keeps_dropBlocks s _ _).trans (ih _)

theorem keeps_install (s : State) (d frame lo hi grain : Nat) (r : Bool) : Keeps s (s.install d frame lo hi grain r) := by
  unfold State.install
  simp only
  split
  · exact keeps_evictFor _ _ _ _ s
  · exact (keeps_evictFor _ _ _ _ s).trans (Keeps.of_mem rfl)

theorem keeps_matchGrain (s : State) (d frame grain : Nat) : Keeps s (s.matchGrain d frame grain) := keeps_dropBlocks s _ _

theorem keeps_spoil (s : State) (pa n : Nat) : Keeps s (s.spoil pa n) := by
  refine keeps_foldl _ (fun s i => ?_) _ s
  split
  · exact Keeps.refl s
  · exact Keeps.of_mem rfl

theorem keeps_watchTest (s : State) (pa n : Nat) : Keeps s (s.watchTest pa n) := by
  unfold State.watchTest
  simp only
  split
  · exact Keeps.refl s
  · exact Keeps.of_mem rfl

theorem keeps_putBlock (s : State) (pa grain : Nat) (bs : List Byte) : Keeps s (s.putBlock pa grain bs) := Keeps.of_mem rfl

theorem keeps_useGrain (s : State) (pa grain : Nat) : Keeps s (s.useGrain pa grain) := by
  unfold State.useGrain
  simp only
  split
  · exact Keeps.refl s
  · refine (keeps_matchGrain s (dieOfPa pa) (pa / 4096) grain).trans ?_
    split
    · exact Keeps.of_mem rfl
    · split
      · exact Keeps.refl _
      · exact keeps_install _ _ _ _ _ _ _

theorem keeps_setOutside (s : State) (pa : Nat) (bs : List Byte) : Keeps s (s.setOutside pa bs) :=
  fun w => Cells.wf_foldl (fun x : Byte × Nat => pa + x.2) (fun x => x.1) _ w

/-- Writing bytes of a grain at their home. -/
theorem keeps_homeWrite (s : State) (pa grain : Nat) (bs : List Byte) : Keeps s (s.homeWrite pa grain bs) := by
  unfold State.homeWrite
  simp only
  refine Keeps.trans (t := _) ((keeps_useGrain s pa grain).trans ?_) ((keeps_spoil _ _ _).trans (keeps_watchTest _ _ _))
  split
  · exact keeps_putBlock _ _ _ _
  · split
    · exact keeps_setHbm _ _ _
    · exact keeps_setOutside _ _ _

theorem keeps_homeWriteAll (s : State) (pa grain : Nat) (bs : List Byte) : Keeps s (s.homeWriteAll pa grain bs) := by
  unfold State.homeWriteAll
  simp only
  split
  · split
    · exact Keeps.refl s
    · exact keeps_homeWrite s _ _ _
  · exact (keeps_homeWrite s _ _ _).trans (keeps_foldl _ (fun s i => keeps_homeWrite s _ _ _) _ _)

theorem keeps_completeFill (s : State) (f : Fill) : Keeps s (s.completeFill f) := by
  unfold State.completeFill
  simp only
  refine (keeps_matchGrain s f.die f.frame f.grain).trans ?_
  split
  · exact Keeps.of_mem rfl
  · split
    · exact Keeps.of_mem rfl
    · exact (keeps_install _ _ _ _ _ _ _).trans (Keeps.of_mem rfl)

/-! ### Pages -/

theorem keeps_zeroFrame (s : State) (pa size : Nat) : Keeps s (s.zeroFrame pa size) := fun w => by
  simp only [State.zeroFrame, State.modDie_mem]
  exact Cells.wf_keep _ w

theorem keeps_moveFrame (s : State) (pa pa' size : Nat) : Keeps s (s.moveFrame pa pa' size) :=
  fun w => Cells.wf_foldl (fun e : Nat × Byte => e.1 - pa + pa') (fun e => e.2) _ (keeps_zeroFrame s pa' size w)

/-! ### The command engine and the host -/

theorem keeps_cmdWrite (s : State) (pa : Nat) (bs : List Byte) : Keeps s (s.cmdWrite pa bs) := by
  unfold State.cmdWrite
  split
  · exact Keeps.refl s
  · exact keeps_homeWriteAll s _ _ _

theorem keeps_haltQueue (s : State) (q err ix : Nat) : Keeps s (s.haltQueue q err ix) := by
  unfold State.haltQueue
  simp only
  split
  · exact Keeps.refl s
  · exact (Keeps.of_mem (t := s.dropWait q) rfl).trans ((keeps_cmdWrite _ _ _).trans (Keeps.of_mem rfl))

theorem keeps_putQueue (s : State) (q : Nat) (f : Queue → Queue) : Keeps s (s.putQueue q f) := by
  unfold State.putQueue
  split <;> exact Keeps.of_mem rfl

theorem keeps_pass (s : State) (q : Nat) : Keeps s (s.pass q) := (keeps_putQueue s _ _).trans (keeps_cmdWrite _ _ _)

theorem keeps_logEvent (s : State) (d cls unit where_ launch : Nat) : Keeps s (s.logEvent d cls unit where_ launch) :=
  (keeps_cmdWrite s _ _).trans (keeps_cmdWrite _ _ _)

theorem keeps_writeLeaf (s : State) (isl L page size : Nat) (leaf : DWord) : Keeps s (s.writeLeaf isl L page size leaf) := by
  refine keeps_foldl _ (fun s d => ?_) _ s
  split
  · exact Keeps.refl s
  · exact keeps_cmdWrite s _ _

theorem keeps_dropRange (s : State) (r : Range) (v : Bool) (h : (s.useUnits r false).mem = s.mem) : Keeps s (s.dropRange r v) := by
  unfold State.dropRange
  simp only
  refine (Keeps.of_mem ?_).trans (keeps_foldl _ (fun s i => ?_) _ _)
  · split
    · exact h
    · rfl
  · split
    · exact Keeps.refl s
    · exact keeps_homeWrite s _ _ _

theorem keeps_hostHbm (s : State) (pa : Nat) (bs : List Byte) : Keeps s (s.hostHbm pa bs) :=
  (keeps_setHbm s pa bs).trans (keeps_foldl _ (fun s _ => (keeps_setHbm s _ _).trans (keeps_putBlock _ _ _ _)) _ _)

theorem keeps_invalidateL1 (s : State) (c : Nat) (p : Nat → Bool → Bool) : Keeps s (s.invalidateL1 c p) := by
  refine Keeps.of_mem ?_
  unfold State.invalidateL1 State.modCore State.setCore
  split <;> rfl

theorem keeps_dropSectors (s : State) (d pa size : Nat) : Keeps s (s.dropSectors d pa size) :=
  keeps_foldl _ (fun s c => keeps_invalidateL1 s c _) _ s

theorem keeps_relocate (s : State) : Keeps s s.relocate :=
  ((keeps_dropSectors s 58 0x001D803FF0000000 (2 ^ 28)).trans (keeps_dropSectors _ 59 0x001D803FF0000000 (2 ^ 28))).trans
    (keeps_keep (fun a => !(decide (0x001D803FF0000000 ≤ a) && decide (a < 0x001D803FF0000000 + 2 ^ 28))) rfl)

/-! ### Reset -/

/-- Memory after reset is in canonical form. -/
theorem wf_reset : Memory.wf State.reset.mem = true := rfl

/-- The rind after reset agrees with memory: it holds nothing. -/
theorem reset_blocks : ∀ x ∈ State.reset.dies, x.blocks = [] := by
  intro x hx
  obtain ⟨d, _, rfl⟩ := List.mem_map.1 hx
  rfl

end Sys2Proof.Machine
end

