-- ==== Sys2Proof/Tests/Slice0.lean ====
section
/-!
SUPPORT. Tests/Slice0.lean: the well-formedness smoke, decodings of words that the manual works out, single steps on small
states, and for every statement a state and operands that meet its hypotheses (`wit_`).
-/
namespace Sys2Proof.Tests
set_option Elab.async false
open Sys2Proof.Machine

/-! ### Small states -/

/-- The panel after reset with every die present. -/
def panel : State := { State.reset with dieMask := BitVec.allOnes 60 }

/-- The word of an instruction. -/
def wordOf (i : Instr) : Word := (encode i).getD 0

/-- The bench's group: 32 active threads, 32 register blocks, the registers named (in rising order) the same in every
thread. -/
def grp (rs : List (Nat × Word)) : Group :=
  { launch := 1, team := 0, gnum := 0, thr := List.replicate 32 { pc := 0 }, nblk := 32
    regs := rs.flatMap (fun p => (List.range 32).map (fun t => (32 * p.1 + t, p.2))) }

/-- The bench's clause: one word and seven zero literals, all threads issuing. -/
def lane (i : Instr) : Lane :=
  { core := 0, launch := 1, team := 0, gnum := 0, claddr := 0, words := [wordOf i], lits := List.replicate 7 0
    issuing := BitVec.allOnes 32 }

/-- The panel with one launch, team and group on core 0, and the instruction next. -/
def bench (rs : List (Nat × Word)) (i : Instr) : State :=
  { panel.withFetchWord 32 (wordOf i).toNat with groups := [grp rs] }

/-- The bench without a clause. -/
def idle : State := { bench [] (.nop 0 0 0 false) with lanes := [] }

/-- The bench's team, with its 2048 bytes of local store, 32 tiles, 8 rings and 8 metadata sets. -/
def team : Team :=
  { launch := 1, idx := 0, core := 0, ngrp := 1, t := 511, budget := [511, 0, 0, 0], held := [32, 0, 0, 0], nloc := 2048
    ntile := 32, nring := 8, nmeta := 8, tiles := List.replicate 32 {}, rings := List.replicate 8 {} }

/-- The instruction is next on the bench and steps 1 to 5 of R45 find nothing against it. -/
def runs (i : Instr) : Bool :=
  let s := bench [] i
  (encode i).isSome && decodeWord (wordOf i) == i && s.lanes == [lane i] && s.laneGroup? (lane i) == some (grp []) &&
    checkWord i s (lane i) (grp []) == none

theorem runs_meets {i : Instr} (h : runs i = true) : ∃ s l ls g, Runs i s l ls g := by
  simp only [runs, Bool.and_eq_true, beq_iff_eq] at h
  exact ⟨bench [] i, lane i, [], grp [], h.1.1.2, h.1.2, h.2⟩

theorem all_meet {is : List Instr} (h : is.all runs = true) : ∀ i ∈ is, ∃ s l ls g, Runs i s l ls g :=
  fun i hi => runs_meets (List.all_eq_true.mp h i hi)

/-- A condition of the next state, where there is one. -/
def after (o : Out) (c : State → Bool) : Bool :=
  match o with
  | .next t => c t
  | _ => false

/-- Register r of thread t of the bench's group. -/
def reg (s : State) (r t : Nat) : Word := ((s.group? 1 0 0).map (fun g => g.at_ r t)).getD 0

/-! ### Well-formed instructions -/

/-- What is no instruction word is refused: an engine step, a modifier value that no encoding has (type 1 of a tree
reduction), and the name of an unassigned word put on an assigned one. -/
theorem test_wf_engine : Instr.wellFormed .clauseEnd = false := by decide +kernel
theorem test_wf_modifier : Instr.wellFormed (.redg 16 8 0 1) = false := by decide +kernel
theorem test_wf_illop : Instr.wellFormed (.illop 0x0C181801) = false := by decide +kernel
theorem test_wf_accepts : Instr.wellFormed (.iaddImm 6 6 3 false false) = true := by decide +kernel
theorem test_wf_unassigned : Instr.wellFormed (.illop 0x000000EF) = true := by decide +kernel

/-! ### Decoding: words that the manual works out (02_encoding, 05_group_instructions and the engines' sections) -/

theorem test_decode_iadd : decodeWord 0x0C181801 = .iaddImm 6 6 3 false false := by decide +kernel
theorem test_decode_isub : decodeWord 0x0E1C0805 = .isubImm 7 7 1 false false := by decide +kernel
theorem test_decode_brnz : decodeWord 0x001C0206 = .brnzImm 0 7 0 false := by decide +kernel
theorem test_decode_ffma : decodeWord 0x080830F4 = .ffma 4 2 6 false 1 0 := by decide +kernel
theorem test_decode_ld_acq : decodeWord 0x0828A260 = .ld 4 10 1 4 false := by decide +kernel
theorem test_decode_ld_span : decodeWord 0x08292261 = .ldSpan 4 10 2 4 false := by decide +kernel
theorem test_decode_st_rel : decodeWord 0x0C20C262 = .st 6 8 true 8 false := by decide +kernel
theorem test_decode_stl_rel : decodeWord 0x0624A264 = .stl 3 9 true 4 false := by decide +kernel
theorem test_decode_pref : decodeWord 0x00298A65 = .pref 0 10 3 1 false := by decide +kernel
theorem test_decode_pqry : decodeWord 0x08280266 = .pqry 4 10 0 false := by decide +kernel
theorem test_decode_atom : decodeWord 0x0828C279 = .atomIncw 4 10 false 3 0 false := by decide +kernel
theorem test_decode_sar : decodeWord 0x1029F857 = .sarImm 8 10 63 false true := by decide +kernel
theorem test_decode_icmp : decodeWord 0x020B2099 = .icmpLtBImm 1 2 100 false false := by decide +kernel
theorem test_decode_cvt : decodeWord 0x0610C1C5 = .cvt 3 4 false 1 8 false 5 := by decide +kernel
theorem test_decode_redg : decodeWord 0x040C49F8 = .redg 2 3 0 9 := by decide +kernel
theorem test_decode_call : decodeWord 0x14006209 = .callImm 10 0 12 false := by decide +kernel
theorem test_decode_rquota : decodeWord 0x01E02217 = .rquota 0 120 1 0 false := by decide +kernel
theorem test_decode_fetcht : decodeWord 0x28000618 = .fetcht 20 0 0 true := by decide +kernel
theorem test_decode_movs64 : decodeWord 0x0C00821C = .movs64 6 0 0x10 false := by decide +kernel
theorem test_decode_accopen : decodeWord 0x102862E0 = .accopen 8 10 12 false := by decide +kernel
theorem test_decode_red_ord : decodeWord 0x082862E6 = .redOrd 4 10 12 false false := by decide +kernel
theorem test_decode_cspan : decodeWord 0x06282302 = .cspan 3 10 false 4 false := by decide +kernel
theorem test_decode_binit : decodeWord 0x34700320 = .binit 26 28 0 false := by decide +kernel
theorem test_decode_barv : decodeWord 0x00640F22 = .barvImm 0 25 1 true := by decide +kernel
theorem test_decode_bwait : decodeWord 0x0070C324 = .bwait 0 28 24 false := by decide +kernel
theorem test_decode_btest : decodeWord 0x1270C325 = .btest 9 28 24 false := by decide +kernel
theorem test_decode_bsync : decodeWord 0x0073C327 = .bsync 0 28 120 false := by decide +kernel
theorem test_decode_cqry : decodeWord 0x0A001340 = .cqry 5 0 2 false := by decide +kernel
theorem test_decode_tld : decodeWord 0x00280752 = .tld 0 10 0 true := by decide +kernel
theorem test_decode_tld_ob : decodeWord 0x02240353 = .tldOb 1 9 0 false := by decide +kernel
theorem test_decode_tst : decodeWord 0x04300354 = .tst 2 12 0 false := by decide +kernel
theorem test_decode_ldmeta : decodeWord 0x0428035C = .ldmeta 2 10 0 false := by decide +kernel
theorem test_decode_movts : decodeWord 0x06140350 = .movts 3 5 0 false := by decide +kernel
theorem test_decode_tring : decodeWord 0x02200358 = .tring 1 8 0 false := by decide +kernel
theorem test_decode_mmai : decodeWord 0x0050075A = .mmai 0 20 0 true := by decide +kernel
theorem test_decode_mmaq : decodeWord 0x1200035B = .mmaq 9 0 0 false := by decide +kernel
theorem test_decode_put : decodeWord 0x08241390 = .put 4 9 2 false := by decide +kernel
theorem test_decode_mput : decodeWord 0x20680793 = .mput 16 26 0 true := by decide +kernel
theorem test_decode_ratom : decodeWord 0x10010394 = .ratom 8 0 2 0 false := by decide +kernel
theorem test_decode_rred : decodeWord 0x20001795 = .rred 16 0 true false true := by decide +kernel
theorem test_decode_gbarv : decodeWord 0x00640396 = .gbarv 0 25 0 false := by decide +kernel
theorem test_decode_fqry : decodeWord 0x0A021397 = .fqry 5 0 0x42 false := by decide +kernel

/-- A word whose OP is not assigned is no instruction, and a first step gives the table's interface what the decoder reads
(the third is the opcode table's row of ILLOP). -/
theorem test_decode_unassigned : decodeWord 0x000000EF = .illop 0x000000EF := by decide +kernel
theorem test_table_word : decodeTableWord 32 0x0C181801 = some (.iaddImm 6 6 3 false false) := by decide +kernel


/-! ### Single steps: the expected values are the manual's own examples, or worked by hand from the rule named -/

/-- One step of the instruction with the registers rs leaves v in register r of thread 0. -/
def gives (rs : List (Nat × Word)) (i : Instr) (r : Nat) (v : Word) : Bool :=
  after (step (bench rs i)) (fun t => reg t r 0 == v)

/-- As `gives`, over two registers. -/
def gives2 (rs : List (Nat × Word)) (i : Instr) (r : Nat) (lo hi : Word) : Bool :=
  after (step (bench rs i)) (fun t => reg t r 0 == lo && reg t (r + 1) 0 == hi)

/-- The bench where register 3 differs between the threads. -/
def benchOf (vs : List Word) (i : Instr) : State :=
  { bench [] i with groups := [{ grp [] with regs := (vs.zipIdx.map (fun p => (96 + p.2, p.1))).filter (fun p => p.2 ≠ 0) }] }

-- R136: addition wraps, in a pair with a carry; a source may be the destination
theorem test_iadd_wraps : gives [(6, 0xFFFFFFFF)] (.iaddImm 6 6 3 false false) 6 2 = true := by decide +kernel
theorem test_iadd_pair : gives2 [(8, 0xFFFFFFFF), (10, 1)] (.iadd 12 8 10 false true) 12 0 1 = true := by decide +kernel
theorem test_isub_immediate : gives [(7, 0)] (.isubImm 7 7 1 false false) 7 0xFFFFFFFF = true := by decide +kernel
theorem test_imulh_signed : gives [(8, 0xFFFFFFFF), (10, 2)] (.imulhI 4 8 10 false false) 4 0xFFFFFFFF = true := by decide +kernel
theorem test_imulh_unsigned : gives [(8, 0xFFFFFFFF), (10, 2)] (.imulhB 4 8 10 false false) 4 1 = true := by decide +kernel
theorem test_imadw_signed : gives2 [(4, 1), (8, 0xFFFFFFFF), (10, 2)] (.imadwI 4 8 10 false) 4 0xFFFFFFFF 0xFFFFFFFF = true := by decide +kernel
theorem test_iabs_least : gives [(8, 0x80000000)] (.iabs 4 8 0 false false) 4 0x80000000 = true := by decide +kernel
theorem test_clz_zero : gives [(8, 0)] (.clz 4 8 0 false true) 4 64 = true := by decide +kernel
theorem test_brev : gives [(8, 0x00000003)] (.brev 4 8 0 false false) 4 0xC0000000 = true := by decide +kernel
-- R36: zr reads 0 and takes no write
theorem test_zero_register : gives [(4, 9)] (.iaddImm 4 112 5 false false) 4 5 = true := by decide +kernel
-- R137: a count of the width or more
theorem test_shl_by_width : gives [(8, 1), (10, 32)] (.shl 4 8 10 false false) 4 0 = true := by decide +kernel
theorem test_sar_beyond_width : gives [(8, 0x80000000), (10, 256)] (.sar 4 8 10 false false) 4 0xFFFFFFFF = true := by decide +kernel
theorem test_rol_modulo : gives [(8, 0x80000001), (10, 33)] (.rol 4 8 10 false false) 4 0x00000003 = true := by decide +kernel
-- R138: its example; a field at bit 8
theorem test_bfx_example : gives [(8, 0xA0000000), (10, 0x0000081C)] (.bfxI 4 8 10 false false) 4 0xFFFFFFFA = true := by decide +kernel
theorem test_bfi : gives [(4, 0xFFFFFFFF), (8, 0xA), (10, 0x00000408)] (.bfi 4 8 10 false false) 4 0xFFFFFAFF = true := by decide +kernel
-- R139: its two selectors
theorem test_prmt_copy : gives [(4, 0x00003210), (8, 0x11223344), (10, 0x55667788)] (.prmt 4 8 10 false) 4 0x11223344 = true := by decide +kernel
theorem test_prmt_reverse : gives [(4, 0x00004567), (8, 0x11223344), (10, 0x55667788)] (.prmt 4 8 10 false) 4 0x88776655 = true := by decide +kernel
-- R49, R136
theorem test_icmp_signed : gives [(8, 0xFFFFFFFF), (10, 1)] (.icmpLtI 4 8 10 false false) 4 1 = true := by decide +kernel
theorem test_sel_false : gives [(4, 0), (8, 7), (10, 9)] (.sel 4 8 10 false false) 4 9 = true := by decide +kernel
-- R77, R80, R82, R140 to R142: 1 + 2^-24 ties to even; 1/3 and the root of 2; the most negative scale; (a * b) + d rounded once
theorem test_fadd_tie : gives [(8, 0x3F800000), (10, 0x33800000)] (.fadd 4 8 10 false 0 1) 4 0x3F800000 = true := by decide +kernel
theorem test_fadd_up : gives [(8, 0x3F800000), (10, 0x33800000)] (.fadd 4 8 10 false 2 1) 4 0x3F800001 = true := by decide +kernel
theorem test_fdiv_third : gives [(8, 0x3F800000), (10, 0x40400000)] (.fdiv 4 8 10 false 0 1) 4 0x3EAAAAAB = true := by decide +kernel
theorem test_fsqrt_two : gives [(8, 0x40000000)] (.fsqrt 4 8 0 false 0 1) 4 0x3FB504F3 = true := by decide +kernel
theorem test_fsub_zero : gives [(8, 0x3F800000), (10, 0x3F800000)] (.fsub 4 8 10 false 3 1) 4 0x80000000 = true := by decide +kernel
theorem test_ffma_once : gives [(4, 0xBF800000), (8, 0x3F800001), (10, 0x3F7FFFFF)] (.ffma 4 8 10 false 0 1) 4 0x337FFFFE = true := by decide +kernel
theorem test_fscale_far : gives2 [(9, 0xBFF00000), (10, 0xFFFFF830)] (.fscale 4 8 10 false 0 0) 4 0 0x80000000 = true := by decide +kernel
theorem test_cvt_toward_zero : gives [(4, 0), (5, 0xC0080000)] (.cvt 3 4 false 1 8 false 5) 3 0xFFFFFFFD = true := by decide +kernel
-- R143: steps 3 to 5 of its table
theorem test_cvtpk_half : gives [(2, 0xBF000000), (5, 0x00000038)] (.cvtpk 5 2 1 false 0 false 1) 5 0x0000B038 = true := by decide +kernel
theorem test_cvtpk_saturates : gives [(3, 0x43FA0000), (5, 0x0000B038)] (.cvtpk 5 3 2 true 0 false 1) 5 0x007EB038 = true := by decide +kernel
theorem test_cvtpk_overflows : gives [(4, 0x43FA0000), (5, 0x007EB038)] (.cvtpk 5 4 3 false 0 false 1) 5 0x7F7EB038 = true := by decide +kernel
theorem test_cvtupk_least : gives [(4, 0)] (.cvtupk 5 4 0 false 7) 5 0x00400000 = true := by decide +kernel
-- R145, R146
theorem test_shfl_up : after (step (benchOf [5, 6, 7] (.shflUp 2 3 120))) (fun t => reg t 2 0 == 5 && reg t 2 2 == 7) = true := by decide +kernel
theorem test_vote_ballot : after (step (benchOf [5, 0, 7] (.voteBallot 2 3 0))) (fun t => reg t 2 31 == 5) = true := by decide +kernel
theorem test_elect : after (step (bench [] (.elect 2 0 0))) (fun t => reg t 2 0 == 1 && reg t 2 1 == 0) = true := by decide +kernel

/-- R147: threads 0 to 3 with 2^24, 1, 1 and -2^24 in FP32. -/
def sums (i : Instr) : State :=
  let s := benchOf [0x4B800000, 0x3F800000, 0x3F800000, 0xCB800000] i
  { s with lanes := s.lanes.map (fun l => { l with issuing := 0xF }) }

theorem test_redg_tree : after (step (sums (.redg 2 3 0 9))) (fun t => reg t 2 0 == 0x3F800000 && reg t 2 4 == 0) = true := by decide +kernel
theorem test_scang_inclusive : after (step (sums (.scangIncl 2 3 0 9))) (fun t => reg t 2 1 == 0x4B800000 && reg t 2 3 == 0x3F800000) = true := by decide +kernel
theorem test_scang_exclusive : after (step (sums (.scangExcl 2 3 0 9))) (fun t => reg t 2 0 == 0 && reg t 2 3 == 0x4B800000) = true := by decide +kernel
-- R148, R149: a branch back wraps modulo 2^57; CALL's return pair is the next clause's address (header, word and 7 literals on)
theorem test_branch_wraps : after (step (bench [] (.braImm 0 0 127 false))) (fun t => (t.lanes.map (fun l => l.newPc.getLast?)) == [some (31, 0x1FFFFFFFFFFFFFC)]) = true := by decide +kernel
theorem test_call_returns : after (step (bench [] (.callImm 10 0 12 false))) (fun t => reg t 10 0 == 36 && (t.lanes.map (fun l => l.newPc.head?)) == [some (0, 48)]) = true := by decide +kernel
-- R45, R47: an unassigned word halts the group with ILLOP, and no register changes
theorem test_illop_halts : after (step (bench [(4, 7)] (.illop 0x000000EF))) (fun t => t.lanes == [] && reg t 4 0 == 7 && (t.groups.map (fun g => g.thr.map (·.pc))) == [List.replicate 32 0]) = true := by decide +kernel
/-! ### Words meet the conditions of their statements -/

theorem wit_IntegerResults_words : ∀ i ∈ ([
     .iadd 16 8 24 false false, .iaddImm 16 8 1 false false, .isub 16 8 24 false false, .isubImm 16 8 1 false false,
     .imul 16 8 24 false false, .imulImm 16 8 1 false false, .imulhI 16 8 24 false false, .imulhIImm 16 8 1 false,
     .imulhB 16 8 24 false false, .imulhBImm 16 8 1 false, .imad 16 8 24 false false, .imadImm 16 8 1 false false,
     .imadwI 16 8 24 false, .imadwIImm 16 8 1 false, .imadwB 16 8 24 false, .imadwBImm 16 8 1 false,
     .ineg 16 8 0 false false, .iabs 16 8 0 false false, .iminI 16 8 24 false false, .iminIImm 16 8 1 false false,
     .iminB 16 8 24 false false, .iminBImm 16 8 1 false false, .imaxI 16 8 24 false false,
     .imaxIImm 16 8 1 false false, .imaxB 16 8 24 false false, .imaxBImm 16 8 1 false false,
     .and 16 8 24 false false, .andImm 16 8 1 false false, .or 16 8 24 false false, .orImm 16 8 1 false false,
     .xor 16 8 24 false false, .xorImm 16 8 1 false false, .andn 16 8 24 false false, .andnImm 16 8 1 false false,
     .not 16 8 0 false false, .popc 16 8 0 false false, .clz 16 8 0 false false, .ctz 16 8 0 false false,
     .brev 16 8 0 false false, .mov 16 8 0 false false, .movImm 16 0 1 false false, .icmpEq 16 8 24 false false,
     .icmpEqImm 16 8 1 false false, .icmpNe 16 8 24 false false, .icmpNeImm 16 8 1 false false,
     .icmpLtI 16 8 24 false false, .icmpLtIImm 16 8 1 false false, .icmpLeI 16 8 24 false false,
     .icmpLeIImm 16 8 1 false false, .icmpGtI 16 8 24 false false, .icmpGtIImm 16 8 1 false false,
     .icmpGeI 16 8 24 false false, .icmpGeIImm 16 8 1 false false, .icmpLtB 16 8 24 false false,
     .icmpLtBImm 16 8 1 false false, .icmpLeB 16 8 24 false false, .icmpLeBImm 16 8 1 false false,
     .icmpGtB 16 8 24 false false, .icmpGtBImm 16 8 1 false false, .icmpGeB 16 8 24 false false,
     .icmpGeBImm 16 8 1 false false, .sel 16 8 24 false false] : List Instr), ∃ s l ls g, Runs i s l ls g :=
  all_meet (by decide +kernel)

theorem wit_ShiftResults_words : ∀ i ∈ ([
     .shl 16 8 24 false false, .shlImm 16 8 1 false false, .shr 16 8 24 false false, .shrImm 16 8 1 false false,
     .sar 16 8 24 false false, .sarImm 16 8 1 false false, .rol 16 8 24 false false, .rolImm 16 8 1 false false] : List Instr), ∃ s l ls g, Runs i s l ls g :=
  all_meet (by decide +kernel)

theorem wit_BitFieldResults_words : ∀ i ∈ ([
     .bfxB 16 8 24 false false, .bfxI 16 8 24 false false, .bfi 16 8 24 false false] : List Instr), ∃ s l ls g, Runs i s l ls g :=
  all_meet (by decide +kernel)

theorem wit_PermuteBytes_words : ∀ i ∈ ([
     .prmt 16 8 24 false] : List Instr), ∃ s l ls g, Runs i s l ls g :=
  all_meet (by decide +kernel)

theorem wit_FloatArithmetic_words : ∀ i ∈ ([
     .fadd 16 8 24 false 0 1, .fsub 16 8 24 false 0 1, .fmul 16 8 24 false 0 1, .ffma 16 8 24 false 0 1,
     .fdiv 16 8 24 false 0 1, .fsqrt 16 8 0 false 0 1, .frcpCr 16 8 0 false 0 1, .frsqCr 16 8 0 false 0 1,
     .fscale 16 8 24 false 0 1] : List Instr), ∃ s l ls g, Runs i s l ls g :=
  all_meet (by decide +kernel)

theorem wit_FloatMinMax_words : ∀ i ∈ ([
     .fmin 16 8 24 false 1, .fmax 16 8 24 false 1, .fminn 16 8 24 false 1, .fmaxn 16 8 24 false 1] : List Instr), ∃ s l ls g, Runs i s l ls g :=
  all_meet (by decide +kernel)

theorem wit_FloatCompareAndClass_words : ∀ i ∈ ([
     .fcmpEq 16 8 24 false 1, .fcmpLt 16 8 24 false 1, .fcmpLe 16 8 24 false 1, .fcmpUn 16 8 24 false 1,
     .fcmpNe 16 8 24 false 1, .fcmpGt 16 8 24 false 1, .fcmpGe 16 8 24 false 1, .fcmpOrd 16 8 24 false 1,
     .fclass 16 8 0 false 1] : List Instr), ∃ s l ls g, Runs i s l ls g :=
  all_meet (by decide +kernel)

theorem wit_SignsAndIntegralValues_words : ∀ i ∈ ([
     .fneg 16 8 0 false 1, .fabs 16 8 0 false 1, .frnd 16 8 0 false 0 1, .ffrexp 16 8 24 false 1] : List Instr), ∃ s l ls g, Runs i s l ls g :=
  all_meet (by decide +kernel)

theorem wit_FaithfulFunctions_words : ∀ i ∈ ([
     .fexp2 16 8 0 false, .flog2 16 8 0 false, .fsin 16 8 0 false, .fcos 16 8 0 false, .ftanh 16 8 0 false,
     .frcp 16 8 0 false 1, .frsq 16 8 0 false 1] : List Instr), ∃ s l ls g, Runs i s l ls g :=
  all_meet (by decide +kernel)

theorem wit_Conversions_words : ∀ i ∈ ([
     .cvt 16 8 false 0 1 false 0, .cvtpk 16 8 1 false 0 false 1, .cvtupk 16 8 1 false 1, .cvtscMul 16 8 24 false,
     .cvtscExp 16 8 1 false] : List Instr), ∃ s l ls g, Runs i s l ls g :=
  all_meet (by decide +kernel)

theorem wit_ShuffleAndVoteResults_words : ∀ i ∈ ([
     .shflIdx 16 8 24, .shflUp 16 8 24, .shflDown 16 8 24, .shflXor 16 8 24, .voteAny 16 8 0, .voteAll 16 8 0,
     .voteBallot 16 8 0, .elect 16 0 0] : List Instr), ∃ s l ls g, Runs i s l ls g :=
  all_meet (by decide +kernel)

theorem wit_ReduceAndScan_words : ∀ i ∈ ([
     .redg 16 8 0 4, .scangIncl 16 8 0 4, .scangExcl 16 8 0 4] : List Instr), ∃ s l ls g, Runs i s l ls g :=
  all_meet (by decide +kernel)

theorem wit_BranchTargets_words : ∀ i ∈ ([
     .bra 0 0 24 false, .braImm 0 0 1 false, .brz 0 8 24 false, .brzImm 0 8 1 false, .brnz 0 8 24 false,
     .brnzImm 0 8 1 false] : List Instr), ∃ s l ls g, Runs i s l ls g :=
  all_meet (by decide +kernel)

theorem wit_CallsAndJumps_words : ∀ i ∈ ([
     .jmpr 0 8 0 false, .ret 0 8 0 false, .callr 16 8 0 false, .call 16 8 0 false, .callImm 16 0 1 false] : List Instr), ∃ s l ls g, Runs i s l ls g :=
  all_meet (by decide +kernel)

theorem wit_ClauseEndsAndTraps_words : ∀ i ∈ ([
     .nop 0 0 0 false, .yield 0 0 0, .wsync 0 8 0, .exit 0 0 0, .trap 0 0 1 false, .bkpt 0 0 1 false] : List Instr), ∃ s l ls g, Runs i s l ls g :=
  all_meet (by decide +kernel)

theorem wit_WindowAndRegisterBlocks_words : ∀ i ∈ ([
     .wbase 0 8 0 false, .wbaseImm 0 0 1 false, .rbacq 0 8 0 false, .rbacqImm 0 0 1 false, .rbrel 0 8 0 false,
     .rbrelImm 0 0 1 false, .rquota 0 8 0 0 false] : List Instr), ∃ s l ls g, Runs i s l ls g :=
  all_meet (by decide +kernel)

theorem wit_SpecialRegisters_words : ∀ i ∈ ([
     .movs 16 0 0 false, .movs64 16 0 0x10 false, .movc 16 0 0 false, .movcW 0 8 0 false] : List Instr), ∃ s l ls g, Runs i s l ls g :=
  all_meet (by decide +kernel)

theorem wit_LoadsAndStoresStart_words : ∀ i ∈ ([
     .ld 16 8 0 0 false, .ldSpan 16 8 0 0 false, .st 16 8 false 0 false] : List Instr), ∃ s l ls g, Runs i s l ls g :=
  all_meet (by decide +kernel)

theorem wit_AddressFaults_words : ∀ i ∈ ([
     .ld 16 8 0 0 false, .ldSpan 16 8 0 0 false, .st 16 8 false 0 false, .ldl 16 8 false 0 false,
     .stl 16 8 false 0 false] : List Instr), ∃ s l ls g, Runs i s l ls g :=
  all_meet (by decide +kernel)

theorem wit_LocalLoadsAndStores_words : ∀ i ∈ ([
     .ldl 16 8 false 0 false, .stl 16 8 false 0 false] : List Instr), ∃ s l ls g, Runs i s l ls g :=
  all_meet (by decide +kernel)

theorem wit_QueriesAndHints_words : ∀ i ∈ ([
     .fetcht 16 0 0 false, .pqry 16 8 0 false, .pref 0 8 0 0 false, .cqry 16 0 1 false, .fqry 16 0 1 false,
     .mmaq 16 0 0 false] : List Instr), ∃ s l ls g, Runs i s l ls g :=
  all_meet (by decide +kernel)

theorem wit_ReductionsStart_words : ∀ i ∈ ([
     .redOrd 16 8 24 false false] : List Instr), ∃ s l ls g, Runs i s l ls g :=
  all_meet (by decide +kernel)

theorem wit_AccumulatorWordsStart_words : ∀ i ∈ ([
     .accopen 16 8 24 false, .accclose 0 8 0 false, .accscale 16 8 24 false, .acczero 0 8 24 false] : List Instr), ∃ s l ls g, Runs i s l ls g :=
  all_meet (by decide +kernel)

theorem wit_CacheControl_words : ∀ i ∈ ([
     .cflush 0 8 24 false, .cinv 0 8 24 false, .cspan 16 8 false 0 false] : List Instr), ∃ s l ls g, Runs i s l ls g :=
  all_meet (by decide +kernel)

theorem wit_BarrierWords_words : ∀ i ∈ ([
     .binit 16 8 0 false, .binval 0 8 0 false, .barv 0 8 24 false, .barvImm 0 8 1 false, .bexp 0 8 24 false,
     .bwait 0 8 24 false, .bsync 0 8 24 false, .btest 16 8 24 false] : List Instr), ∃ s l ls g, Runs i s l ls g :=
  all_meet (by decide +kernel)

theorem wit_TileElements_words : ∀ i ∈ ([
     .movts 16 8 0 false, .movst 16 8 0 false, .tzero 16 0 0 false, .twr 16 8 24 false, .trd 16 8 24 false] : List Instr), ∃ s l ls g, Runs i s l ls g :=
  all_meet (by decide +kernel)

theorem wit_TileTransfers_words : ∀ i ∈ ([
     .tld 16 8 0 false, .tldOb 16 8 0 false, .tst 16 8 0 false, .ldmeta 2 8 0 false] : List Instr), ∃ s l ls g, Runs i s l ls g :=
  all_meet (by decide +kernel)

theorem wit_TileRings_words : ∀ i ∈ ([
     .tring 2 8 0 false, .trel 2 0 0 false] : List Instr), ∃ s l ls g, Runs i s l ls g :=
  all_meet (by decide +kernel)

theorem wit_MatrixStart_words : ∀ i ∈ ([
     .mmai 0 8 0 false] : List Instr), ∃ s l ls g, Runs i s l ls g :=
  all_meet (by decide +kernel)

theorem wit_FabricWordsStart_words : ∀ i ∈ ([
     .put 16 8 0 false, .putn 16 8 0 false, .get 16 8 0 false, .mput 16 8 0 false, .ratom 16 0 0 0 false,
     .rred 16 0 false false false, .gbarv 0 8 0 false] : List Instr), ∃ s l ls g, Runs i s l ls g :=
  all_meet (by decide +kernel)
/-! ### The further conditions of the words' statements, at the values where they meet -/

/-- R211 finds nothing, as a test that runs. -/
def accB (k : AccKind) (n : Nat) (e : Thr) (va : Nat) : Bool :=
  decide (va < 2 ^ 57) && decide (va % n = 0) && match e.present va with
    | none => true
    | some t => !badPermission t k va && !badMode t k (dieOfCore e.l.core) && (t.scratch || (e.s.absentCode t.home).isNone)

theorem accessible_of {k : AccKind} {n : Nat} {e : Thr} {va : Nat} (h : accB k n e va = true) : Accessible k n e va := by
  simp only [accB, Bool.and_eq_true, decide_eq_true_eq] at h
  refine ⟨h.1.1, h.1.2, fun t ht => ?_⟩
  have h2 := h.2
  rw [ht] at h2
  simp only [Bool.and_eq_true, Bool.or_eq_true, Bool.not_eq_true', Option.isNone_iff_eq_none] at h2
  refine ⟨h2.1.1, h2.1.2, fun hs => h2.2.resolve_left ?_⟩
  rw [hs]
  exact Bool.false_ne_true

theorem accessible_all {k : AccKind} {n : Nat} {e : Nat → Thr} {va : Nat → Nat} {xs : List Nat}
    (h : (xs.all fun th => accB k n (e th) (va th)) = true) : ∀ th ∈ xs, Accessible k n (e th) (va th) :=
  fun th ht => accessible_of (List.all_eq_true.mp h th ht)

theorem localByte_all {s : State} {l : Lane} {a : Nat → Nat} {xs : List Nat} {q : Nat → Prop} (t : Team)
    (ht : s.team? l.launch l.team = some t) (h : ∀ th ∈ xs, (s.localTarget t (a th) 1).isSome = true ∧ q th) :
    ∀ th ∈ xs, LocalByte s l (a th) ∧ q th :=
  fun th hx => ⟨⟨t, ht, (h th hx).1⟩, (h th hx).2⟩

/-- A page at 0 that permits loads, stores and accumulation, of mode C, homed on die 0. -/
def page : DWord := 0x400F
/-- The bench with that page in the core's L0. -/
def benchAt (rs : List (Nat × Word)) (i : Instr) (leaf : DWord) : State :=
  { bench rs i with cores := [{ id := 0, tlb := [{ launch := 1, page := 0, size := 65536, leaf := leaf }] }] }

/-- An operand of 31 keeps the window within the 32 blocks held, 32 does not. -/
theorem wit_WindowAndRegisterBlocks_wbase :
    (∃ s l ls g, Runs (.wbaseImm 0 0 31 false) s l ls g ∧
      (31 : BitVec 7).toNat < g.nblk) ∧
    (∃ s l ls g, Runs (.wbaseImm 0 0 32 false) s l ls g ∧
      g.nblk ≤ (32 : BitVec 7).toNat) ∧
    (∃ s l ls g, Runs (.wbase 0 8 0 false) s l ls g ∧
      ((viewOf s l g false l.lowest).v32 8).toNat < g.nblk) ∧
    (∃ s l ls g, Runs (.wbase 0 8 0 false) s l ls g ∧
      g.nblk ≤ ((viewOf s l g false l.lowest).v32 8).toNat) :=
  ⟨⟨bench [] (.wbaseImm 0 0 31 false), lane (.wbaseImm 0 0 31 false), [], grp [], by unfold Runs; decide +kernel⟩,
   ⟨bench [] (.wbaseImm 0 0 32 false), lane (.wbaseImm 0 0 32 false), [], grp [], by unfold Runs; decide +kernel⟩,
   ⟨bench [(8, 31)] (.wbase 0 8 0 false), lane (.wbase 0 8 0 false), [], grp [(8, 31)], by unfold Runs; decide +kernel⟩,
   ⟨bench [(8, 32)] (.wbase 0 8 0 false), lane (.wbase 0 8 0 false), [], grp [(8, 32)], by unfold Runs; decide +kernel⟩⟩

/-- A group of 31 blocks may ask for one more and not for two; 0 asks for none. -/
theorem wit_WindowAndRegisterBlocks_rbacq :
    (∃ s l ls g, Runs (.rbacqImm 0 0 1 false) s l ls g ∧
      s.team? l.launch l.team = some team ∧ (g.nblk + (1 : BitVec 7).toNat ≤ 32 ∧ g.nblk + (1 : BitVec 7).toNat ≤ team.t)) ∧
    (∃ s l ls g, Runs (.rbacq 0 8 0 false) s l ls g ∧
      s.team? l.launch l.team = some team ∧ (g.nblk + ((viewOf s l g false l.lowest).v32 8).toNat ≤ 32 ∧ g.nblk + ((viewOf s l g false l.lowest).v32 8).toNat ≤ team.t)) ∧
    (∃ s l ls g, Runs (.rbacqImm 0 0 2 false) s l ls g ∧
      s.team? l.launch l.team = some team ∧ (2 : BitVec 7).toNat ≠ 0 ∧ 32 < g.nblk + (2 : BitVec 7).toNat) ∧
    (∃ s l ls g, Runs (.rbacq 0 8 0 false) s l ls g ∧
      s.team? l.launch l.team = some team ∧ ((viewOf s l g false l.lowest).v32 8).toNat ≠ 0 ∧ 32 < g.nblk + ((viewOf s l g false l.lowest).v32 8).toNat) ∧
    (∃ s l ls g, Runs (.rbacqImm 0 0 0 false) s l ls g ∧
      s.team? l.launch l.team = some team ∧ (0 : BitVec 7).toNat = 0) ∧
    (∃ s l ls g, Runs (.rbacq 0 8 0 false) s l ls g ∧
      s.team? l.launch l.team = some team ∧ ((viewOf s l g false l.lowest).v32 8).toNat = 0) :=
  ⟨⟨{ bench [] (.rbacqImm 0 0 1 false) with groups := [{ grp [] with nblk := 31 }] }, lane (.rbacqImm 0 0 1 false), [], { grp [] with nblk := 31 }, by unfold Runs; decide +kernel⟩,
   ⟨{ bench [(8, 1)] (.rbacq 0 8 0 false) with groups := [{ grp [(8, 1)] with nblk := 31 }] }, lane (.rbacq 0 8 0 false), [], { grp [(8, 1)] with nblk := 31 }, by unfold Runs; decide +kernel⟩,
   ⟨{ bench [] (.rbacqImm 0 0 2 false) with groups := [{ grp [] with nblk := 31 }] }, lane (.rbacqImm 0 0 2 false), [], { grp [] with nblk := 31 }, by unfold Runs; decide +kernel⟩,
   ⟨{ bench [(8, 2)] (.rbacq 0 8 0 false) with groups := [{ grp [(8, 2)] with nblk := 31 }] }, lane (.rbacq 0 8 0 false), [], { grp [(8, 2)] with nblk := 31 }, by unfold Runs; decide +kernel⟩,
   ⟨bench [] (.rbacqImm 0 0 0 false), lane (.rbacqImm 0 0 0 false), [], grp [], by unfold Runs; decide +kernel⟩,
   ⟨bench [] (.rbacq 0 8 0 false), lane (.rbacq 0 8 0 false), [], grp [], by unfold Runs; decide +kernel⟩⟩

/-- Of 32 blocks 31 can be released, 32 cannot; 0 releases none. -/
theorem wit_WindowAndRegisterBlocks_rbrel :
    (∃ s l ls g, Runs (.rbrelImm 0 0 31 false) s l ls g ∧
      g.exited = false ∧ (31 : BitVec 7).toNat ≠ 0 ∧ g.wb + (31 : BitVec 7).toNat < g.nblk) ∧
    (∃ s l ls g, Runs (.rbrel 0 8 0 false) s l ls g ∧
      g.exited = false ∧ ((viewOf s l g false l.lowest).v32 8).toNat ≠ 0 ∧ g.wb + ((viewOf s l g false l.lowest).v32 8).toNat < g.nblk) ∧
    (∃ s l ls g, Runs (.rbrelImm 0 0 32 false) s l ls g ∧
      g.exited = false ∧ (32 : BitVec 7).toNat ≠ 0 ∧ g.nblk ≤ (32 : BitVec 7).toNat) ∧
    (∃ s l ls g, Runs (.rbrel 0 8 0 false) s l ls g ∧
      g.exited = false ∧ ((viewOf s l g false l.lowest).v32 8).toNat ≠ 0 ∧ g.nblk ≤ ((viewOf s l g false l.lowest).v32 8).toNat) ∧
    (∃ s l ls g, Runs (.rbrelImm 0 0 0 false) s l ls g ∧
      g.exited = false ∧ (0 : BitVec 7).toNat = 0) ∧
    (∃ s l ls g, Runs (.rbrel 0 8 0 false) s l ls g ∧
      g.exited = false ∧ ((viewOf s l g false l.lowest).v32 8).toNat = 0) :=
  ⟨⟨bench [] (.rbrelImm 0 0 31 false), lane (.rbrelImm 0 0 31 false), [], grp [], by unfold Runs; decide +kernel⟩,
   ⟨bench [(8, 31)] (.rbrel 0 8 0 false), lane (.rbrel 0 8 0 false), [], grp [(8, 31)], by unfold Runs; decide +kernel⟩,
   ⟨bench [] (.rbrelImm 0 0 32 false), lane (.rbrelImm 0 0 32 false), [], grp [], by unfold Runs; decide +kernel⟩,
   ⟨bench [(8, 32)] (.rbrel 0 8 0 false), lane (.rbrel 0 8 0 false), [], grp [(8, 32)], by unfold Runs; decide +kernel⟩,
   ⟨bench [] (.rbrelImm 0 0 0 false), lane (.rbrelImm 0 0 0 false), [], grp [], by unfold Runs; decide +kernel⟩,
   ⟨bench [] (.rbrel 0 8 0 false), lane (.rbrel 0 8 0 false), [], grp [], by unfold Runs; decide +kernel⟩⟩

/-- A role with a budget of 511 can give 511 and not 512; a role beyond those of the launch gives and gets none. -/
theorem wit_WindowAndRegisterBlocks_rquota :
    (∃ s l ls g, Runs (.rquota 0 8 1 0 false) s l ls g ∧
      s.team? l.launch l.team = some { team with nrole := 2 } ∧ (0 : BitVec 2).toNat < ({ team with nrole := 2 } : Team).nrole ∧ (1 : BitVec 2).toNat < ({ team with nrole := 2 } : Team).nrole ∧ ({ team with nrole := 2 } : Team).nrole ≤ 4 ∧
      ({ team with nrole := 2 } : Team).budget.length = 4 ∧ ((viewOf s l g false l.lowest).v32 8).toNat ≤ ({ team with nrole := 2 } : Team).budget.getD 0 0) ∧
    (∃ s l ls g, Runs (.rquota 0 8 1 0 false) s l ls g ∧
      s.team? l.launch l.team = some { team with nrole := 2 } ∧ ({ team with nrole := 2 } : Team).budget.getD 0 0 < ((viewOf s l g false l.lowest).v32 8).toNat) ∧
    (∃ s l ls g, Runs (.rquota 0 8 2 0 false) s l ls g ∧
      s.team? l.launch l.team = some { team with nrole := 2 } ∧ ({ team with nrole := 2 } : Team).nrole ≤ (2 : BitVec 2).toNat) ∧
    (∃ s l ls g, Runs (.rquota 0 8 0 2 false) s l ls g ∧
      s.team? l.launch l.team = some { team with nrole := 2 } ∧ ({ team with nrole := 2 } : Team).nrole ≤ (2 : BitVec 2).toNat) :=
  ⟨⟨{ bench [(8, 511)] (.rquota 0 8 1 0 false) with teams := [{ team with nrole := 2 }] }, lane (.rquota 0 8 1 0 false), [], grp [(8, 511)], by unfold Runs; decide +kernel⟩,
   ⟨{ bench [(8, 512)] (.rquota 0 8 1 0 false) with teams := [{ team with nrole := 2 }] }, lane (.rquota 0 8 1 0 false), [], grp [(8, 512)], by unfold Runs; decide +kernel⟩,
   ⟨{ bench [(8, 0)] (.rquota 0 8 2 0 false) with teams := [{ team with nrole := 2 }] }, lane (.rquota 0 8 2 0 false), [], grp [(8, 0)], by unfold Runs; decide +kernel⟩,
   ⟨{ bench [(8, 0)] (.rquota 0 8 0 2 false) with teams := [{ team with nrole := 2 }] }, lane (.rquota 0 8 0 2 false), [], grp [(8, 0)], by unfold Runs; decide +kernel⟩⟩

theorem wit_ClauseEndsAndTraps_bkpt :
    ∃ s l ls g, Runs (.bkpt 0 0 127 false) s l ls g ∧
      s.team? l.launch l.team = some team :=
  ⟨bench [] (.bkpt 0 0 127 false), lane (.bkpt 0 0 127 false), [], grp [], by unfold Runs; decide +kernel⟩

/-- A target of 2^57 - 1 is one, 2^57 faults, in the first thread it names. -/
theorem wit_CallsAndJumps :
    (∃ s l ls g, Runs (.jmpr 0 8 0 false) s l ls g ∧
      ∀ th ∈ l.execThreads false, ((viewOf s l g false th).v64 8).toNat < 2 ^ 57) ∧
    (∃ s l ls g, Runs (.jmpr 0 8 0 false) s l ls g ∧
      (l.execThreads false).find? (fun th => decide (2 ^ 57 ≤ ((viewOf s l g false th).v64 8).toNat)) = some 0) ∧
    (∃ s l ls g, Runs (.ret 0 8 0 false) s l ls g ∧
      ∀ th ∈ l.execThreads false, ((viewOf s l g false th).v64 8).toNat < 2 ^ 57) ∧
    (∃ s l ls g, Runs (.ret 0 8 0 false) s l ls g ∧
      (l.execThreads false).find? (fun th => decide (2 ^ 57 ≤ ((viewOf s l g false th).v64 8).toNat)) = some 0) ∧
    (∃ s l ls g, Runs (.callr 16 8 0 false) s l ls g ∧
      ∀ th ∈ l.execThreads false, ((viewOf s l g false th).v64 8).toNat < 2 ^ 57) ∧
    (∃ s l ls g, Runs (.callr 16 8 0 false) s l ls g ∧
      (l.execThreads false).find? (fun th => decide (2 ^ 57 ≤ ((viewOf s l g false th).v64 8).toNat)) = some 0) :=
  ⟨⟨bench [(8, 0xFFFFFFFF), (9, 0x1FFFFFF)] (.jmpr 0 8 0 false), lane (.jmpr 0 8 0 false), [], grp [(8, 0xFFFFFFFF), (9, 0x1FFFFFF)], by unfold Runs; decide +kernel⟩,
   ⟨bench [(9, 0x2000000)] (.jmpr 0 8 0 false), lane (.jmpr 0 8 0 false), [], grp [(9, 0x2000000)], by unfold Runs; decide +kernel⟩,
   ⟨bench [(8, 0xFFFFFFFF), (9, 0x1FFFFFF)] (.ret 0 8 0 false), lane (.ret 0 8 0 false), [], grp [(8, 0xFFFFFFFF), (9, 0x1FFFFFF)], by unfold Runs; decide +kernel⟩,
   ⟨bench [(9, 0x2000000)] (.ret 0 8 0 false), lane (.ret 0 8 0 false), [], grp [(9, 0x2000000)], by unfold Runs; decide +kernel⟩,
   ⟨bench [(8, 0xFFFFFFFF), (9, 0x1FFFFFF)] (.callr 16 8 0 false), lane (.callr 16 8 0 false), [], grp [(8, 0xFFFFFFFF), (9, 0x1FFFFFF)], by unfold Runs; decide +kernel⟩,
   ⟨bench [(9, 0x2000000)] (.callr 16 8 0 false), lane (.callr 16 8 0 false), [], grp [(9, 0x2000000)], by unfold Runs; decide +kernel⟩⟩

theorem wit_SpecialRegisters_toff :
    (0x40 ≤ (0x40 : BitVec 7).toNat ∧ (0x40 : BitVec 7).toNat ≤ 0x7B ∧ ∃ s l ls g, Runs (.movs64 16 0 0x40 false) s l ls g) ∧
    (0x40 ≤ (0x7B : BitVec 7).toNat ∧ (0x7B : BitVec 7).toNat ≤ 0x7B ∧ ∃ s l ls g, Runs (.movs64 16 0 0x7B false) s l ls g) :=
  ⟨⟨by decide +kernel, by decide +kernel, runs_meets (by decide +kernel)⟩,
   ⟨by decide +kernel, by decide +kernel, runs_meets (by decide +kernel)⟩⟩

/-- The last eight bytes below the die-scratch window, whose page is not known; and address 0 with its page present. -/
theorem wit_LoadsAndStoresStart :
    (∃ s l ls g, Runs (.ld 16 8 1 8 false) s l ls g ∧
      ∀ th ∈ l.execThreads false, Accessible .load (memSize 8) (viewOf s l g false th) (pairAt s l g 8 th)) ∧
    (∃ s l ls g, Runs (.ld 16 8 1 8 false) s l ls g ∧
      ∀ th ∈ l.execThreads false, Accessible .load (memSize 8) (viewOf s l g false th) (pairAt s l g 8 th)) ∧
    (∃ s l ls g, Runs (.ldSpan 16 8 2 8 false) s l ls g ∧
      ∀ th ∈ l.execThreads false, Accessible .load (memSize 8) (viewOf s l g false th) (pairAt s l g 8 th)) ∧
    (∃ s l ls g, Runs (.ldSpan 16 8 2 8 false) s l ls g ∧
      ∀ th ∈ l.execThreads false, Accessible .load (memSize 8) (viewOf s l g false th) (pairAt s l g 8 th)) ∧
    (∃ s l ls g, Runs (.st 16 8 true 8 false) s l ls g ∧
      ∀ th ∈ l.execThreads false, Accessible .store (memSize 8) (viewOf s l g false th) (pairAt s l g 8 th)) ∧
    (∃ s l ls g, Runs (.st 16 8 true 8 false) s l ls g ∧
      ∀ th ∈ l.execThreads false, Accessible .store (memSize 8) (viewOf s l g false th) (pairAt s l g 8 th)) :=
  ⟨⟨bench [(8, 0xFFFFFFF8), (9, 0x1FFFEFF)] (.ld 16 8 1 8 false), lane (.ld 16 8 1 8 false), [], grp [(8, 0xFFFFFFF8), (9, 0x1FFFEFF)], by unfold Runs; decide +kernel, accessible_all (by decide +kernel)⟩,
   ⟨benchAt [] (.ld 16 8 1 8 false) page, lane (.ld 16 8 1 8 false), [], grp [], by unfold Runs; decide +kernel, accessible_all (by decide +kernel)⟩,
   ⟨bench [(8, 0xFFFFFFF8), (9, 0x1FFFEFF)] (.ldSpan 16 8 2 8 false), lane (.ldSpan 16 8 2 8 false), [], grp [(8, 0xFFFFFFF8), (9, 0x1FFFEFF)], by unfold Runs; decide +kernel, accessible_all (by decide +kernel)⟩,
   ⟨benchAt [] (.ldSpan 16 8 2 8 false) page, lane (.ldSpan 16 8 2 8 false), [], grp [], by unfold Runs; decide +kernel, accessible_all (by decide +kernel)⟩,
   ⟨bench [(8, 0xFFFFFFF8), (9, 0x1FFFEFF)] (.st 16 8 true 8 false), lane (.st 16 8 true 8 false), [], grp [(8, 0xFFFFFFF8), (9, 0x1FFFEFF)], by unfold Runs; decide +kernel, accessible_all (by decide +kernel)⟩,
   ⟨benchAt [] (.st 16 8 true 8 false) page, lane (.st 16 8 true 8 false), [], grp [], by unfold Runs; decide +kernel, accessible_all (by decide +kernel)⟩⟩

theorem wit_AtomicsStart_words :
    ∀ i ∈ ([.atomAdd 16 8 false 3 0 false, .atomSub 16 8 false 3 0 false, .atomMin 16 8 false 3 0 false, .atomMax 16 8 false 3 0 false, .atomAnd 16 8 false 3 0 false, .atomOr 16 8 false 3 0 false, .atomXor 16 8 false 3 0 false, .atomSwap 16 8 false 3 0 false, .atomCas 16 8 false 3 0 false, .atomIncw 16 8 false 3 0 false, .atomAddb 16 8 false 3 0 false, .atomFadd 16 8 false 3 4 false] : List Instr),
      ∃ s l ls g, Runs i s l ls g :=
  all_meet (by decide +kernel)

/-- Without and with promotion, at an aligned address, to core 95 of the die. -/
theorem wit_AtomicsStart :
    (∃ s l ls g, Runs (.atomAdd 16 8 false 3 0 false) s l ls g ∧
      ∀ th ∈ l.execThreads false, Accessible .atomic (4 * atomRegs 0) (viewOf s l g false th) (pairAt s l g 8 th)) ∧
    (∃ s l ls g, Runs (.atomCas 16 8 true 3 0 false) s l ls g ∧
      (∀ th ∈ l.execThreads false,
        Accessible .atomic (4 * atomRegs 0) (viewOf s l g false th) (numOfWords (((viewOf s l g false th).vN 4 8).take 2))) ∧
      ∀ th ∈ l.execThreads false, (((viewOf s l g false th).vN 4 8).getD 2 0).toNat % 128 < 96 ∧
        s.absentCode (dieOfCore (victimCore l.core (((viewOf s l g false th).vN 4 8).getD 2 0))) = none) :=
  ⟨⟨bench [(8, 0xFFFFFFFC), (9, 0x1FFFEFF)] (.atomAdd 16 8 false 3 0 false), lane (.atomAdd 16 8 false 3 0 false), [], grp [(8, 0xFFFFFFFC), (9, 0x1FFFEFF)], by unfold Runs; decide +kernel, accessible_all (by decide +kernel)⟩,
   ⟨bench [(8, 0xFFFFFFFC), (9, 0x1FFFEFF), (10, 95)] (.atomCas 16 8 true 3 0 false), lane (.atomCas 16 8 true 3 0 false), [], grp [(8, 0xFFFFFFFC), (9, 0x1FFFEFF), (10, 95)], by unfold Runs; decide +kernel, accessible_all (by decide +kernel), by decide +kernel⟩⟩

/-- The first address beyond the space, and the first misaligned one below it, for each instruction. -/
theorem wit_AddressFaults :
    (∃ s l ls g, Runs (.ld 16 8 0 8 false) s l ls g ∧
      (l.execThreads false).find? (fun th => decide (2 ^ 57 ≤ pairAt s l g 8 th)) = some 0) ∧
    (∃ s l ls g, Runs (.ld 16 8 0 8 false) s l ls g ∧
      (∀ th ∈ l.execThreads false, pairAt s l g 8 th < 2 ^ 57) ∧
      (l.execThreads false).find? (fun th => decide (pairAt s l g 8 th % memSize 8 ≠ 0)) = some 0) ∧
    (∃ s l ls g, Runs (.ldSpan 16 8 2 8 false) s l ls g ∧
      (l.execThreads false).find? (fun th => decide (2 ^ 57 ≤ pairAt s l g 8 th)) = some 0) ∧
    (∃ s l ls g, Runs (.ldSpan 16 8 2 8 false) s l ls g ∧
      (∀ th ∈ l.execThreads false, pairAt s l g 8 th < 2 ^ 57) ∧
      (l.execThreads false).find? (fun th => decide (pairAt s l g 8 th % memSize 8 ≠ 0)) = some 0) ∧
    (∃ s l ls g, Runs (.st 16 8 false 8 false) s l ls g ∧
      (l.execThreads false).find? (fun th => decide (2 ^ 57 ≤ pairAt s l g 8 th)) = some 0) ∧
    (∃ s l ls g, Runs (.st 16 8 false 8 false) s l ls g ∧
      (∀ th ∈ l.execThreads false, pairAt s l g 8 th < 2 ^ 57) ∧
      (l.execThreads false).find? (fun th => decide (pairAt s l g 8 th % memSize 8 ≠ 0)) = some 0) ∧
    (∃ s l ls g, Runs (.ldl 16 8 false 4 false) s l ls g ∧
      s.team? l.launch l.team = some team ∧
      (l.execThreads false).find? (fun th => decide ((s.localTarget team (wordAt s l g 8 th) 1).isNone = true)) = some 0) ∧
    (∃ s l ls g, Runs (.ldl 16 8 false 4 false) s l ls g ∧
      s.team? l.launch l.team = some team ∧
      (∀ th ∈ l.execThreads false, (s.localTarget team (wordAt s l g 8 th) 1).isSome = true) ∧
      (l.execThreads false).find? (fun th => decide (wordAt s l g 8 th % memSize 4 ≠ 0)) = some 0) ∧
    (∃ s l ls g, Runs (.stl 16 8 false 4 false) s l ls g ∧
      s.team? l.launch l.team = some team ∧
      (l.execThreads false).find? (fun th => decide ((s.localTarget team (wordAt s l g 8 th) 1).isNone = true)) = some 0) ∧
    (∃ s l ls g, Runs (.stl 16 8 false 4 false) s l ls g ∧
      s.team? l.launch l.team = some team ∧
      (∀ th ∈ l.execThreads false, (s.localTarget team (wordAt s l g 8 th) 1).isSome = true) ∧
      (l.execThreads false).find? (fun th => decide (wordAt s l g 8 th % memSize 4 ≠ 0)) = some 0) :=
  ⟨⟨bench [(9, 0x2000000)] (.ld 16 8 0 8 false), lane (.ld 16 8 0 8 false), [], grp [(9, 0x2000000)], by unfold Runs; decide +kernel⟩,
   ⟨bench [(8, 0xFFFFFFFF), (9, 0x1FFFFFF)] (.ld 16 8 0 8 false), lane (.ld 16 8 0 8 false), [], grp [(8, 0xFFFFFFFF), (9, 0x1FFFFFF)], by unfold Runs; decide +kernel⟩,
   ⟨bench [(9, 0x2000000)] (.ldSpan 16 8 2 8 false), lane (.ldSpan 16 8 2 8 false), [], grp [(9, 0x2000000)], by unfold Runs; decide +kernel⟩,
   ⟨bench [(8, 0xFFFFFFFF), (9, 0x1FFFFFF)] (.ldSpan 16 8 2 8 false), lane (.ldSpan 16 8 2 8 false), [], grp [(8, 0xFFFFFFFF), (9, 0x1FFFFFF)], by unfold Runs; decide +kernel⟩,
   ⟨bench [(9, 0x2000000)] (.st 16 8 false 8 false), lane (.st 16 8 false 8 false), [], grp [(9, 0x2000000)], by unfold Runs; decide +kernel⟩,
   ⟨bench [(8, 0xFFFFFFFF), (9, 0x1FFFFFF)] (.st 16 8 false 8 false), lane (.st 16 8 false 8 false), [], grp [(8, 0xFFFFFFFF), (9, 0x1FFFFFF)], by unfold Runs; decide +kernel⟩,
   ⟨bench [(8, 0x80000)] (.ldl 16 8 false 4 false), lane (.ldl 16 8 false 4 false), [], grp [(8, 0x80000)], by unfold Runs; decide +kernel⟩,
   ⟨bench [(8, 0x7FFFF)] (.ldl 16 8 false 4 false), lane (.ldl 16 8 false 4 false), [], grp [(8, 0x7FFFF)], by unfold Runs; decide +kernel⟩,
   ⟨bench [(8, 0x80000)] (.stl 16 8 false 4 false), lane (.stl 16 8 false 4 false), [], grp [(8, 0x80000)], by unfold Runs; decide +kernel⟩,
   ⟨bench [(8, 0x7FFFF)] (.stl 16 8 false 4 false), lane (.stl 16 8 false 4 false), [], grp [(8, 0x7FFFF)], by unfold Runs; decide +kernel⟩⟩

/-- The last word of the local store, with nothing of the group under way. -/
theorem wit_LocalLoadsAndStores :
    (∃ s l ls g, Runs (.ldl 16 8 false 4 false) s l ls g ∧
      (∀ th ∈ l.execThreads false, LocalByte s l (wordAt s l g 8 th) ∧ wordAt s l g 8 th % memSize 4 = 0) ∧
      LocalIdle s l g team ∧ ∀ th ∈ l.execThreads false, wordAt s l g 8 th < 2 ^ 19) ∧
    (∃ s l ls g, Runs (.stl 16 8 true 4 false) s l ls g ∧
      (∀ th ∈ l.execThreads false, LocalByte s l (wordAt s l g 8 th) ∧ wordAt s l g 8 th % memSize 4 = 0) ∧
      LocalIdle s l g team ∧ ∀ th ∈ l.execThreads false, wordAt s l g 8 th < 2 ^ 19) :=
  ⟨⟨bench [(8, 0x7FFFC)] (.ldl 16 8 false 4 false), lane (.ldl 16 8 false 4 false), [], grp [(8, 0x7FFFC)], by unfold Runs; decide +kernel, localByte_all team (by decide +kernel) (by decide +kernel), by unfold LocalIdle; decide +kernel, by decide +kernel⟩,
   ⟨bench [(8, 0x7FFFC)] (.stl 16 8 true 4 false), lane (.stl 16 8 true 4 false), [], grp [(8, 0x7FFFC)], by unfold Runs; decide +kernel, localByte_all team (by decide +kernel) (by decide +kernel), by unfold LocalIdle; decide +kernel, by decide +kernel⟩⟩

/-- Steps 3 to 5 of R211 find nothing, as a test that runs. -/
def permB (k : AccKind) (e : Thr) (va : Nat) (t : Tr) : Bool :=
  !badPermission t k va && !badMode t k (dieOfCore e.l.core) && (t.scratch || (e.s.absentCode t.home).isNone)

theorem permitted_of {k : AccKind} {e : Thr} {va : Nat} {t : Tr} (h : permB k e va t = true) : Permitted k e va t := by
  simp only [permB, Bool.and_eq_true, Bool.or_eq_true, Bool.not_eq_true', Option.isNone_iff_eq_none] at h
  refine ⟨h.1.1, h.1.2, fun hs => h.2.resolve_left ?_⟩
  rw [hs]
  exact Bool.false_ne_true

/-- R284 finds nothing, as a test that runs. -/
def spansB (k : AccKind) (n : Nat) (e : Thr) (va : Nat) : Bool :=
  decide (va < 2 ^ 57) && decide (va + n ≤ 2 ^ 57) && (e.pages va n).all fun p => permB k e p.1 p.2

theorem spans_of {k : AccKind} {n : Nat} {e : Thr} {va : Nat} (h : spansB k n e va = true) : Spans k n e va := by
  simp only [spansB, Bool.and_eq_true, decide_eq_true_eq] at h
  exact ⟨h.1.1, h.1.2, fun p hp => permitted_of (List.all_eq_true.mp h.2 p hp)⟩

theorem spans_all {k : AccKind} {n : Nat → Nat} {e : Nat → Thr} {va : Nat → Nat} {xs : List Nat}
    (h : (xs.all fun th => spansB k (n th) (e th) (va th)) = true) : ∀ th ∈ xs, Spans k (n th) (e th) (va th) :=
  fun th ht => spans_of (List.all_eq_true.mp h th ht)

/-- An open FP32 range of 64 bytes at 0 of the bench's team, FAST or ORDERED. -/
def range (ord : Bool) : Range :=
  { id := 5, launch := 1, isl := 0, team := 0, base := 0, len := 64, fmt64 := false, ord := ord, remain := 1, seqNext := 0 }

/-- The bench with its page at 0 present and that range open on it. -/
def benchOn (rs : List (Nat × Word)) (i : Instr) (ord : Bool) : State := { benchAt rs i page with ranges := [range ord] }

/-- Outside any range, on a present page: each reduction at memory, at the page and at the last word below die scratch, whose
page is not known. -/
theorem wit_ReductionsStart_memory :
    (∃ s l ls g, Runs (.redFast 16 8 0 false false) s l ls g ∧
      (∀ th ∈ l.execThreads false, pairAt s l g 8 th + bitsOf false / 8 ≤ 2 ^ 57 ∧ pairAt s l g 8 th % (bitsOf false / 8) = 0 ∧
        (viewOf s l g false th).rangeOf (pairAt s l g 8 th) = none) ∧
      ∀ th ∈ l.execThreads false, Spans .store (bitsOf false / 8) (viewOf s l g false th) (pairAt s l g 8 th)) ∧
    (∃ s l ls g, Runs (.redMin 16 8 0 false false) s l ls g ∧
      (∀ th ∈ l.execThreads false, pairAt s l g 8 th + bitsOf false / 8 ≤ 2 ^ 57 ∧ pairAt s l g 8 th % (bitsOf false / 8) = 0 ∧
        (viewOf s l g false th).rangeOf (pairAt s l g 8 th) = none) ∧
      ∀ th ∈ l.execThreads false, Spans .store (bitsOf false / 8) (viewOf s l g false th) (pairAt s l g 8 th)) ∧
    (∃ s l ls g, Runs (.redMax 16 8 0 false false) s l ls g ∧
      (∀ th ∈ l.execThreads false, pairAt s l g 8 th + bitsOf false / 8 ≤ 2 ^ 57 ∧ pairAt s l g 8 th % (bitsOf false / 8) = 0 ∧
        (viewOf s l g false th).rangeOf (pairAt s l g 8 th) = none) ∧
      ∀ th ∈ l.execThreads false, Spans .store (bitsOf false / 8) (viewOf s l g false th) (pairAt s l g 8 th)) ∧
    (∃ s l ls g, Runs (.rediAdd 16 8 0 false false) s l ls g ∧
      (∀ th ∈ l.execThreads false, pairAt s l g 8 th + bitsOf false / 8 ≤ 2 ^ 57 ∧ pairAt s l g 8 th % (bitsOf false / 8) = 0 ∧
        (viewOf s l g false th).rangeOf (pairAt s l g 8 th) = none) ∧
      ∀ th ∈ l.execThreads false, Spans .store (bitsOf false / 8) (viewOf s l g false th) (pairAt s l g 8 th)) ∧
    (∃ s l ls g, Runs (.rediMinI 16 8 0 false false) s l ls g ∧
      (∀ th ∈ l.execThreads false, pairAt s l g 8 th + bitsOf false / 8 ≤ 2 ^ 57 ∧ pairAt s l g 8 th % (bitsOf false / 8) = 0 ∧
        (viewOf s l g false th).rangeOf (pairAt s l g 8 th) = none) ∧
      ∀ th ∈ l.execThreads false, Spans .store (bitsOf false / 8) (viewOf s l g false th) (pairAt s l g 8 th)) ∧
    (∃ s l ls g, Runs (.rediMinB 16 8 0 false false) s l ls g ∧
      (∀ th ∈ l.execThreads false, pairAt s l g 8 th + bitsOf false / 8 ≤ 2 ^ 57 ∧ pairAt s l g 8 th % (bitsOf false / 8) = 0 ∧
        (viewOf s l g false th).rangeOf (pairAt s l g 8 th) = none) ∧
      ∀ th ∈ l.execThreads false, Spans .store (bitsOf false / 8) (viewOf s l g false th) (pairAt s l g 8 th)) ∧
    (∃ s l ls g, Runs (.rediMaxI 16 8 0 false false) s l ls g ∧
      (∀ th ∈ l.execThreads false, pairAt s l g 8 th + bitsOf false / 8 ≤ 2 ^ 57 ∧ pairAt s l g 8 th % (bitsOf false / 8) = 0 ∧
        (viewOf s l g false th).rangeOf (pairAt s l g 8 th) = none) ∧
      ∀ th ∈ l.execThreads false, Spans .store (bitsOf false / 8) (viewOf s l g false th) (pairAt s l g 8 th)) ∧
    (∃ s l ls g, Runs (.rediMaxB 16 8 0 false false) s l ls g ∧
      (∀ th ∈ l.execThreads false, pairAt s l g 8 th + bitsOf false / 8 ≤ 2 ^ 57 ∧ pairAt s l g 8 th % (bitsOf false / 8) = 0 ∧
        (viewOf s l g false th).rangeOf (pairAt s l g 8 th) = none) ∧
      ∀ th ∈ l.execThreads false, Spans .store (bitsOf false / 8) (viewOf s l g false th) (pairAt s l g 8 th)) ∧
    (∃ s l ls g, Runs (.rediAnd 16 8 0 false false) s l ls g ∧
      (∀ th ∈ l.execThreads false, pairAt s l g 8 th + bitsOf false / 8 ≤ 2 ^ 57 ∧ pairAt s l g 8 th % (bitsOf false / 8) = 0 ∧
        (viewOf s l g false th).rangeOf (pairAt s l g 8 th) = none) ∧
      ∀ th ∈ l.execThreads false, Spans .store (bitsOf false / 8) (viewOf s l g false th) (pairAt s l g 8 th)) ∧
    (∃ s l ls g, Runs (.rediOr 16 8 0 false false) s l ls g ∧
      (∀ th ∈ l.execThreads false, pairAt s l g 8 th + bitsOf false / 8 ≤ 2 ^ 57 ∧ pairAt s l g 8 th % (bitsOf false / 8) = 0 ∧
        (viewOf s l g false th).rangeOf (pairAt s l g 8 th) = none) ∧
      ∀ th ∈ l.execThreads false, Spans .store (bitsOf false / 8) (viewOf s l g false th) (pairAt s l g 8 th)) ∧
    (∃ s l ls g, Runs (.rediXor 16 8 0 false false) s l ls g ∧
      (∀ th ∈ l.execThreads false, pairAt s l g 8 th + bitsOf false / 8 ≤ 2 ^ 57 ∧ pairAt s l g 8 th % (bitsOf false / 8) = 0 ∧
        (viewOf s l g false th).rangeOf (pairAt s l g 8 th) = none) ∧
      ∀ th ∈ l.execThreads false, Spans .store (bitsOf false / 8) (viewOf s l g false th) (pairAt s l g 8 th)) ∧
    (∃ s l ls g, Runs (.redFast 16 8 0 false false) s l ls g ∧
      (∀ th ∈ l.execThreads false, pairAt s l g 8 th + bitsOf false / 8 ≤ 2 ^ 57 ∧ pairAt s l g 8 th % (bitsOf false / 8) = 0 ∧
        (viewOf s l g false th).rangeOf (pairAt s l g 8 th) = none) ∧
      ∀ th ∈ l.execThreads false, Spans .store (bitsOf false / 8) (viewOf s l g false th) (pairAt s l g 8 th)) :=
  ⟨⟨benchAt [] (.redFast 16 8 0 false false) page, lane (.redFast 16 8 0 false false), [], grp [], by unfold Runs; decide +kernel, by decide +kernel, spans_all (by decide +kernel)⟩,
   ⟨benchAt [] (.redMin 16 8 0 false false) page, lane (.redMin 16 8 0 false false), [], grp [], by unfold Runs; decide +kernel, by decide +kernel, spans_all (by decide +kernel)⟩,
   ⟨benchAt [] (.redMax 16 8 0 false false) page, lane (.redMax 16 8 0 false false), [], grp [], by unfold Runs; decide +kernel, by decide +kernel, spans_all (by decide +kernel)⟩,
   ⟨benchAt [] (.rediAdd 16 8 0 false false) page, lane (.rediAdd 16 8 0 false false), [], grp [], by unfold Runs; decide +kernel, by decide +kernel, spans_all (by decide +kernel)⟩,
   ⟨benchAt [] (.rediMinI 16 8 0 false false) page, lane (.rediMinI 16 8 0 false false), [], grp [], by unfold Runs; decide +kernel, by decide +kernel, spans_all (by decide +kernel)⟩,
   ⟨benchAt [] (.rediMinB 16 8 0 false false) page, lane (.rediMinB 16 8 0 false false), [], grp [], by unfold Runs; decide +kernel, by decide +kernel, spans_all (by decide +kernel)⟩,
   ⟨benchAt [] (.rediMaxI 16 8 0 false false) page, lane (.rediMaxI 16 8 0 false false), [], grp [], by unfold Runs; decide +kernel, by decide +kernel, spans_all (by decide +kernel)⟩,
   ⟨benchAt [] (.rediMaxB 16 8 0 false false) page, lane (.rediMaxB 16 8 0 false false), [], grp [], by unfold Runs; decide +kernel, by decide +kernel, spans_all (by decide +kernel)⟩,
   ⟨benchAt [] (.rediAnd 16 8 0 false false) page, lane (.rediAnd 16 8 0 false false), [], grp [], by unfold Runs; decide +kernel, by decide +kernel, spans_all (by decide +kernel)⟩,
   ⟨benchAt [] (.rediOr 16 8 0 false false) page, lane (.rediOr 16 8 0 false false), [], grp [], by unfold Runs; decide +kernel, by decide +kernel, spans_all (by decide +kernel)⟩,
   ⟨benchAt [] (.rediXor 16 8 0 false false) page, lane (.rediXor 16 8 0 false false), [], grp [], by unfold Runs; decide +kernel, by decide +kernel, spans_all (by decide +kernel)⟩,
   ⟨bench [(8, 0xFFFFFFFC), (9, 0x1FFFEFF)] (.redFast 16 8 0 false false), lane (.redFast 16 8 0 false false), [], grp [(8, 0xFFFFFFFC), (9, 0x1FFFEFF)], by unfold Runs; decide +kernel, by decide +kernel, spans_all (by decide +kernel)⟩⟩

/-- In a FAST range of its format RED fast contributes, in an ORDERED one RED ord, from its first to its last element. -/
theorem wit_ReductionsStart_range :
    (∃ s l ls g, Runs (.redFast 16 8 0 false false) s l ls g ∧
      ∀ th ∈ l.execThreads false, pairAt s l g 8 th + bitsOf false / 8 ≤ 2 ^ 57 ∧ pairAt s l g 8 th % (bitsOf false / 8) = 0 ∧
        (viewOf s l g false th).rangeOf (pairAt s l g 8 th) = some (range false) ∧ (range false).fmt64 = false ∧ (range false).ord = false) ∧
    (∃ s l ls g, Runs (.redOrd 16 8 24 false false) s l ls g ∧
      ∀ th ∈ l.execThreads false, pairAt s l g 8 th + bitsOf false / 8 ≤ 2 ^ 57 ∧ pairAt s l g 8 th % (bitsOf false / 8) = 0 ∧
        (viewOf s l g false th).rangeOf (pairAt s l g 8 th) = some (range true) ∧ (range true).fmt64 = false ∧ (range true).ord = true) :=
  ⟨⟨benchOn [(8, 60)] (.redFast 16 8 0 false false) false, lane (.redFast 16 8 0 false false), [], grp [(8, 60)], by unfold Runs; decide +kernel⟩,
   ⟨benchOn [(24, 65535)] (.redOrd 16 8 24 false false) true, lane (.redOrd 16 8 24 false false), [], grp [(24, 65535)], by unfold Runs; decide +kernel⟩⟩

/-- RED min, RED max and REDI in a range, and RED fast in an ORDERED one, are of the wrong format. -/
theorem wit_ReductionsStart_format :
    (∃ s l ls g, Runs (.redFast 16 8 0 false false) s l ls g ∧
      (∀ th ∈ l.execThreads false, pairAt s l g 8 th + bitsOf false / 8 ≤ 2 ^ 57 ∧ pairAt s l g 8 th % (bitsOf false / 8) = 0) ∧ 0 ∈ l.execThreads false ∧
      (viewOf s l g false 0).rangeOf (pairAt s l g 8 0) = some (range true) ∧ (range true).ord = true) ∧
    (∃ s l ls g, Runs (.redMin 16 8 0 false false) s l ls g ∧
      (∀ th ∈ l.execThreads false, pairAt s l g 8 th + bitsOf false / 8 ≤ 2 ^ 57 ∧ pairAt s l g 8 th % (bitsOf false / 8) = 0) ∧ 0 ∈ l.execThreads false ∧
      (viewOf s l g false 0).rangeOf (pairAt s l g 8 0) = some (range false)) ∧
    (∃ s l ls g, Runs (.redMax 16 8 0 false false) s l ls g ∧
      (∀ th ∈ l.execThreads false, pairAt s l g 8 th + bitsOf false / 8 ≤ 2 ^ 57 ∧ pairAt s l g 8 th % (bitsOf false / 8) = 0) ∧ 0 ∈ l.execThreads false ∧
      (viewOf s l g false 0).rangeOf (pairAt s l g 8 0) = some (range false)) ∧
    (∃ s l ls g, Runs (.rediAdd 16 8 0 false false) s l ls g ∧
      (∀ th ∈ l.execThreads false, pairAt s l g 8 th + bitsOf false / 8 ≤ 2 ^ 57 ∧ pairAt s l g 8 th % (bitsOf false / 8) = 0) ∧ 0 ∈ l.execThreads false ∧
      (viewOf s l g false 0).rangeOf (pairAt s l g 8 0) = some (range false)) ∧
    (∃ s l ls g, Runs (.rediMinI 16 8 0 false false) s l ls g ∧
      (∀ th ∈ l.execThreads false, pairAt s l g 8 th + bitsOf false / 8 ≤ 2 ^ 57 ∧ pairAt s l g 8 th % (bitsOf false / 8) = 0) ∧ 0 ∈ l.execThreads false ∧
      (viewOf s l g false 0).rangeOf (pairAt s l g 8 0) = some (range false)) ∧
    (∃ s l ls g, Runs (.rediMinB 16 8 0 false false) s l ls g ∧
      (∀ th ∈ l.execThreads false, pairAt s l g 8 th + bitsOf false / 8 ≤ 2 ^ 57 ∧ pairAt s l g 8 th % (bitsOf false / 8) = 0) ∧ 0 ∈ l.execThreads false ∧
      (viewOf s l g false 0).rangeOf (pairAt s l g 8 0) = some (range false)) ∧
    (∃ s l ls g, Runs (.rediMaxI 16 8 0 false false) s l ls g ∧
      (∀ th ∈ l.execThreads false, pairAt s l g 8 th + bitsOf false / 8 ≤ 2 ^ 57 ∧ pairAt s l g 8 th % (bitsOf false / 8) = 0) ∧ 0 ∈ l.execThreads false ∧
      (viewOf s l g false 0).rangeOf (pairAt s l g 8 0) = some (range false)) ∧
    (∃ s l ls g, Runs (.rediMaxB 16 8 0 false false) s l ls g ∧
      (∀ th ∈ l.execThreads false, pairAt s l g 8 th + bitsOf false / 8 ≤ 2 ^ 57 ∧ pairAt s l g 8 th % (bitsOf false / 8) = 0) ∧ 0 ∈ l.execThreads false ∧
      (viewOf s l g false 0).rangeOf (pairAt s l g 8 0) = some (range false)) ∧
    (∃ s l ls g, Runs (.rediAnd 16 8 0 false false) s l ls g ∧
      (∀ th ∈ l.execThreads false, pairAt s l g 8 th + bitsOf false / 8 ≤ 2 ^ 57 ∧ pairAt s l g 8 th % (bitsOf false / 8) = 0) ∧ 0 ∈ l.execThreads false ∧
      (viewOf s l g false 0).rangeOf (pairAt s l g 8 0) = some (range false)) ∧
    (∃ s l ls g, Runs (.rediOr 16 8 0 false false) s l ls g ∧
      (∀ th ∈ l.execThreads false, pairAt s l g 8 th + bitsOf false / 8 ≤ 2 ^ 57 ∧ pairAt s l g 8 th % (bitsOf false / 8) = 0) ∧ 0 ∈ l.execThreads false ∧
      (viewOf s l g false 0).rangeOf (pairAt s l g 8 0) = some (range false)) ∧
    (∃ s l ls g, Runs (.rediXor 16 8 0 false false) s l ls g ∧
      (∀ th ∈ l.execThreads false, pairAt s l g 8 th + bitsOf false / 8 ≤ 2 ^ 57 ∧ pairAt s l g 8 th % (bitsOf false / 8) = 0) ∧ 0 ∈ l.execThreads false ∧
      (viewOf s l g false 0).rangeOf (pairAt s l g 8 0) = some (range false)) :=
  ⟨⟨benchOn [] (.redFast 16 8 0 false false) true, lane (.redFast 16 8 0 false false), [], grp [], by unfold Runs; decide +kernel⟩,
   ⟨benchOn [] (.redMin 16 8 0 false false) false, lane (.redMin 16 8 0 false false), [], grp [], by unfold Runs; decide +kernel⟩,
   ⟨benchOn [] (.redMax 16 8 0 false false) false, lane (.redMax 16 8 0 false false), [], grp [], by unfold Runs; decide +kernel⟩,
   ⟨benchOn [] (.rediAdd 16 8 0 false false) false, lane (.rediAdd 16 8 0 false false), [], grp [], by unfold Runs; decide +kernel⟩,
   ⟨benchOn [] (.rediMinI 16 8 0 false false) false, lane (.rediMinI 16 8 0 false false), [], grp [], by unfold Runs; decide +kernel⟩,
   ⟨benchOn [] (.rediMinB 16 8 0 false false) false, lane (.rediMinB 16 8 0 false false), [], grp [], by unfold Runs; decide +kernel⟩,
   ⟨benchOn [] (.rediMaxI 16 8 0 false false) false, lane (.rediMaxI 16 8 0 false false), [], grp [], by unfold Runs; decide +kernel⟩,
   ⟨benchOn [] (.rediMaxB 16 8 0 false false) false, lane (.rediMaxB 16 8 0 false false), [], grp [], by unfold Runs; decide +kernel⟩,
   ⟨benchOn [] (.rediAnd 16 8 0 false false) false, lane (.rediAnd 16 8 0 false false), [], grp [], by unfold Runs; decide +kernel⟩,
   ⟨benchOn [] (.rediOr 16 8 0 false false) false, lane (.rediOr 16 8 0 false false), [], grp [], by unfold Runs; decide +kernel⟩,
   ⟨benchOn [] (.rediXor 16 8 0 false false) false, lane (.rediXor 16 8 0 false false), [], grp [], by unfold Runs; decide +kernel⟩⟩

/-- RED ord in a FAST range. -/
theorem wit_ReductionsStart_ordered :
    ∃ s l ls g, Runs (.redOrd 16 8 24 false false) s l ls g ∧
      (∀ th ∈ l.execThreads false, pairAt s l g 8 th + bitsOf false / 8 ≤ 2 ^ 57 ∧ pairAt s l g 8 th % (bitsOf false / 8) = 0) ∧ 0 ∈ l.execThreads false ∧
      (viewOf s l g false 0).rangeOf (pairAt s l g 8 0) = some (range false) ∧ (range false).ord = false :=
  ⟨benchOn [] (.redOrd 16 8 24 false false) false, lane (.redOrd 16 8 24 false false), [], grp [], by unfold Runs; decide +kernel⟩

theorem wit_ReductionsStart_uniform :
    ∀ i ∈ ([.redFast 16 8 0 false true, .redMin 16 8 0 false true, .redMax 16 8 0 false true, .rediAdd 16 8 0 false true, .rediMinI 16 8 0 false true, .rediMinB 16 8 0 false true, .rediMaxI 16 8 0 false true, .rediMaxB 16 8 0 false true, .rediAnd 16 8 0 false true, .rediOr 16 8 0 false true, .rediXor 16 8 0 false true] : List Instr),
      ∃ s l ls g, Runs i s l ls g :=
  all_meet (by decide +kernel)

/-- One thread opens 64 bytes at 0 of a present page. -/
theorem wit_AccumulatorWordsStart_open :
    ∃ s l ls g, Runs (.accopen 16 8 24 true) s l ls g ∧
      ∀ th ∈ l.execThreads true, ∀ c ∈ accOpenChecks (fun e => e.adr 8) (fun e => (e.v32 24).toNat) (fun e => (e.v64 16).toNat)
      (fun e => ((l.execThreads true).filter (· ≠ e.t)).map (fun t => (pairAt s l g 8 t, wordAt s l g 24 t))), c (viewOf s l g false th) = none :=
  ⟨benchAt [(16, 0x10000), (24, 64)] (.accopen 16 8 24 true) page, lane (.accopen 16 8 24 true), [], grp [(16, 0x10000), (24, 64)], by unfold Runs; decide +kernel⟩

theorem wit_AccumulatorWordsStart_close :
    ∃ s l ls g, Runs (.accclose 0 8 0 true) s l ls g ∧
      ∀ th ∈ l.execThreads true, pairAt s l g 8 th < 2 ^ 57 ∧
      (s.ranges.find? (fun r => decide (r.isl = l.core / 256) && decide (r.launch = l.launch) && decide (r.base = pairAt s l g 8 th)) = some (range false) ∧
        (range false).st ≠ .closing ∧ (range false).closer = 0) ∧
      ∀ t ∈ l.execThreads true, pairAt s l g 8 t = pairAt s l g 8 th → t = th :=
  ⟨benchOn [] (.accclose 0 8 0 true) false, lane (.accclose 0 8 0 true), [], grp [], by unfold Runs; decide +kernel⟩

/-- A row of 4 bytes that ends where the range ends. -/
theorem wit_AccumulatorWordsStart_scale :
    ∃ s l ls g, Runs (.accscale 16 8 24 false) s l ls g ∧
      (viewOf s l g false l.lowest).rangeOf (pairAt s l g 8 l.lowest) = some (range true) ∧
      ∀ th ∈ l.execThreads false, pairAt s l g 8 th < 2 ^ 57 ∧ pairAt s l g 8 th + pairAt s l g 16 th / 2 ^ 32 ≤ 2 ^ 57 ∧
        (range true).base ≤ pairAt s l g 8 th ∧ pairAt s l g 8 th + pairAt s l g 16 th / 2 ^ 32 ≤ (range true).base + (range true).len ∧
        pairAt s l g 16 th / 2 ^ 32 ≠ 0 ∧ pairAt s l g 8 th % (range true).size = 0 ∧ pairAt s l g 16 th / 2 ^ 32 % (range true).size = 0 :=
  ⟨benchOn [(8, 60), (17, 4)] (.accscale 16 8 24 false) true, lane (.accscale 16 8 24 false), [], grp [(8, 60), (17, 4)], by unfold Runs; decide +kernel⟩

/-- 64 bytes at 0 of a present page of grain 32: the whole range. -/
theorem wit_AccumulatorWordsStart_zero :
    ∃ s l ls g, Runs (.acczero 0 8 24 false) s l ls g ∧
      (∀ th ∈ l.execThreads false, Spans .store (wordAt s l g 24 th) (viewOf s l g false th) (pairAt s l g 8 th)) ∧
      ∀ th ∈ l.execThreads false, pairAt s l g 8 th % 32 = 0 ∧ wordAt s l g 24 th % 32 = 0 ∧
        (∀ p ∈ (viewOf s l g false th).pages (pairAt s l g 8 th) (wordAt s l g 24 th),
          pairAt s l g 8 th % grainOf p.2.leaf = 0 ∧ wordAt s l g 24 th % grainOf p.2.leaf = 0) ∧
        ((viewOf s l g false th).rangeMeets (pairAt s l g 8 th) (wordAt s l g 24 th) = some (range true) ∧
          (range true).base ≤ pairAt s l g 8 th ∧ pairAt s l g 8 th + wordAt s l g 24 th ≤ (range true).base + (range true).len) :=
  ⟨benchOn [(24, 64)] (.acczero 0 8 24 false) true, lane (.acczero 0 8 24 false), [], grp [(24, 64)], by unfold Runs; decide +kernel, spans_all (by decide +kernel), by decide +kernel⟩

/-- The last byte of the page, and bytes of pages that are not known. -/
theorem wit_CacheControl_spans :
    (∃ s l ls g, Runs (.cflush 0 8 24 false) s l ls g ∧
      ∀ th ∈ l.execThreads false, Spans .load (wordAt s l g 24 th) (viewOf s l g false th) (pairAt s l g 8 th)) ∧
    (∃ s l ls g, Runs (.cflush 0 8 24 false) s l ls g ∧
      ∀ th ∈ l.execThreads false, Spans .load (wordAt s l g 24 th) (viewOf s l g false th) (pairAt s l g 8 th)) ∧
    (∃ s l ls g, Runs (.cinv 0 8 24 false) s l ls g ∧
      ∀ th ∈ l.execThreads false, Spans .load (wordAt s l g 24 th) (viewOf s l g false th) (pairAt s l g 8 th)) ∧
    (∃ s l ls g, Runs (.cinv 0 8 24 false) s l ls g ∧
      ∀ th ∈ l.execThreads false, Spans .load (wordAt s l g 24 th) (viewOf s l g false th) (pairAt s l g 8 th)) :=
  ⟨⟨benchAt [(8, 65535), (24, 1)] (.cflush 0 8 24 false) page, lane (.cflush 0 8 24 false), [], grp [(8, 65535), (24, 1)], by unfold Runs; decide +kernel, spans_all (by decide +kernel)⟩,
   ⟨bench [(9, 0x1FFFE00), (24, 4096)] (.cflush 0 8 24 false), lane (.cflush 0 8 24 false), [], grp [(9, 0x1FFFE00), (24, 4096)], by unfold Runs; decide +kernel, spans_all (by decide +kernel)⟩,
   ⟨benchAt [(8, 65535), (24, 1)] (.cinv 0 8 24 false) page, lane (.cinv 0 8 24 false), [], grp [(8, 65535), (24, 1)], by unfold Runs; decide +kernel, spans_all (by decide +kernel)⟩,
   ⟨bench [(9, 0x1FFFE00), (24, 4096)] (.cinv 0 8 24 false), lane (.cinv 0 8 24 false), [], grp [(9, 0x1FFFE00), (24, 4096)], by unfold Runs; decide +kernel, spans_all (by decide +kernel)⟩⟩

/-- The last byte of the first frame of the page. -/
theorem wit_CacheControl_pin :
    ∃ s l ls g, Runs (.cspan 16 8 false 4 true) s l ls g ∧
      ∃ t, (viewOf s l g true 0).present (pairAt s l g 8 l.lowest / 4096 * 4096) = some t ∧ t.scratch = false ∧ t.home < s.dies.length ∧
      pairAt s l g 8 l.lowest < 2 ^ 57 ∧ 0 < wordAt s l g 16 l.lowest ∧ pairAt s l g 8 l.lowest % 4096 + wordAt s l g 16 l.lowest ≤ 4096 :=
  ⟨benchAt [(8, 4095), (16, 1)] (.cspan 16 8 false 4 true) page, lane (.cspan 16 8 false 4 true), [], grp [(8, 4095), (16, 1)], by unfold Runs; decide +kernel, { page := 0, size := 65536, pa := 0, leaf := page }, by decide +kernel⟩

/-- An object at 32 of the own local store, with nothing of the group under way; one thread. -/
theorem wit_BarrierWords :
    (∃ s l ls g, Runs (.binit 16 8 0 true) s l ls g ∧
      (∀ th ∈ l.execThreads true, LocalByte s l (wordAt s l g 8 th) ∧ wordAt s l g 8 th % 32 = 0 ∧ wordAt s l g 8 th / 2 ^ 19 % 2 = 0) ∧
      LocalIdle s l g team ∧ wordAt s l g 8 l.lowest < 2 ^ 19) ∧
    (∃ s l ls g, Runs (.binval 0 8 0 true) s l ls g ∧
      (∀ th ∈ l.execThreads true, LocalByte s l (wordAt s l g 8 th) ∧ wordAt s l g 8 th % 32 = 0 ∧ wordAt s l g 8 th / 2 ^ 19 % 2 = 0) ∧
      LocalIdle s l g team ∧ wordAt s l g 8 l.lowest < 2 ^ 19) ∧
    (∃ s l ls g, Runs (.barv 0 8 24 true) s l ls g ∧
      (∀ th ∈ l.execThreads true, LocalByte s l (wordAt s l g 8 th) ∧ wordAt s l g 8 th % 32 = 0) ∧
      LocalIdle s l g team ∧ wordAt s l g 8 l.lowest < 2 ^ 19) ∧
    (∃ s l ls g, Runs (.barvImm 0 8 1 true) s l ls g ∧
      (∀ th ∈ l.execThreads true, LocalByte s l (wordAt s l g 8 th) ∧ wordAt s l g 8 th % 32 = 0) ∧
      LocalIdle s l g team ∧ wordAt s l g 8 l.lowest < 2 ^ 19) ∧
    (∃ s l ls g, Runs (.bexp 0 8 24 true) s l ls g ∧
      (∀ th ∈ l.execThreads true, LocalByte s l (wordAt s l g 8 th) ∧ wordAt s l g 8 th % 32 = 0 ∧ wordAt s l g 8 th / 2 ^ 19 % 2 = 0) ∧
      LocalIdle s l g team ∧ wordAt s l g 8 l.lowest < 2 ^ 19) ∧
    (∃ s l ls g, Runs (.bwait 0 8 24 false) s l ls g ∧
      LocalByte s l (wordAt s l g 8 l.lowest) ∧ wordAt s l g 8 l.lowest / 2 ^ 19 % 2 = 0 ∧ wordAt s l g 8 l.lowest % 32 = 0) ∧
    (∃ s l ls g, Runs (.bsync 0 8 24 false) s l ls g ∧
      LocalByte s l (wordAt s l g 8 l.lowest) ∧ wordAt s l g 8 l.lowest / 2 ^ 19 % 2 = 0 ∧ wordAt s l g 8 l.lowest % 32 = 0) :=
  ⟨⟨bench [(8, 32)] (.binit 16 8 0 true), lane (.binit 16 8 0 true), [], grp [(8, 32)], by unfold Runs; decide +kernel, localByte_all team (by decide +kernel) (by decide +kernel), by unfold LocalIdle; decide +kernel, by decide +kernel⟩,
   ⟨bench [(8, 32)] (.binval 0 8 0 true), lane (.binval 0 8 0 true), [], grp [(8, 32)], by unfold Runs; decide +kernel, localByte_all team (by decide +kernel) (by decide +kernel), by unfold LocalIdle; decide +kernel, by decide +kernel⟩,
   ⟨bench [(8, 32)] (.barv 0 8 24 true), lane (.barv 0 8 24 true), [], grp [(8, 32)], by unfold Runs; decide +kernel, localByte_all team (by decide +kernel) (by decide +kernel), by unfold LocalIdle; decide +kernel, by decide +kernel⟩,
   ⟨bench [(8, 32)] (.barvImm 0 8 1 true), lane (.barvImm 0 8 1 true), [], grp [(8, 32)], by unfold Runs; decide +kernel, localByte_all team (by decide +kernel) (by decide +kernel), by unfold LocalIdle; decide +kernel, by decide +kernel⟩,
   ⟨bench [(8, 32)] (.bexp 0 8 24 true), lane (.bexp 0 8 24 true), [], grp [(8, 32)], by unfold Runs; decide +kernel, localByte_all team (by decide +kernel) (by decide +kernel), by unfold LocalIdle; decide +kernel, by decide +kernel⟩,
   ⟨bench [(8, 0x7FFE0)] (.bwait 0 8 24 false), lane (.bwait 0 8 24 false), [], grp [(8, 0x7FFE0)], by unfold Runs; decide +kernel, ⟨team, by decide +kernel⟩, by decide +kernel⟩,
   ⟨bench [(8, 0x7FFE0)] (.bsync 0 8 24 false), lane (.bsync 0 8 24 false), [], grp [(8, 0x7FFE0)], by unfold Runs; decide +kernel, ⟨team, by decide +kernel⟩, by decide +kernel⟩⟩

/-- With an operation on the object still in the stream, and without one. -/
theorem wit_BarrierWords_btest :
    (∃ s l ls g, Runs (.btest 16 8 24 false) s l ls g ∧
      (∀ th ∈ l.execThreads false, LocalByte s l (wordAt s l g 8 th) ∧ wordAt s l g 8 th / 2 ^ 19 % 2 = 0 ∧ wordAt s l g 8 th % 32 = 0) ∧
      ∃ th ∈ l.execThreads false, g.pendingOn (wordAt s l g 8 th % 2 ^ 19) = true) ∧
    (∃ s l ls g, Runs (.btest 16 8 24 false) s l ls g ∧
      (∀ th ∈ l.execThreads false, LocalByte s l (wordAt s l g 8 th) ∧ wordAt s l g 8 th / 2 ^ 19 % 2 = 0 ∧ wordAt s l g 8 th % 32 = 0) ∧
      (∀ th ∈ l.execThreads false, g.pendingOn (wordAt s l g 8 th % 2 ^ 19) = false) ∧ s.team? l.launch l.team = some team ∧ team.loose = []) :=
  ⟨⟨{ bench [(8, 32)] (.btest 16 8 24 false) with groups := [{ grp [(8, 32)] with stream := [{ id := 9, addr := 32, kind := .barv 1, after := 0 }] }] }, lane (.btest 16 8 24 false), [], { grp [(8, 32)] with stream := [{ id := 9, addr := 32, kind := .barv 1, after := 0 }] }, by unfold Runs; decide +kernel, localByte_all team (by decide +kernel) (by decide +kernel), 0, by decide +kernel⟩,
   ⟨bench [(8, 32)] (.btest 16 8 24 false), lane (.btest 16 8 24 false), [], grp [(8, 32)], by unfold Runs; decide +kernel, localByte_all team (by decide +kernel) (by decide +kernel), by decide +kernel⟩⟩

/-- The bench's team with a valid barrier object at 32: 2 arrivals expected and none pending; one expected; 65535 expected and
65534 pending, with as many remote ones. -/
def barTeam (loc : Cells Byte) : Team := { team with loc := loc }

theorem wit_BarrierEvents :
    ∀ m ∈ ([[(32, 1), (36, 2), (56, 1)], [(32, 1), (36, 1), (56, 1)],
        [(32, 1), (36, 255), (37, 255), (38, 254), (39, 255), (52, 255), (53, 255), (54, 254), (55, 255), (56, 1)]] : List (Cells Byte)),
      ({ idle with teams := [barTeam m] } : State).team? 1 0 = some (barTeam m) ∧ (barTeam m).barValid 32 = true ∧
        (barTeam m).loose = [] ∧ (barTeam m).ngrp ≤ 64 := by decide +kernel

/-- The bench's team with tiles 0 and 1 of 1 by 32 and 32 by 1 BF16, tile 31 of 16 by 16 FP64, and rings 0 and 7 of one tile
each, ring 0 (tile 2) enabled and holding its tile, ring 7 disabled. -/
def tileTeam : Team :=
  { team with
    tiles := { shape := 0x1001F } :: { shape := 0x11F00 } :: (List.replicate 29 {} ++ [{ shape := 0x90F0F }])
    rings := { desc := 0x80000002, p := 1 } :: List.replicate 7 {} }

/-- A team of 31 tiles and 7 rings. -/
def smallTeam : Team := { team with ntile := 31, nring := 7, tiles := List.replicate 31 {}, rings := List.replicate 7 {} }

/-- The bench with the first of these teams. -/
def benchT (rs : List (Nat × Word)) (i : Instr) : State := { benchAt rs i page with teams := [tileTeam] }

/-- The last tile, and the last element of it. -/
theorem wit_TileElements :
    (∃ s l ls g, Runs (.movts 31 8 0 false) s l ls g ∧
      s.team? l.launch l.team = some tileTeam ∧ tileTeam.tiles.length = tileTeam.ntile ∧ (31 : BitVec 7).toNat < tileTeam.ntile ∧
      tileTeam.member (31 : BitVec 7).toNat = false ∧ (∀ th ∈ l.execThreads false, shapeOk ((viewOf s l g false th).v32 8) = true) ∧ l.execThreads false ≠ []) ∧
    (∃ s l ls g, Runs (.movst 16 31 0 false) s l ls g ∧
      s.team? l.launch l.team = some tileTeam ∧ tileTeam.tiles.length = tileTeam.ntile ∧ (31 : BitVec 7).toNat < tileTeam.ntile) ∧
    (∃ s l ls g, Runs (.tzero 31 0 0 false) s l ls g ∧
      s.team? l.launch l.team = some tileTeam ∧ tileTeam.tiles.length = tileTeam.ntile ∧ (31 : BitVec 7).toNat < tileTeam.ntile ∧ tileTeam.member (31 : BitVec 7).toNat = false) ∧
    (∃ s l ls g, Runs (.twr 31 8 24 true) s l ls g ∧
      s.team? l.launch l.team = some tileTeam ∧ tileTeam.tiles.length = tileTeam.ntile ∧ (31 : BitVec 7).toNat < tileTeam.ntile ∧
      tileTeam.member (31 : BitVec 7).toNat = false ∧ ∀ th ∈ l.execThreads true, wordAt s l g 24 th < shapeRows (tileTeam.tile 31).shape * shapeCols (tileTeam.tile 31).shape) ∧
    (∃ s l ls g, Runs (.trd 16 31 24 false) s l ls g ∧
      s.team? l.launch l.team = some tileTeam ∧ tileTeam.tiles.length = tileTeam.ntile ∧ (31 : BitVec 7).toNat < tileTeam.ntile ∧
      (∀ th ∈ l.execThreads false, wordAt s l g 24 th < shapeRows (tileTeam.tile 31).shape * shapeCols (tileTeam.tile 31).shape) ∧ (tileTeam.tile 31).st = .ready) :=
  ⟨⟨benchT [(8, 0x107FF)] (.movts 31 8 0 false), lane (.movts 31 8 0 false), [], grp [(8, 0x107FF)], by unfold Runs; decide +kernel⟩,
   ⟨benchT [] (.movst 16 31 0 false), lane (.movst 16 31 0 false), [], grp [], by unfold Runs; decide +kernel⟩,
   ⟨benchT [] (.tzero 31 0 0 false), lane (.tzero 31 0 0 false), [], grp [], by unfold Runs; decide +kernel⟩,
   ⟨benchT [(24, 255)] (.twr 31 8 24 true), lane (.twr 31 8 24 true), [], grp [(24, 255)], by unfold Runs; decide +kernel⟩,
   ⟨benchT [(24, 255)] (.trd 16 31 24 false), lane (.trd 16 31 24 false), [], grp [(24, 255)], by unfold Runs; decide +kernel⟩⟩

/-- Tile 31 of a team of 31, a member of a ring, a shape with a reserved bit. -/
theorem wit_TileElements_bad :
    (∃ s l ls g, Runs (.movts 31 8 0 false) s l ls g ∧
      s.team? l.launch l.team = some smallTeam ∧ smallTeam.ntile ≤ (31 : BitVec 7).toNat ∧ l.execThreads false ≠ []) ∧
    (∃ s l ls g, Runs (.movts 2 8 0 false) s l ls g ∧
      s.team? l.launch l.team = some tileTeam ∧ tileTeam.member (2 : BitVec 7).toNat = true ∧ l.execThreads false ≠ []) ∧
    (∃ s l ls g, Runs (.movts 31 8 0 false) s l ls g ∧
      s.team? l.launch l.team = some tileTeam ∧ (∃ th ∈ l.execThreads false, shapeOk ((viewOf s l g false th).v32 8) = false) ∧ l.execThreads false ≠ []) :=
  ⟨⟨{ bench [] (.movts 31 8 0 false) with teams := [smallTeam] }, lane (.movts 31 8 0 false), [], grp [], by unfold Runs; decide +kernel⟩,
   ⟨benchT [] (.movts 2 8 0 false), lane (.movts 2 8 0 false), [], grp [], by unfold Runs; decide +kernel⟩,
   ⟨benchT [(8, 0x100000)] (.movts 31 8 0 false), lane (.movts 31 8 0 false), [], grp [(8, 0x100000)], by unfold Runs; decide +kernel⟩⟩

/-- Tile 31 of a team of 31 for the others as well; a ring member for TZERO and TWR; the index past the last of 256 elements. -/
theorem wit_TileElements_others :
    (∀ i ∈ ([.movst 16 31 0 false, .tzero 31 0 0 false, .twr 31 8 24 false, .trd 16 31 24 false] : List Instr),
      ∃ s l ls g, Runs i s l ls g ∧ s.team? l.launch l.team = some smallTeam ∧ smallTeam.ntile ≤ 31 ∧ l.execThreads false ≠ []) ∧
    (∀ i ∈ ([.tzero 2 0 0 false, .twr 2 8 24 false] : List Instr),
      ∃ s l ls g, Runs i s l ls g ∧ s.team? l.launch l.team = some tileTeam ∧ tileTeam.member 2 = true ∧ l.execThreads false ≠ []) ∧
    (∀ i ∈ ([.twr 31 8 24 false, .trd 16 31 24 false] : List Instr),
      ∃ s l ls g, Runs i s l ls g ∧ s.team? l.launch l.team = some tileTeam ∧ l.execThreads false ≠ [] ∧
        ∃ th ∈ l.execThreads false, shapeRows (tileTeam.tile 31).shape * shapeCols (tileTeam.tile 31).shape ≤ wordAt s l g 24 th) := by
  refine ⟨?_, ?_, ?_⟩
  · intro i hi
    refine ⟨{ bench [] i with teams := [smallTeam] }, lane i, [], grp [], ?_⟩
    revert i
    unfold Runs
    decide +kernel
  · intro i hi
    refine ⟨benchT [] i, lane i, [], grp [], ?_⟩
    revert i
    unfold Runs
    decide +kernel
  · intro i hi
    refine ⟨benchT [(24, 256)] i, lane i, [], grp [(24, 256)], ?_⟩
    revert i
    unfold Runs
    decide +kernel

/-- The last tile at 0 of the present page; an operand-buffer slot of a launch that has one; the last metadata slot. -/
theorem wit_TileTransfers :
    (∃ s l ls g, Runs (.tld 31 8 0 true) s l ls g ∧
      (s.team? l.launch l.team = some tileTeam ∧ tileTeam.tiles.length = tileTeam.ntile ∧ (31 : BitVec 7).toNat < tileTeam.ntile ∧
      tileTeam.member (31 : BitVec 7).toNat = false ∧ ∀ th ∈ l.execThreads true, pairAt s l g 8 th % 32 = 0) ∧
      ∀ th ∈ l.execThreads true, Spans .load (shapeSize (tileTeam.tile 31).shape) (viewOf s l g false th) (pairAt s l g 8 th)) ∧
    (∃ s l ls g, Runs (.tldOb 31 8 0 true) s l ls g ∧
      s.team? l.launch l.team = some tileTeam ∧ tileTeam.tiles.length = tileTeam.ntile ∧ (31 : BitVec 7).toNat < tileTeam.ntile ∧
      tileTeam.member (31 : BitVec 7).toNat = false ∧ ∀ th ∈ l.execThreads true, wordAt s l g 8 th < ((s.launch? l.launch).map (fun x => x.bits 3 32 32)).getD 0) ∧
    (∃ s l ls g, Runs (.tst 31 8 0 true) s l ls g ∧
      (s.team? l.launch l.team = some tileTeam ∧ tileTeam.tiles.length = tileTeam.ntile ∧ (31 : BitVec 7).toNat < tileTeam.ntile ∧
      (tileTeam.tile 31).st = .ready ∧ ∀ th ∈ l.execThreads true, pairAt s l g 8 th % 32 = 0) ∧
      ∀ th ∈ l.execThreads true, Spans .store (shapeSize (tileTeam.tile 31).shape) (viewOf s l g false th) (pairAt s l g 8 th)) ∧
    (∃ s l ls g, Runs (.ldmeta 7 8 0 true) s l ls g ∧
      (s.team? l.launch l.team = some tileTeam ∧ tileTeam.tiles.length = tileTeam.ntile ∧ (7 : BitVec 7).toNat < tileTeam.nmeta ∧ ∀ th ∈ l.execThreads true, pairAt s l g 8 th % 32 = 0) ∧
      ∀ th ∈ l.execThreads true, Spans .load 2048 (viewOf s l g false th) (pairAt s l g 8 th)) :=
  ⟨⟨benchT [] (.tld 31 8 0 true), lane (.tld 31 8 0 true), [], grp [], by unfold Runs; decide +kernel, by decide +kernel, spans_all (by decide +kernel)⟩,
   ⟨{ benchT [] (.tldOb 31 8 0 true) with launches := [{ num := 1, queue := 1, cores := [0], counts := [0], phase := .placed, block := [0, 0, 0, 0x100000000] }] }, lane (.tldOb 31 8 0 true), [], grp [], by unfold Runs; decide +kernel⟩,
   ⟨benchT [] (.tst 31 8 0 true), lane (.tst 31 8 0 true), [], grp [], by unfold Runs; decide +kernel, by decide +kernel, spans_all (by decide +kernel)⟩,
   ⟨benchT [] (.ldmeta 7 8 0 true), lane (.ldmeta 7 8 0 true), [], grp [], by unfold Runs; decide +kernel, by decide +kernel, spans_all (by decide +kernel)⟩⟩

/-- Ring 7 is given tiles 3 and 4; ring 0, enabled, is disabled; ring 7 is disabled once more. -/
theorem wit_TileRings :
    (∃ s l ls g, Runs (.tring 7 8 0 false) s l ls g ∧
      s.team? l.launch l.team = some tileTeam ∧ tileTeam.tiles.length = tileTeam.ntile ∧ tileTeam.rings.length = tileTeam.nring ∧ (7 : BitVec 7).toNat < tileTeam.nring ∧
      ((viewOf s l g true 0).v32 8).toNat / 2 ^ 10 % 2 ^ 21 = 0 ∧ ({ desc := (viewOf s l g true 0).v32 8 } : Ring).en = true ∧ (tileTeam.ring 7).en = false ∧
      (∀ k ∈ ({ desc := (viewOf s l g true 0).v32 8 } : Ring).members, k < tileTeam.ntile ∧ (tileTeam.tile k).st ≠ .filling ∧ tileTeam.member k = false) ∧
      ∀ c ∈ s.copies, ¬(c.launch = l.launch ∧ c.team = l.team ∧ c.tileRing = some 7 ∧ c.complete = false)) ∧
    (∃ s l ls g, Runs (.tring 0 8 0 false) s l ls g ∧
      s.team? l.launch l.team = some tileTeam ∧ tileTeam.tiles.length = tileTeam.ntile ∧ tileTeam.rings.length = tileTeam.nring ∧ (0 : BitVec 7).toNat < tileTeam.nring ∧
      ((viewOf s l g true 0).v32 8).toNat / 2 ^ 10 % 2 ^ 21 = 0 ∧ ({ desc := (viewOf s l g true 0).v32 8 } : Ring).en = false ∧ (tileTeam.ring 0).en = true ∧
      (∀ k ∈ (tileTeam.ring 0).members, k < tileTeam.ntile ∧ (tileTeam.tile k).st ≠ .filling ∧ (tileTeam.tile k).st ≠ .draining) ∧
      (∀ m ∈ s.mmas, ¬(m.launch = l.launch ∧ m.team = l.team ∧ m.readsRing 0 = true)) ∧
      ∀ c ∈ s.copies, ¬(c.launch = l.launch ∧ c.team = l.team ∧ c.tileRing = some 0 ∧ c.complete = false)) ∧
    (∃ s l ls g, Runs (.tring 7 8 0 false) s l ls g ∧
      s.team? l.launch l.team = some tileTeam ∧ tileTeam.tiles.length = tileTeam.ntile ∧ tileTeam.rings.length = tileTeam.nring ∧ (7 : BitVec 7).toNat < tileTeam.nring ∧
      ((viewOf s l g true 0).v32 8).toNat / 2 ^ 10 % 2 ^ 21 = 0 ∧ ({ desc := (viewOf s l g true 0).v32 8 } : Ring).en = false ∧ (tileTeam.ring 7).en = false) :=
  ⟨⟨benchT [(8, 0x80000023)] (.tring 7 8 0 false), lane (.tring 7 8 0 false), [], grp [(8, 0x80000023)], by unfold Runs; decide +kernel⟩,
   ⟨benchT [] (.tring 0 8 0 false), lane (.tring 0 8 0 false), [], grp [], by unfold Runs; decide +kernel⟩,
   ⟨benchT [] (.tring 7 8 0 false), lane (.tring 7 8 0 false), [], grp [], by unfold Runs; decide +kernel⟩⟩

theorem wit_TileRings_bad :
    (∃ s l ls g, Runs (.tring 7 8 0 false) s l ls g ∧
      s.team? l.launch l.team = some smallTeam ∧ smallTeam.nring ≤ (7 : BitVec 7).toNat) ∧
    (∃ s l ls g, Runs (.tring 7 8 0 false) s l ls g ∧
      s.team? l.launch l.team = some tileTeam ∧ ((viewOf s l g true 0).v32 8).toNat / 2 ^ 10 % 2 ^ 21 ≠ 0) ∧
    (∃ s l ls g, Runs (.tring 0 8 0 false) s l ls g ∧
      s.team? l.launch l.team = some tileTeam ∧ ({ desc := (viewOf s l g true 0).v32 8 } : Ring).en = true ∧ (tileTeam.ring 0).en = true) :=
  ⟨⟨{ bench [] (.tring 7 8 0 false) with teams := [smallTeam] }, lane (.tring 7 8 0 false), [], grp [], by unfold Runs; decide +kernel⟩,
   ⟨benchT [(8, 0x40000000)] (.tring 7 8 0 false), lane (.tring 7 8 0 false), [], grp [(8, 0x40000000)], by unfold Runs; decide +kernel⟩,
   ⟨benchT [(8, 0x80000002)] (.tring 0 8 0 false), lane (.tring 0 8 0 false), [], grp [(8, 0x80000002)], by unfold Runs; decide +kernel⟩⟩

/-- Ring 0 holds its tile; ring 7 of a team of 7 is none; ring 7 is disabled; ring 0 with both pointers equal is empty. -/
theorem wit_TileRings_trel :
    (∃ s l ls g, Runs (.trel 0 0 0 false) s l ls g ∧
      s.team? l.launch l.team = some tileTeam ∧ tileTeam.tiles.length = tileTeam.ntile ∧ tileTeam.rings.length = tileTeam.nring ∧ (0 : BitVec 7).toNat < tileTeam.nring ∧ (tileTeam.ring 0).en = true ∧
      (tileTeam.ring 0).p % 65536 ≠ (tileTeam.ring 0).c % 65536 ∧ (tileTeam.ring 0).p < 65536 ∧ (tileTeam.ring 0).c < 65536 ∧
      (tileTeam.ring 0).tileAt (tileTeam.ring 0).c < tileTeam.ntile) ∧
    (∃ s l ls g, Runs (.trel 7 0 0 false) s l ls g ∧
      s.team? l.launch l.team = some smallTeam ∧ smallTeam.tiles.length = smallTeam.ntile ∧ smallTeam.rings.length = smallTeam.nring ∧
      smallTeam.nring ≤ (7 : BitVec 7).toNat) ∧
    (∃ s l ls g, Runs (.trel 7 0 0 false) s l ls g ∧
      s.team? l.launch l.team = some tileTeam ∧ tileTeam.tiles.length = tileTeam.ntile ∧ tileTeam.rings.length = tileTeam.nring ∧ (tileTeam.ring 7).en = false) ∧
    (∃ s l ls g, Runs (.trel 0 0 0 false) s l ls g ∧
      s.team? l.launch l.team = some ({ tileTeam with rings := { desc := 0x80000002 } :: List.replicate 7 {} } : Team) ∧
      ({ tileTeam with rings := { desc := 0x80000002 } :: List.replicate 7 {} } : Team).tiles.length = ({ tileTeam with rings := { desc := 0x80000002 } :: List.replicate 7 {} } : Team).ntile ∧
      ({ tileTeam with rings := { desc := 0x80000002 } :: List.replicate 7 {} } : Team).rings.length = ({ tileTeam with rings := { desc := 0x80000002 } :: List.replicate 7 {} } : Team).nring ∧
      (({ tileTeam with rings := { desc := 0x80000002 } :: List.replicate 7 {} } : Team).ring 0).p = (({ tileTeam with rings := { desc := 0x80000002 } :: List.replicate 7 {} } : Team).ring 0).c) :=
  ⟨⟨benchT [] (.trel 0 0 0 false), lane (.trel 0 0 0 false), [], grp [], by unfold Runs; decide +kernel⟩,
   ⟨{ bench [] (.trel 7 0 0 false) with teams := [smallTeam] }, lane (.trel 7 0 0 false), [], grp [], by unfold Runs; decide +kernel⟩,
   ⟨benchT [] (.trel 7 0 0 false), lane (.trel 7 0 0 false), [], grp [], by unfold Runs; decide +kernel⟩,
   ⟨{ benchT [] (.trel 0 0 0 false) with teams := [({ tileTeam with rings := { desc := 0x80000002 } :: List.replicate 7 {} } : Team)] }, lane (.trel 0 0 0 false), [], grp [], by unfold Runs; decide +kernel⟩⟩

/-- The tile team with a parameter block at 64: M and N 1, K 32, tile 0 by tile 1, elements at 0 with strides 4. -/
def mmaTeam : Team := { tileTeam with loc := [(76, 4), (80, 1), (82, 1), (84, 32), (92, 1), (100, 4)] }

/-- One thread, into a FAST range; and a block of the partner. -/
theorem wit_MatrixStart :
    (∃ s l ls g, Runs (.mmai 0 8 0 true) s l ls g ∧
      s.team? l.launch l.team = some mmaTeam ∧ s.blockWaits g = false ∧ mmaChecks true 8 s l g = none ∧ g.stream = [] ∧ s.mmas = [] ∧
      (l.execThreads true).length ≤ 8) ∧
    (∃ s l ls g, Runs (.mmai 0 8 0 true) s l ls g ∧
      s.team? l.launch l.team = some mmaTeam ∧ s.blockWaits g = true) ∧
    (∃ s l ls g, Runs (.mmai 0 8 0 true) s l ls g ∧
      s.team? l.launch l.team = some mmaTeam ∧ s.blockWaits g = false ∧ (l.execThreads true).head? = some 0 ∧ wordAt s l g 8 0 / 2 ^ 19 % 2 = 1) :=
  ⟨⟨{ benchOn [(8, 64)] (.mmai 0 8 0 true) false with teams := [mmaTeam] }, lane (.mmai 0 8 0 true), [], grp [(8, 64)], by unfold Runs; decide +kernel⟩,
   ⟨{ benchOn [] (.mmai 0 8 0 true) false with
        teams := [mmaTeam]
        ops := [{ id := 3, launch := 1, team := 0, gnum := 0, kind := .load 4, acq := true, acqDone := false }] },
      lane (.mmai 0 8 0 true), [], grp [], by unfold Runs; decide +kernel⟩,
   ⟨{ benchOn [(8, 0x80040)] (.mmai 0 8 0 true) false with teams := [mmaTeam] }, lane (.mmai 0 8 0 true), [], grp [(8, 0x80040)], by unfold Runs; decide +kernel⟩⟩

/-- The bench with every island reached directly. -/
def benchF (rs : List (Nat × Word)) (i : Instr) : State := { benchAt rs i page with topo := List.replicate 900 1 }

/-- To the own island: 32 bytes from the local store at 0 (a get the other way), a reduction of one element; no barrier. -/
theorem wit_FabricWordsStart :
    (∃ s l ls g, Runs (.put 16 8 2 true) s l ls g ∧
      fabChecks true (fun e => e.fabOp .put 16 8 2 0 0) s l g = none) ∧
    (∃ s l ls g, Runs (.get 16 8 1 true) s l ls g ∧
      fabChecks true (fun e => e.fabOp .get 16 8 1 0 0) s l g = none) ∧
    (∃ s l ls g, Runs (.mput 16 8 0 true) s l ls g ∧
      fabChecks true (fun e => e.fabOp .mput 16 8 0 0 0) s l g = none) ∧
    (∃ s l ls g, Runs (.putn 16 8 0 true) s l ls g ∧
      fabChecks true (fun e => e.fabOp .putn 16 8 0 0 0) s l g = none) ∧
    (∃ s l ls g, Runs (.ratom 16 0 2 0 true) s l ls g ∧
      fabChecks true (fun e => e.fabOp .ratom 16 0 0 0 2) s l g = none) ∧
    (∃ s l ls g, Runs (.rred 16 0 true false true) s l ls g ∧
      fabChecks true (fun e => e.fabOp .rred 16 0 1 0 0) s l g = none) ∧
    (∃ s l ls g, Runs (.gbarv 0 8 0 false) s l ls g ∧
      LocalByte s l (wordAt s l g 8 l.lowest) ∧ wordAt s l g 8 l.lowest / 2 ^ 19 % 2 = 0 ∧ wordAt s l g 8 l.lowest % 32 = 0) :=
  ⟨⟨benchF [(8, 0xFFFFFFFF), (19, 0x100000)] (.put 16 8 2 true), lane (.put 16 8 2 true), [], grp [(8, 0xFFFFFFFF), (19, 0x100000)], by unfold Runs; decide +kernel⟩,
   ⟨benchF [(8, 0xFFFFFFFF), (19, 0x100000)] (.get 16 8 1 true), lane (.get 16 8 1 true), [], grp [(8, 0xFFFFFFFF), (19, 0x100000)], by unfold Runs; decide +kernel⟩,
   ⟨benchF [(8, 0xFFFFFFFF), (18, 1)] (.mput 16 8 0 true), lane (.mput 16 8 0 true), [], grp [(8, 0xFFFFFFFF), (18, 1)], by unfold Runs; decide +kernel⟩,
   ⟨{ benchF [(8, 0xFFFFFFFF), (19, 0x100000)] (.putn 16 8 0 true) with launches := [{ num := 1, queue := 1, cores := [0], counts := [0], phase := .placed, block := [0, 0, 0, 0, 0, 0, 0, 0, 0, 0, 0x20] }] }, lane (.putn 16 8 0 true), [], grp [(8, 0xFFFFFFFF), (19, 0x100000)], by unfold Runs; decide +kernel⟩,
   ⟨benchF [] (.ratom 16 0 2 0 true), lane (.ratom 16 0 2 0 true), [], grp [], by unfold Runs; decide +kernel⟩,
   ⟨benchF [] (.rred 16 0 true false true), lane (.rred 16 0 true false true), [], grp [], by unfold Runs; decide +kernel⟩,
   ⟨bench [(8, 0x7FFE0)] (.gbarv 0 8 0 false), lane (.gbarv 0 8 0 false), [], grp [(8, 0x7FFE0)], by unfold Runs; decide +kernel, ⟨team, by decide +kernel⟩, by decide +kernel⟩⟩

/-! ### Clauses, faults and contexts -/

/-- Page 0 executable as well. -/
def codePage : DWord := 0x401F

/-- One idle group on core 0 whose next clause, at 0, has these bytes; the core is the step's subject. -/
def fetching (m : Cells Byte) : State :=
  { idle with
    mem := m, cores := [{ id := 0, tlb := [{ launch := 1, page := 0, size := 65536, leaf := codePage }] }], subj := [0] }

/-- A clause of one IADD, with header N 1 and no flags; and one whose header has N 0. -/
def oneIadd : Cells Byte := [(1, 0xF0), (2, 0x1F), (4, 0x01), (5, 0x18), (6, 0x18), (7, 0x0C)]

def Fetched.isOk (f : Fetched) : Bool :=
  match f with
  | .ok _ => true
  | _ => false

def Fetched.fault (f : Fetched) : Option (Nat × Nat) :=
  match f with
  | .badFetch a c _ => some (a, c)
  | _ => none

def Fetched.header (f : Fetched) : Option Word :=
  match f with
  | .badHeader w => some w
  | _ => none

theorem fetched_ok {f : Fetched} (h : Fetched.isOk f = true) : ∃ x, f = .ok x := by
  cases f with
  | ok x => exact ⟨x, rfl⟩
  | _ => simp [Fetched.isOk] at h

theorem fetched_fault {f : Fetched} {a c : Nat} (h : Fetched.fault f = some (a, c)) : ∃ x, f = .badFetch a c x := by
  cases f <;> simp_all [Fetched.fault]

theorem fetched_header {f : Fetched} {w : Word} (h : Fetched.header f = some w) : f = .badHeader w := by
  cases f <;> simp_all [Fetched.header]

theorem wit_ClausesIssueAndEnd_issue :
    let s := fetching oneIadd
    (s.lanes.filter (fun l => decide (l.core = s.sub 0))).length < 128 ∧ s.bestGroup (s.sub 0) = some (grp []) ∧
      s.ready (grp []) = true ∧ s.group? 1 0 0 = some (grp []) ∧ s.team? 1 0 = some team ∧ (grp []).issueAddr = some 0 ∧
      (grp []).fcnt.length = 12 ∧ ∃ x, s.fetchClause (s.sub 0) 1 0 = .ok x := by
  refine ⟨?_, ?_, ?_, ?_, ?_, ?_, ?_, fetched_ok ?_⟩ <;> decide +kernel

/-- A page that is not executable (the address 0 and code NOT_MAPPED: it is not even known), and a header with N 0. -/
theorem wit_ClausesIssueAndEnd_bad :
    (let s : State := { fetching oneIadd with cores := [] }
     s.bestGroup (s.sub 0) = some (grp []) ∧ ∃ x, s.fetchClause (s.sub 0) 1 0 = .badFetch 0 0x0017 x) ∧
    (let s := fetching []
     s.bestGroup (s.sub 0) = some (grp []) ∧ s.fetchClause (s.sub 0) 1 0 = .badHeader 0) ∧ dieOfCore team.core < (fetching []).dies.length := by
  refine ⟨⟨?_, fetched_fault ?_⟩, ⟨?_, fetched_header ?_⟩, ?_⟩ <;> decide +kernel

/-- A clause at its end: with all threads issuing, with thread 31 alone (the others keep their threads' states), ended by
YIELD, WSYNC or EXIT, with a pending trap. -/
def ended (l : Lane) : State := { bench [] (.nop 0 0 0 false) with lanes := [l] }

theorem wit_ClausesIssueAndEnd_end :
    ∀ l ∈ ([lane (.nop 0 0 0 false), { lane (.nop 0 0 0 false) with issuing := 0x80000000 },
        { lane (.yield 0 0 0) with fin := some .yield }, { lane (.wsync 0 8 0) with fin := some .wsync },
        { lane (.exit 0 0 0) with fin := some .exit }, { lane (.trap 0 0 5 false) with trap := some (7, 5) }] : List Lane),
      let l' := { l with idx := 1 }
      (ended l').lanes = [l'] ∧ l'.words.length ≤ l'.idx ∧ (ended l').laneGroup? l' = some (grp []) ∧
        (ended l').team? l'.launch l'.team = some team ∧ l'.bwait = none ∧ (grp []).stream = [] ∧ (grp []).exited = false := by
  decide +kernel

/-- A load of the bench's group, with its access done, into v16. -/
def loaded : Op :=
  { id := 3, launch := 1, team := 0, gnum := 0, flag := 0, mask := BitVec.allOnes 32, kind := .load 4, dst := some (16, 1)
    accs := [{ id := 4, thread := 0, va := 0, len := 4, st := .done, data := [1, 2, 3, 4] }] }

theorem wit_ClausesIssueAndEnd_complete :
    let s : State := { idle with ops := [loaded], subj := [3], groups := [{ grp [] with fcnt := 1 :: List.replicate 11 0 }] }
    s.op? (s.sub 0) = some loaded ∧ s.llReady loaded = true ∧
      s.group? 1 0 0 = some { grp [] with fcnt := 1 :: List.replicate 11 0 } ∧ loaded.limit = 512 ∧
      (∀ p ∈ s.ops, p.id ≠ loaded.id → p.srcs = []) ∧ (∀ b, loaded.kind ≠ .flush b) := by
  refine ⟨?_, ?_, ?_, rfl, ?_, ?_⟩
  · decide +kernel
  · decide +kernel
  · decide +kernel
  · decide +kernel
  · intro b h
    cases h

/-- A request for one block more, with blocks free; and for one with none free, taken from the emergency block. -/
def asking : Group := { grp [] with nblk := 31, rbreq := 1 }
def tight : Team := { team with t := 31, held := [31, 0, 0, 0], budget := [32, 0, 0, 0] }

/-- A grant of R121 on a group with a stale word beyond its blocks: the granted register reads zero (R120). -/
theorem wit_GrantedRegistersReadZero :
    let g : Group := { asking with regs := [(32 * 496, 7)] }
    let s : State := { idle with groups := [g], teams := [{ team with held := [31, 0, 0, 0] }], subj := [0] }
    g.at_ 496 0 = 7 ∧ after (exec .rbacqGrant s) (fun t => t.groups.all (fun h => h.nblk == 32 && h.at_ 496 0 == 0)) = true := by
  decide +kernel

theorem wit_ClausesIssueAndEnd_grant :
    (let s : State := { idle with groups := [asking], teams := [{ team with held := [31, 0, 0, 0] }], subj := [0] }
     s.teams.filter (fun t => decide (t.core = s.sub 0) && decide (t.ctx = .run)) = [{ team with held := [31, 0, 0, 0] }] ∧
      asking ∈ s.requests 1 0 ∧ (∀ h ∈ s.requests 1 0, h ≠ asking → asking.rbAge < h.rbAge) ∧
      ({ team with held := [31, 0, 0, 0] } : Team).held.getD asking.role 0 + asking.rbreq ≤ team.budget.getD asking.role 0 ∧
      asking.rbreq ≤ ({ team with held := [31, 0, 0, 0] } : Team).free) ∧
    (let s : State := { idle with groups := [asking], teams := [tight], subj := [0] }
     s.teams.filter (fun t => decide (t.core = s.sub 0) && decide (t.ctx = .run)) = [tight] ∧ asking ∈ s.requests 1 0 ∧
      (∀ h ∈ s.requests 1 0, h ≠ asking → asking.rbAge < h.rbAge) ∧ tight.held.getD asking.role 0 + asking.rbreq ≤ tight.budget.getD asking.role 0 ∧
      s.team? 1 0 = some tight ∧ asking.rbreq = 1 ∧ tight.free = 0 ∧ (s.core (s.sub 0)).emLent = false) := by
  decide +kernel

/-! The fault queue -/

/-- A record of the bench's group, with its code and class. -/
def rec_ (code cls : Nat) : Record := { code := code, cls := cls, launch := 1 }

/-- The panel with one record waiting, or queued, at die 0. -/
def waiting (r : Record) : State := { idle with subj := [0], dies := idle.dies.map (fun d => { d with faultWait := [r] }) }
def queued (r : Record) : State := { idle with subj := [0], dies := idle.dies.map (fun d => { d with faultQ := [r] }) }

theorem wit_FaultQueueAndContexts_enqueue :
    ((waiting (rec_ 4 0)).die ((waiting (rec_ 4 0)).sub 0)).faultWait = [rec_ 4 0] ∧
      ((waiting (rec_ 4 0)).die ((waiting (rec_ 4 0)).sub 0)).faultQ.length < 1024 := by decide +kernel

/-- The bench's launch, and with debug set. -/
def launched : Launch := { num := 1, queue := 1, cores := [0], counts := [0], gangArr := [[]], phase := .placed, block := List.replicate 16 0 }

theorem wit_FaultQueueAndContexts_handle :
    (∀ r ∈ ([rec_ 0x40 2, rec_ 7 2, rec_ 8 4, rec_ 4 0, rec_ 0x50 6, rec_ Code.machineCheck 6, rec_ 0x50 5] : List Record),
      ((queued r).die ((queued r).sub 0)).faultQ = [r] ∧ (queued r).launch? r.launch = some launched ∧ launched.phase ≠ Phase.over ∧
        launched.stopping = false ∧ launched.debug = false ∧ (queued r).team? r.launch r.team = some team ∧ team.ctx = .run ∧
        (queued r).group? r.launch r.team r.gnum = some (grp []) ∧ (grp []).exitDue = false ∧ (grp []).wait = .none ∧
        ∀ h ∈ (queued r).groups, h.stream = []) ∧
    (let s : State := { queued (rec_ 7 2) with launches := [{ launched with debug := true }] }
     (s.die (s.sub 0)).faultQ = [rec_ 7 2] ∧ s.launch? 1 = some { launched with debug := true }) ∧
    (let s : State := { queued (rec_ 7 2) with launches := [] }
     (s.die (s.sub 0)).faultQ = [rec_ 7 2] ∧ s.launch? (rec_ 7 2).launch = none) := by decide +kernel

/-! Pre-emption -/

/-- A launch whose save area is the n bytes at 0. -/
def saving (n : DWord) : Launch := { launched with block := List.replicate 11 0 ++ [n] ++ List.replicate 4 0 }

/-- A small team: one register block, 256 bytes of local store, one tile. -/
def small : Team := { team with nloc := 1, ntile := 1, nring := 0, nmeta := 0, tiles := [{}], rings := [], held := [1, 0, 0, 0] }

/-- That team in a context state; the engines of its die know the page at 0. -/
def ctxOf (c : Ctx) (x : Launch) : State :=
  { idle with
    launches := [x], teams := [{ small with ctx := c }], groups := [{ grp [] with nblk := 1 }], subj := [1, 0]
    dies := idle.dies.map (fun d => { d with engineTlb := [{ launch := 1, page := 0, size := 65536, leaf := page }] }) }

theorem wit_FaultQueueAndContexts_preempt :
    ∀ c ∈ ([Ctx.run, .waiting, .loading] : List Ctx),
      let s := ctxOf c { launched with held := true }
      s.launch? (s.sub 0) = some { launched with held := true } ∧ { small with ctx := c } ∈ s.teams ∧ small.launch = launched.num ∧
        small.exited = false ∧ (c = .run ∨ c = .waiting ∨ c = .loading) := by decide +kernel

theorem wit_FaultQueueAndContexts_drain :
    let s := ctxOf .draining { launched with held := true }
    let t : Team := { small with ctx := .draining }
    s.team? (s.sub 0) (s.sub 1) = some t ∧ t.ctx = .draining ∧ t.exited = false ∧
      ∀ u ∈ s.unitOf t, u.ctx = .saving ∨ u.ctx = .saved ∨ u.ctx = .waiting ∨ (u.ctx = .draining ∧ s.drained u = true) := by decide +kernel

theorem wit_FaultQueueAndContexts_request :
    (∀ c ∈ ([Ctx.halting, .draining, .saving] : List Ctx),
      let s := ctxOf c launched
      s.launch? (s.sub 0) = some launched ∧ s.team? (s.sub 0) (s.sub 1) = some { small with ctx := c } ∧ launched.held = false ∧
        launched.stopping = false ∧ launched.victim = false ∧ small.exited = false ∧ small.resume = false ∧
        (c = .halting ∨ c = .draining ∨ c = .saving)) ∧
    (let t : Team := { small with ctx := .saved, partner := some 1 }
     let u : Team := { small with idx := 1, ctx := .draining, partner := some 0 }
     let s : State := { ctxOf .saved launched with teams := [t, u] }
     s.launch? (s.sub 0) = some launched ∧ s.team? (s.sub 0) (s.sub 1) = some t ∧ t.resume = false ∧
      ∃ u ∈ s.unitOf t, u.ctx ≠ .saved ∧ u.ctx ≠ .waiting) ∧
    (let s := ctxOf .waiting (saving 65536)
     let t : Team := { small with ctx := .waiting }
     s.launch? (s.sub 0) = some (saving 65536) ∧ s.team? (s.sub 0) (s.sub 1) = some t ∧ t.ctx = .waiting ∧ t.exited = false ∧
      s.restoreLate (saving 65536) t = none ∧
      (∀ u ∈ s.unitOf t, u.ctx = .waiting ∧ s.canReserve (saving 65536) u = true) ∧ s.mayTake launched.num = true) ∧
    (let s : State := { ctxOf .waiting (saving 65536) with dieMask := 0 }
     let t : Team := { small with ctx := .waiting }
     s.team? (s.sub 0) (s.sub 1) = some t ∧ t.ctx = .waiting ∧ t.exited = false ∧ s.restoreLate (saving 65536) t = some Code.dieAbsent) := by
  decide +kernel

/-- A save area that takes the image of a team without groups and stores, and one of no bytes. -/
def bare : Team := { small with ctx := .saving, nloc := 0, ntile := 0, tiles := [] }
def savingOf (n : DWord) : State := { ctxOf .saving (saving n) with teams := [bare], groups := [] }

theorem wit_FaultQueueAndContexts_save :
    (let s := savingOf 65536
     s.launch? (s.sub 0) = some (saving 65536) ∧ s.team? (s.sub 0) (s.sub 1) = some bare ∧ bare.ctx = .saving ∧
      (s.collectFaults bare).team? bare.launch bare.idx = some bare ∧ (s.collectFaults bare).saveAreaOk (saving 65536) bare = true ∧
      ((s.collectFaults bare).imageBytes bare).length ≤ (saving 65536).saveSize) ∧
    (let s := savingOf 0
     s.launch? (s.sub 0) = some (saving 0) ∧ s.team? (s.sub 0) (s.sub 1) = some bare ∧ bare.ctx = .saving ∧
      (s.collectFaults bare).team? bare.launch bare.idx = some bare ∧
      (saving 0).saveSize < ((s.collectFaults bare).imageBytes bare).length) := by decide +kernel

/-- An image of the small team, byte by byte of R176 and R177: directory, TEAM (1), GROUP (2), THREAD (3), EXTRA (4), BLOCK (5),
SHAPE (6), TILE (7) and LOCAL (10). -/
def imageCells : Cells Byte :=
  [(0, 0x58), (1, 0x43), (2, 0x5a), (3, 0x4f), (4, 0x01), (6, 0x09), (12, 0x01), (64, 0x01), (68, 0x40), (73,
   0x01), (80, 0x02), (84, 0x10), (88, 0x40), (89, 0x01), (96, 0x03), (101, 0x02), (104, 0x80), (105, 0x01),
   (112, 0x04), (116, 0x20), (120, 0x80), (121, 0x03), (128, 0x05), (133, 0x08), (136, 0xc0), (137, 0x03), (144,
   0x06), (148, 0x10), (152, 0xc0), (153, 0x0b), (160, 0x07), (165, 0x20), (169, 0x0c), (176, 0x0a), (181,
   0x01), (185, 0x2c), (192, 0x10), (196, 0x40), (201, 0x2d), (260, 0x01), (264, 0xff), (265, 0xff), (266,
   0x03), (272, 0x01), (284, 0x01), (285, 0x01), (327, 0x80), (3012, 0x02)]

def restoring (c : Ctx) (m : Cells Byte) : State := { ctxOf c (saving 65536) with mem := m }

/-- An image that can be restored, one that cannot, and one that is loaded. -/
theorem wit_FaultQueueAndContexts_restore :
    (let s := restoring .saved imageCells
     s.launch? (s.sub 0) = some (saving 65536) ∧ s.team? (s.sub 0) (s.sub 1) = some { small with ctx := .saved } ∧
      (saving 65536).held = false ∧ (saving 65536).stopping = false ∧ small.exited = false ∧
      s.restoreFault (saving 65536) { small with ctx := .saved } = none ∧
      ∀ u ∈ s.unitOf { small with ctx := .saved }, u.ctx = .saved ∨ u.ctx = .waiting) ∧
    (let s := restoring .saved []
     s.team? (s.sub 0) (s.sub 1) = some { small with ctx := .saved } ∧
      s.restoreFault (saving 65536) { small with ctx := .saved } = some 0x72 ∧
      ∀ u ∈ s.unitOf { small with ctx := .saved }, u.ctx = .saved ∨ u.ctx = .waiting) ∧
    (let s := restoring .loading imageCells
     let t : Team := { small with ctx := .loading }
     s.launch? (s.sub 0) = some (saving 65536) ∧ s.team? (s.sub 0) (s.sub 1) = some t ∧ t.ctx = .loading ∧
      s.roomForAll ((accItems (s.image (saving 65536) t)).1.zipIdx.map (fun o => s.rangeIn (s.image (saving 65536) t) t o.2 o.1)) = true ∧
      (s.core t.core).sideLog.length + (itemsAt (s.image (saving 65536) t) 13 32).length ≤ 512) := by
  refine ⟨by decide +kernel, by decide +kernel, ?_⟩
  have h : (accItems ((restoring .loading imageCells).image (saving 65536) { small with ctx := .loading })).1 = [] := by decide +kernel
  refine ⟨by decide +kernel, by decide +kernel, rfl, ?_, by decide +kernel⟩
  rw [h]
  rfl
/-! ### Memory's own steps -/

/-- A rind that holds no block agrees with memory. -/
theorem rindOk_of {s : State} (h : ∀ x ∈ s.dies, x.blocks = []) : s.RindOk := by
  intro d x hd
  have e := h x (List.mem_of_getElem? hd)
  rw [e]
  exact ⟨List.Pairwise.nil, fun b hb => absurd hb List.not_mem_nil⟩

theorem rindOk_sub {s : State} (h : (s.dies.all fun x => x.blocks.isEmpty) = true) : s.RindOk :=
  rindOk_of fun x hx => List.isEmpty_iff.mp (List.all_eq_true.mp h x hx)

/-- That area lies on the one page that its die's engines know. -/
theorem wit_FaultQueueAndContexts_area :
    let s := savingOf 65536
    let s1 := s.collectFaults bare
    s1.RindOk ∧ (saving 65536).stopping = false ∧ (saving 65536).saveBase 0 + (saving 65536).saveSize ≤ windowBase ∧
      (∀ a, (saving 65536).saveBase 0 ≤ a → a < (saving 65536).saveBase 0 + (saving 65536).saveSize →
        (s1.die 0).engineTlb.find? (fun c => c.maps 1 a) = some { launch := 1, page := 0, size := 65536, leaf := page }) ∧
      ∀ i < 64, s1.rangeAt i = none := by
  refine ⟨rindOk_sub (by decide +kernel), by decide +kernel, by decide +kernel, ?_, by decide +kernel⟩
  intro a _ h
  have hb : (saving 65536).saveBase 0 + (saving 65536).saveSize = 65536 := by decide +kernel
  have ht : (((savingOf 65536).collectFaults bare).die 0).engineTlb = [{ launch := 1, page := 0, size := 65536, leaf := page }] := by
    decide +kernel
  rw [hb] at h
  refine (congrArg _ ht).trans ?_
  simp [Cached.maps, h]

theorem wit_HomeWriteThenRead :
    idle.RindOk ∧ (∀ g ∈ ([32, 128, 512] : List Nat), (g = 32 ∨ g = 128 ∨ g = 512) ∧ (g - 1) % g + 1 ≤ g) ∧
      Memory.wf idle.mem = true ∧
      (let f : Fill := { id := 9, die := 0, frame := 0, lo := 0, hi := 4096 / 32 - 1, grain := 32 }
       (f.grain = 32 ∨ f.grain = 128 ∨ f.grain = 512) ∧ f.lo ≤ f.hi ∧ f.hi < 4096 / f.grain ∧ f.replica = false ∧
        dieOfPa (f.frame * 4096) = f.die ∧ f.frame * 4096 < 2 ^ 60 ∧ idle.inMailbox (f.frame * 4096) = false) :=
  ⟨rindOk_sub (by decide +kernel), by decide +kernel, by decide +kernel, by decide +kernel⟩

/-- The translation of the page at 0, and of the same page as die scratch. -/
def tr0 : Tr := { page := 0, size := 65536, pa := 0, leaf := page }
def trScratch : Tr := { tr0 with scratch := true }

/-- A store of four bytes at 28, where its grain ends. -/
def entry (k : StoreKind) : Store := { id := 7, op := 3, tr := tr0, parts := [(28, [1, 2, 3, 4])], kind := k }

def queuedStore (k : StoreKind) : State := { idle with groups := [{ grp [] with sq := [entry k] }], subj := [1, 0, 0] }

theorem wit_MemoryEvents_depart :
    ∀ k ∈ ([.plain, .red 0 false, .contrib 5, .scale 5, .zero 32] : List StoreKind),
      let s := queuedStore k
      s.group? (s.sub 0) (s.sub 1) (s.sub 2) = some { grp [] with sq := [entry k] } ∧ (entry k).left = false ∧ (entry k).relScope = 0 ∧
        s.readsDone 1 0 0 (entry k).op = true ∧ (s.op? (entry k).op).isNone = true := by decide +kernel

/-- Operations with names of their own and groups with nothing in their streams. -/
theorem loadsApart_of {s : State} {i : Nat} (h : (decide (s.ops.map (·.id)).Nodup && s.groups.all (fun g => g.stream.isEmpty)) = true) :
    s.loadsApart i := by
  simp only [Bool.and_eq_true, decide_eq_true_eq, List.all_eq_true, List.isEmpty_iff] at h
  exact ⟨h.1, fun g hg e he => absurd (h.2 g hg ▸ he) List.not_mem_nil⟩

/-- The store on its way to die 0, and an atomic. -/
def sent : Sent := { die := 0, launch := 1, team := 0, gnum := 0, op := 3, access := 7, store := some (entry .plain), at_ := 1 }
def atomAt : Op :=
  { id := 3, launch := 1, team := 0, gnum := 0, kind := .atom 0 0, dst := some (16, 1)
    accs := [{ id := 7, thread := 0, va := 28, len := 4, tr := some tr0, st := .waiting, opnd := 5 }] }
def acc7 : Access := { id := 7, thread := 0, va := 28, len := 4, tr := some tr0, st := .waiting, opnd := 5 }

theorem wit_MemoryEvents_apply :
    (let s : State := { idle with cores := [{ id := 0, path := [sent] }], subj := [0, 0], nextId := 8 }
     (s.core (s.sub 0)).path.find? (fun x => decide (x.die = s.sub 1) && !x.applied) = some sent ∧ s.RindOk ∧ sent.access < s.nextId ∧
      sent.store = some (entry .plain) ∧ (entry .plain).kind = .plain ∧ (entry .plain).parts = [(28, [1, 2, 3, 4])] ∧
      (entry .plain).tr.phys 28 % grainOf (entry .plain).tr.leaf + 4 ≤ grainOf (entry .plain).tr.leaf ∧ s.rangeAt 28 = none ∧ s.rangeAt 31 = none) ∧
    (∀ p ∈ ([(.red 0 false, 28), (.red 2 true, 24), (.red 3 false, 28), (.redi 0 false, 28), (.redi 7 true, 24)] : List (StoreKind × Nat)),
      let e : Store := { entry p.1 with parts := [(p.2, [1, 2, 3, 4])] }
      let s : State := { idle with cores := [{ id := 0, path := [{ sent with store := some e }] }], subj := [0, 0], nextId := 8 }
      (s.core (s.sub 0)).path.find? (fun x => decide (x.die = s.sub 1) && !x.applied) = some { sent with store := some e } ∧
        e.kind = p.1 ∧ e.tr.phys p.2 % grainOf e.tr.leaf + (if p.2 = 24 then 8 else 4) ≤ grainOf e.tr.leaf ∧ ∀ i < 8, s.rangeAt (p.2 + i) = none) ∧
    (let x : Sent := { sent with store := none }
     let s : State := { idle with cores := [{ id := 0, path := [x] }], ops := [atomAt], subj := [0, 0], nextId := 8 }
     (s.core (s.sub 0)).path.find? (fun x => decide (x.die = s.sub 1) && !x.applied) = some x ∧ s.RindOk ∧ s.loadsApart atomAt.id ∧
      x.access < s.nextId ∧ x.store = none ∧
      s.op? x.op = some atomAt ∧ atomAt.kind = .atom 0 0 ∧ atomAt.accs.find? (fun a => a.id == x.access) = some acc7 ∧ acc7.tr = some tr0 ∧
      acc7.unpred = false ∧ 0 < acc7.len ∧ (∀ i < acc7.len, s.rangeAt (tr0.phys acc7.va + i) = none) ∧ tr0.phys acc7.va % grainOf tr0.leaf + acc7.len ≤ grainOf tr0.leaf) := by
  refine ⟨⟨by decide +kernel, rindOk_sub (by decide +kernel), by decide +kernel⟩, by decide +kernel, by decide +kernel, rindOk_sub (by decide +kernel),
    loadsApart_of (by decide +kernel), by decide +kernel⟩

theorem wit_MemoryEvents_acknowledge :
    let x : Sent := { sent with applied := true }
    let k : Core := { id := 0, path := [x] }
    let s : State := { idle with cores := [k], groups := [{ grp [] with sq := [entry .plain] }], subj := [7], nextId := 8 }
    s.sub 0 < s.nextId ∧ s.cores.find? (fun k => k.path.any (fun x => x.applied && x.access == s.sub 0)) = some k ∧ s.core k.id = k ∧
      k.path.find? (fun x => x.applied && x.access == s.sub 0) = some x ∧ k.sideLog = [] ∧ s.ops = [] := by decide +kernel

/-- A load of the bench's group with one access, at a translation, in a state of progress. -/
def loadAt (st : AccSt) (tr : Tr) : Op :=
  { id := 3, launch := 1, team := 0, gnum := 0, kind := .load 4, dst := some (16, 1), accs := [{ acc7 with st := st, tr := some tr }] }
def loads (st : AccSt) (tr : Tr) : State := { idle with ops := [loadAt st tr], subj := [3, 7] }

theorem wit_MemoryEvents_read :
    (let s := loads .waiting tr0
     s.op? (s.sub 0) = some (loadAt .waiting tr0) ∧ (loadAt .waiting tr0).accs.find? (fun a => a.id == s.sub 1) = some { acc7 with st := .waiting } ∧
      s.mayPerform (loadAt .waiting tr0) { acc7 with st := .waiting } = true ∧
      ((loadAt .waiting tr0).ordinary && s.cacheable (s.coreOf 1 0) tr0 (tr0.phys 28) && ((s.core (s.coreOf 1 0)).hits (tr0.phys 28) 4 ||
        s.fillComing (s.coreOf 1 0) { acc7 with st := .waiting } tr0)) = false) ∧
    (let s := loads .sent trScratch
     s.loadsApart 3 ∧ s.op? (s.sub 0) = some (loadAt .sent trScratch) ∧ trScratch.scratch = true ∧ acc7.unpred = false ∧
      s.mayPerform (loadAt .sent trScratch) { acc7 with st := .sent, tr := some trScratch } = true ∧
      ∀ x ∈ (s.core (s.coreOf 1 0)).path, x.die = trScratch.home → x.applied = true) ∧
    (let s : State := { idle with ops := [atomAt], subj := [3, 7] }
     s.op? (s.sub 0) = some atomAt ∧ acc7.st = .waiting ∧ s.mayPerform atomAt acc7 = true) ∧
    (let s := loads .sent tr0
     s.op? (s.sub 0) = some (loadAt .sent tr0) ∧ tr0.scratch = false ∧ replicaDie (s.coreOf 1 0) tr0 = none ∧
      s.mayPerform (loadAt .sent tr0) { acc7 with st := .sent } = true ∧ (∀ x ∈ (s.core (s.coreOf 1 0)).path, x.die = tr0.home → x.applied = true) ∧
      s.fills = [] ∧ s.inMailbox (tr0.phys 28) = false ∧
      (s.matchGrain tr0.home (tr0.phys 28 / 4096) (grainOf tr0.leaf)).held (tr0.phys 28) (grainOf tr0.leaf) = false ∧
      roomFor (s.matchGrain tr0.home (tr0.phys 28 / 4096) (grainOf tr0.leaf)) tr0.home (tr0.phys 28 / 4096) (grainOf tr0.leaf) = true ∧
      dieOfPa (tr0.phys 28) = tr0.home ∧ s.RindOk) := by
  refine ⟨by decide +kernel, ⟨loadsApart_of (by decide +kernel), by decide +kernel⟩, by decide +kernel, ?_⟩
  refine ⟨?_, ?_, ?_, ?_, ?_, ?_, ?_, ?_, ?_, ?_, rindOk_sub (by decide +kernel)⟩ <;> decide +kernel

/-- A fill under way; a load served, and one that hits in the L1. -/
def hitCore : Core := { id := 0, l1 := [{ tag := 0, data := List.replicate 32 9 }] }

theorem wit_MemoryEvents_deliver :
    (let s : State := { idle with fills := [{ id := 9, die := 0, frame := 0, lo := 0, hi := 1, grain := 32 }], subj := [9] }
     (s.fills.find? (fun f => f.id == s.sub 0)).isSome = true) ∧
    (let s := loads .served tr0
     s.op? (s.sub 0) = some (loadAt .served tr0) ∧ (loadAt .served tr0).kind = .load 4) ∧
    (let s : State := { loads .waiting tr0 with cores := [hitCore] }
     s.loadsApart 3 ∧ s.op? (s.sub 0) = some (loadAt .waiting tr0) ∧ (loadAt .waiting tr0).ordinary = true ∧
      s.cacheable (s.coreOf 1 0) tr0 (tr0.phys 28) = true ∧
      (s.core (s.coreOf 1 0)).hits (tr0.phys 28) 4 = true ∧ s.mayPerform (loadAt .waiting tr0) { acc7 with st := .waiting } = true) :=
  ⟨by decide +kernel, by decide +kernel, loadsApart_of (by decide +kernel), by decide +kernel⟩

/-- A release with nothing before it; a promotion of core 5 that has not arrived, and one that has. -/
def promoted (at' : Nat) : Op :=
  { atomAt with accs := [{ acc7 with victim := some 5, promAt := at' }] }

theorem wit_MemoryEvents_release :
    (let o : Op := { atomAt with kind := .store 4, rel := true, relDone := false }
     let s : State := { idle with ops := [o], subj := [3] }
     s.ops.find? (fun o => o.id == s.sub 0 && o.rel && !o.relDone) = some o ∧ s.relReady (s.coreOf 1 0) 1 0 0 o.id 1 = true ∧ o.kind ≠ .fabric) ∧
    (∀ n ∈ ([0, 1] : List Nat),
      let a : Access := { acc7 with victim := some 5, promAt := n }
      let s : State := { idle with ops := [promoted n], subj := [3] }
      s.op? (s.sub 0) = some (promoted n) ∧
        (promoted n).accs.find? (fun a => a.victim.isSome && !a.promDone && decide (a.st = .waiting)) = some a ∧
        (promoted n).relDone = true ∧ (promoted n).lowerDone a = true ∧
        (n = 0 → ∀ p ∈ s.ops, ∀ b ∈ p.accs, b.victim = some (a.victim.getD 0) → b.promAt ≠ 0 → b.promDone = true) ∧
        (∀ g ∈ s.groups, s.coreOf g.launch g.team = a.victim.getD 0 → g.sq = []) ∧
        ∀ x ∈ (s.core (a.victim.getD 0)).path, x.store = none) := by decide +kernel
/-! ### Translation -/

/-- A joined die as it runs, with its part in the lease; the panel led by die 0, with die 5's part given. -/
def joined (x : Lease) : Die := { Die.reset 0 with boot := .joined, counterOn := true, counter := 7, incar := 1, lease := x }
def following : Lease := { st := .follower, term := 4 }
def leading : Lease := { st := .leader, term := 4 }
def panelOf (x0 x5 : Lease) : List Die :=
  joined x0 :: (List.replicate 4 (joined following) ++ joined x5 :: List.replicate 54 (joined following))
def led (x0 x5 : Lease) (sub : List Nat) : State := { idle with dies := panelOf x0 x5, subj := sub, now := 10000000 }

/-- Page tables of the bench's launch at 0x4000, 0x1000, 0x2000 and 0x3000, whose last entry, of the 64 KiB page at 0, is `leaf`. -/
def tables (leaf : Nat) : Cells Byte :=
  [(0x1000, 1), (0x1001, 0x20), (0x2000, 1), (0x2001, 0x30)] ++
    ((bytesOf leaf 8).zipIdx.filter (fun p => decide (p.1 ≠ 0))).map (fun p => (0x3000 + p.2, p.1)) ++ [(0x4000, 1), (0x4001, 0x10)]

/-- A map request for that page, with a frame pool of 1 MiB from 1 MiB on. -/
def req : MapReq := { id := 9, isl := 0, launch := 1, page := 0, size := 65536, die := 0 }
def pooled : Launch := { launched with roots := List.replicate 60 0x4000, pool := List.replicate 60 (0x100000, 0x100000) }
def mapping (leaf : Nat) : State := { idle with mem := tables leaf, launches := [pooled], mapReqs := [req], subj := [9] }

theorem wit_TranslationEvents_frames :
    (0 < 65536 ∧ freeFrame 0x100000 0x100000 65536 [(0x100000, 65536)] = some 0x110000) ∧
    (∀ z ∈ ([65536, 2 ^ 21, 2 ^ 30] : List Nat), (z = 65536 ∨ z = 2 ^ 21 ∨ z = 2 ^ 30) ∧ 2 ^ 30 % z = 0) := by decide +kernel

/-- Its page present; absent with FILL 0 and 3 (declined), 1 (a frame of the pool) and 2 (posted to the host). -/
theorem wit_TranslationEvents_requests :
    (let s : State := { mapping 0x400F with launches := [] }
     s.mapReqs.find? (fun r => decide (r.id = s.sub 0)) = some req ∧ req.posted = false ∧ s.launch? req.launch = none) ∧
    (let s := mapping 0x400F
     s.mapReqs.find? (fun r => decide (r.id = s.sub 0)) = some req ∧ s.launch? req.launch = some pooled ∧ s.walk req.die req.launch req.page = .present tr0) ∧
    (∀ f ∈ ([0, 3] : List Nat), (mapping (0x400E + f * 2 ^ 60)).walk 0 1 0 = .absent 0 65536 f (BitVec.ofNat 64 (0x400E + f * 2 ^ 60)) 0x3000 ∧ f ≠ 1 ∧ f ≠ 2) ∧
    (let s := mapping 0x100000000000400E
     s.walk req.die req.launch req.page = .absent 0 65536 1 0x100000000000400E 0x3000 ∧ (s.demandZero pooled req.isl 0 65536 0x100000000000400E).isSome = true) ∧
    (let s := mapping 0x200000000000400E
     s.walk req.die req.launch req.page = .absent 0 65536 2 0x200000000000400E 0x3000 ∧ (s.postEvent pooled.queue req.isl req.launch req.page req.size).isSome = true) := by
  refine ⟨by decide +kernel, by decide +kernel, by decide +kernel, ?_, ?_⟩
  · refine ⟨by decide +kernel, ?_⟩
    simp only [State.demandZero]
    rw [show freeFrame _ _ 65536 (pooled.used ++ _ ++ windowFrames) = some 0x100000 by decide +kernel]
    rfl
  · exact ⟨by decide +kernel, by decide +kernel⟩

theorem wit_TranslationEvents_notices :
    ∀ b ∈ ([false, true] : List Bool),
      let n : Notice := { id := 9, core := some 0, isl := 0, launch := 1, page := 0, size := 65536, decline := b }
      let s : State := { idle with notices := [n], subj := [9] }
      s.notices.find? (fun n => decide (n.id = s.sub 0)) = some n ∧ n.decline = b ∧ n.core ≠ none := by decide +kernel

/-- A store in the side log of core 0, whose page is now known; and, for a decline, with its launch. -/
def entryLogged : LogEntry :=
  { launch := 1, team := 0, gnum := 0, thread := 0, op := 2, va := 28, bytes := [1, 2, 3, 4], kind := 0, page := 0, size := 65536 }
def knowing (leaf : DWord) (log : List LogEntry) : Core :=
  { id := 0, tlb := [{ launch := 1, page := 0, size := 65536, leaf := leaf }], sideLog := log }

theorem wit_TranslationEvents_log :
    let s : State := { idle with cores := [knowing page [entryLogged]] }
    entryLogged ∈ (s.core 0).sideLog ∧ entryLogged.onPage 1 0 65536 = true ∧ entryLogged.tr = none ∧ entryLogged.replay = none ∧
      s.look 0 1 none 28 = .present tr0 ∧ s.pageFault tr0 .store 28 (dieOfCore 0) = none ∧
      (s.core 0).sideLog.filter (fun e => e.onPage 1 0 65536 && e.replay.isNone) = [entryLogged] ∧ s.launch? 1 = some launched ∧
      (0, 0) ∉ launched.notMapped ∧ (∀ o ∈ s.ops, ∀ a ∈ o.accs, a.stuck = false) ∧ dieOfCore (s.coreOf 1 0) < s.dies.length := by decide +kernel

/-- A load held on that page: present now, present but not readable, and still absent. -/
def heldAcc : Access := { acc7 with st := .held, tr := none }
def holding (ks : List Core) : State := { idle with ops := [{ loadAt .held tr0 with accs := [heldAcc] }], cores := ks }
def unreadable : DWord := 0x400B

theorem wit_TranslationEvents_held :
    (∀ ks ∈ ([[knowing page []], [knowing unreadable []], []] : List (List Core)),
      HeldLoad (holding ks) 0 1 0 65536 { loadAt .held tr0 with accs := [heldAcc] } team (grp []) heldAcc 4) ∧
    (let s := holding [knowing page []]
     s.place 0 1 (some (groupSlot team 0, 0)) 28 false = .go tr0 ∧ s.pageFault tr0 .load 28 (dieOfCore 0) = none) ∧
    (let s := holding [knowing unreadable []]
     s.place 0 1 (some (groupSlot team 0, 0)) 28 false = .go { tr0 with leaf := unreadable } ∧
      s.pageFault { tr0 with leaf := unreadable } .load 28 (dieOfCore 0) = some Code.accessFault) ∧
    (holding []).place 0 1 (some (groupSlot team 0, 0)) 28 false = .hold := by
  refine ⟨?_, by decide +kernel, by decide +kernel, by decide +kernel⟩
  intro ks hk
  simp only [List.mem_cons, List.not_mem_nil, or_false] at hk
  rcases hk with rfl | rfl | rfl <;>
  exact ⟨by decide +kernel, by decide +kernel, by decide +kernel, by decide +kernel, by decide +kernel, by decide +kernel, by decide +kernel,
    by decide +kernel, by decide +kernel, by decide +kernel, by decide +kernel, by decide +kernel, by decide +kernel,
    loadsApart_of (by decide +kernel), by decide +kernel⟩

/-- A shoot-down of the page for core 0 and the engines of die 0, before and after its sweeps. -/
def shot (w : List Nat) : Shoot := { id := 9, launch := 1, isl := 0, lo := 0, hi := 65536, targets := [0, 2 ^ 13], swept := w }

theorem wit_TranslationEvents_shootdown :
    (∀ t ∈ ([0, 2 ^ 13] : List Nat),
      let s : State := { idle with shoots := [shot []], subj := [9, t] }
      s.shoots.find? (fun x => decide (x.id = s.sub 0)) = some (shot []) ∧ (shot []).targets.contains (s.sub 1) = true ∧
        (shot []).swept.contains (s.sub 1) = false) ∧
    (∀ t ∈ ([0, 2 ^ 13] : List Nat),
      let s : State := { idle with shoots := [shot [t]], subj := [9, t] }
      s.shoots.find? (fun x => decide (x.id = s.sub 0)) = some (shot [t]) ∧ (shot [t]).swept.contains (s.sub 1) = true ∧
        (shot [t]).acked.contains (s.sub 1) = false ∧
        (if t = 0 then s.coreDrained (shot [t]) 0 0 = true else s.engineDrained (shot [t]) 0 0 = true)) := by decide +kernel

/-- A change of the page at each of its steps. -/
def changing (k : Nat) : Change := { id := 9, launch := 1, isl := 0, page := 0, size := 65536, old := 0x400F, new := 0x4007, step := k, shoot := 8 }
def changes (k : Nat) : State := { mapping 0x400F with changes := [changing k], dies := panelOf leading following }

theorem wit_TranslationEvents_change :
    (∀ k ∈ ([1, 2, 3, 4, 5, 6, 7] : List Nat), (changes k).leader?.isSome = true ∧ (changes k).changes.find? (fun c => decide (c.id = (changes k).sub 0)) = some (changing k) ∧
      (changing k).step = k ∧ (changing k).retire = false ∧ (changing k).old.getLsbD 0 = true) ∧
    (changes 1).changeBlocked (changing 1) = false ∧ (changes 1).islandEntry 0 1 0 65536 = some 0x400F ∧
    (changes 2).shoots.find? (fun x => decide (x.id = (changing 2).shoot)) = none ∧
    (let x : Shoot := { shot [] with id := 8, acked := [0, 2 ^ 13] }
     let s : State := { changes 2 with shoots := [x] }
     s.leader?.isSome = true ∧ s.shoots.find? (fun x => decide (x.id = (changing 2).shoot)) = some x ∧ Shoot.over x = true) ∧
    (changes 3).changeDrained (changing 3) = true := by decide +kernel

/-! ### Accumulators and arrivals -/

/-- A contribution of 1.5 to element 15 of the bench's range, with sequence number n. -/
def part (n : Nat) (ord : Bool) : Contrib :=
  { id := 9, launch := 1, team := 0, gnum := 0, isl := 0, range := 5, seq := n, ord := ord, elems := [(60, 0x3FC00000, false)], sent := true }

/-- A range with this many contributions remaining and this next number. -/
def rangeWith (ord : Bool) (left next : Nat) : Range := { range ord with remain := left, seqNext := next }

def contributing (c : Contrib) (r : Range) : State := { idle with contribs := [c], ranges := [r], subj := [9] }

/-- In turn (FAST, and ORDERED at the last number); 63 and 64 ahead of its turn; with none remaining. -/
theorem wit_AccumulatorsAndArrivals_contribution :
    (∀ p ∈ ([(part 7 false, rangeWith false 1 0), (part 65535 true, rangeWith true 1 65535), (part 63 true, rangeWith true 100 0),
        (part 64 true, rangeWith true 100 0), (part 0 false, rangeWith false 0 0)] : List (Contrib × Range)),
      let s := contributing p.1 p.2
      s.contribs.find? (fun c => c.id == s.sub 0) = some p.1 ∧ p.1.sent = true ∧ p.1.refused = false ∧ s.chunkBehind p.1 = false ∧ p.1.fab = 0 ∧
        s.ranges.find? (fun r => r.id == p.1.range) = some p.2 ∧ (p.2.st = .open ∨ p.2.st = .closing) ∧ p.2.pool = [] ∧ p.1.scale = [] ∧
        p.1.elems = [(60, 0x3FC00000, false)] ∧ s.draining p.1 = false) ∧
    ((part 65535 true).seq = (rangeWith true 1 65535).seqNext ∧ (part 65535 true).seq < 65536 ∧ 0 < (rangeWith true 1 65535).remain) ∧
    ((63 + 65536 - 0) % 65536 < 100 ∧ (63 + 65536 - 0) % 65536 < 64 ∧
      ∀ b ∈ (part 63 true).banks (contributing (part 63 true) (rangeWith true 100 0)) (rangeWith true 100 0),
        poolUsed (contributing (part 63 true) (rangeWith true 100 0)) b < 64) ∧
    ((64 + 65536 - 0) % 65536 < 100 ∧ 64 ≤ (64 + 65536 - 0) % 65536 ∧
      (contributing (part 64 true) (rangeWith true 100 0)).senderGone (part 64 true) = false) ∧ (rangeWith false 0 0).remain = 0 := by decide +kernel

/-- An ACCOPEN of 64 bytes at 0 that waits for capacity. -/
def opening : Op :=
  { id := 3, launch := 1, team := 0, gnum := 0, kind := .accOpen, accs := [{ id := 4, thread := 0, va := 0, len := 64, opnd := 0x10004 }] }
def openingState : State := { benchAt [] (.nop 0 0 0 false) page with lanes := [], ops := [opening], subj := [3] }

theorem wit_AccumulatorsAndArrivals_open :
    let s := openingState
    s.op? (s.sub 0) = some opening ∧ s.team? 1 0 = some team ∧
      ∃ r, s.heldOpens (team.core / 256) = [(3, 4, r)] ∧ capacityFor s r false = true ∧ (∀ x ∈ s.opensIn .served, x.1 ≠ 3) ∧
        s.relReady team.core 1 0 0 3 (if r.trs.any (fun t => isIsland t.leaf) then 2 else 1) = true ∧
        opening.accs.find? (fun a => a.id == 4) = some { id := 4, thread := 0, va := 0, len := 64, opnd := 0x10004 } := by
  refine ⟨by decide +kernel, by decide +kernel, openRangeOf 4 0 1 0 0 64 0x10004 [tr0], by decide +kernel, ?_, by decide +kernel, by decide +kernel, by decide +kernel⟩
  have hn : (openRangeOf 4 0 1 0 0 64 0x10004 [tr0]).needs = [(0, 0, 2)] := by decide +kernel
  have hb : ∀ n : Nat, ((openingState.die 0).brole[n]?.getD {}) = {} := by
    intro n
    have h : (openingState.die 0).brole = List.replicate 32 {} := by decide +kernel
    rw [h, List.getElem?_replicate]
    split <;> rfl
  have ha : accHeld openingState 0 0 = (0, 0) := by decide +kernel
  have hr : openingState.ranges = [] := by decide +kernel
  have hq : openingState.reserved = [] := by decide +kernel
  simp only [capacityFor, Range.banks, Range.inBank, Range.inSet, hn, hr, hq]
  simp [hb, ha, sameSet]

/-- The same behind a store of its group that has not left: its release waits. -/
theorem wit_AccumulatorsAndArrivals_openWaits :
    let s : State := { openingState with groups := [{ grp [] with sq := [{ id := 2, op := 1, tr := tr0, parts := [(28, [1])], kind := .plain }] }] }
    s.relReady team.core 1 0 0 3 1 = false ∧ s.relReady team.core 1 0 0 3 2 = false ∧ ∃ r, s.heldOpens (team.core / 256) = [(3, 4, r)] :=
  ⟨by decide +kernel, by decide +kernel, openRangeOf 4 0 1 0 0 64 0x10004 [tr0], by decide +kernel⟩

/-- A closing range with nothing remaining, on its one page. -/
def closing : Range := { range false with remain := 0, st := .closing, trs := [tr0], vals := [(0, 0x3F800000), (15, 1)] }

theorem wit_AccumulatorsAndArrivals_close :
    let s : State := { idle with ranges := [closing], subj := [5] }
    s.pendCloses.ranges.find? (fun r => r.id == s.sub 0) = some closing ∧ closing.due = true ∧ s.RindOk ∧ closing.trs = [tr0] ∧
      tr0.page ≤ closing.base ∧ closing.base + closing.len ≤ tr0.page + tr0.size ∧ tr0.phys closing.base % 32 = 0 ∧
      (∀ q ∈ s.ranges, q.id = closing.id) ∧ s.op? closing.closer = none ∧
      ∀ i < closing.len / closing.size, i ∉ closing.unpred ∧ i ∉ closing.lost := by
  refine ⟨by decide +kernel, by decide +kernel, rindOk_sub (by decide +kernel), by decide +kernel⟩

/-- Bytes landed, an acknowledgement, a gang completion: taken by a team in RUN, refused to a gang's team that is being saved. -/
def arrival (k : ArrKind) (r : Bool) : Arrival := { id := 9, launch := 1, team := 0, addr := 0xFFFFFFFF, kind := k, refused := r }
def arriving (k : ArrKind) (r : Bool) : State := { idle with arrivals := [arrival k r], subj := [9] }

theorem wit_AccumulatorsAndArrivals_arrival :
    (∀ k ∈ ([.landed 32 true, .ack 0 32, .gang] : List ArrKind),
      (arriving k false).arrivals.find? (fun a => a.id == (arriving k false).sub 0) = some (arrival k false) ∧
        (arriving k false).team? 1 0 = some team ∧ team.ctx = .run ∧ ∀ g ∈ (arriving k false).groups, g.stream = []) ∧
    (let s : State := { arriving (.ack 0 32) false with
       arrivals := [{ arrival (.ack 0 32) false with addr := 32 }], teams := [barTeam [(32, 1), (36, 2), (56, 1)]] }
     let u := barTeam [(32, 1), (36, 2), (56, 1)]
     s.arrivals.find? (fun a => a.id == s.sub 0) = some { arrival (.ack 0 32) false with addr := 32 } ∧ s.team? 1 0 = some u ∧
      localOff 32 ∉ u.loose ∧ u.barValid (localOff 32) = true ∧ u.bar (localOff 32) 0 48 16 < u.bar (localOff 32) 0 32 16) ∧
    (let x : Launch := { launched with block := [0, 0, 0x10000000000000] }
     let s : State := { arriving .gang false with teams := [{ team with ctx := .saving }], launches := [x] }
     s.arrivals.find? (fun a => a.id == s.sub 0) = some (arrival .gang false) ∧ s.team? 1 0 = some { team with ctx := .saving } ∧
      s.launch? 1 = some x ∧ x.bits 2 52 1 = 1) ∧
    (let s := arriving .gang true
     s.contribs.find? (fun c => c.id == s.sub 0 && c.refused) = none ∧ s.packets.find? (fun p => p.id == s.sub 0 && decide (p.st = .refused)) = none ∧
      s.arrivals.find? (fun a => a.id == s.sub 0 && a.refused) = some (arrival .gang true)) := by decide +kernel

/-- A GBARV with nothing before it; a remote arrival at the head of its stream; a BSYNC whose last tick has come; a walk. -/
theorem wit_AccumulatorsAndArrivals_barriers :
    (let q : GangArr := { id := 9, launch := 1, team := 0, gnum := 0, addr := 32, before := 9 }
     let s : State := { idle with gangQ := [q], subj := [9], fabricTime := 200 }
     s.gangQ.find? (fun q => q.id == s.sub 0) = some q ∧ (∀ r ∈ s.gangQ, r.launch = q.launch → r.team = q.team → r.gnum = q.gnum → q.id ≤ r.id) ∧
      s.dark = false ∧ s.relReady (s.coreOf 1 0) 1 0 0 9 2 = true ∧ s.fabAcked 1 0 0 9 = true ∧ s.launch? 1 = some launched ∧
      launched.bits 2 52 1 = 0) ∧
    (let e : LocalAcc := { id := 9, addr := 0x80020, kind := .barv 1, rel := true, after := 0 }
     let g : Group := { grp [] with stream := [e] }
     let s : State := { idle with groups := [g], teams := [{ team with partner := some 1 }, { team with idx := 1 }], subj := [1, 0, 0] }
     s.group? (s.sub 0) (s.sub 1) (s.sub 2) = some g ∧ e.addr / 2 ^ 19 % 2 = 1 ∧ s.localReady g [] e true = true ∧
      s.streamTeam 1 0 e.addr = some { team with idx := 1 } ∧ ∀ h ∈ s.groups, h ≠ g → h.stream = []) ∧
    (let g : Group := { grp [] with wait := .bsync 32 0 1 0 }
     let s : State := { idle with groups := [g], subj := [1, 0, 0] }
     s.group? (s.sub 0) (s.sub 1) (s.sub 2) = some g ∧ s.team? (s.sub 0) (s.sub 1) = some team ∧ team.ctx = .run ∧
      dieOfCore team.core < s.dies.length ∧ g.expired = none ∧
      ({ g with expired := some { detail := 0x10002, missing := [] } } : Group).wait = .bsync 32 0 1 0) ∧
    (let s : State := { idle with now := 100000, subj := [59] }
     (s.die (s.sub 0)).lastWalk + 100000 ≤ s.now ∧ s.sub 0 < s.dies.length ∧ s.stuckNow = []) := by decide +kernel

/-! ### The copy engine -/

def Reach.got {α : Type} (r : Reach α) : Option (α × Bool × List (Nat × Nat × Nat)) :=
  match r with
  | .ok v b x => some (v, b, x)
  | _ => none

theorem reach_got {α : Type} {r : Reach α} {v : α} {b : Bool} {x : List (Nat × Nat × Nat)} (h : Reach.got r = some (v, b, x)) : r = .ok v b x := by
  cases r <;> simp_all [Reach.got]

theorem wit_CopyEngineSteps_writes :
    ∀ v ∈ ([none, some 0] : List (Option Nat)),
      let w : RingWrite := { ring := 3, restart := v }
      let s : State := { idle with teams := [{ team with ringWrites := [w] }], subj := [1, 0, 3] }
      s.ringWrite? (s.sub 0) (s.sub 1) (s.sub 2) = some w ∧ w.restart = v ∧ s.ringState (s.sub 0) (s.sub 1) (s.sub 2) ≠ 2 ∧
        ∀ g ∈ s.groups, g.stream = [] := by decide +kernel

/-- Ring 3 with this NOTIFY and STATE, its entries at 256 in a ring of one. -/
def ringTeam (n st : Byte) (v : Option Nat) : Team :=
  { team with loc := [(96, n), (107, st)], latched := List.replicate 4 (256, 0), ringWrites := [{ ring := 3, restart := v }] }
def ringing (n st : Byte) (v : Option Nat) : State := { idle with teams := [ringTeam n st v], subj := [1, 0, 3] }

/-- BUSY with one NOP published, and with two, which are too many; stopped, and restarted at NOTIFY. -/
theorem wit_CopyEngineSteps_rings :
    (let s := ringing 1 0x40 none
     let t := ringTeam 1 0x40 none
     s.team? 1 0 = some t ∧ t.ctx = .run ∧ s.ringState 1 0 3 = 1 ∧ t.stopping = [] ∧ ahead (s.notify 1 0 3) (s.cons 1 0 3) = 1 ∧
      ahead (s.cons 1 0 3) (s.done 1 0 3) < 4 ∧ ahead (s.notify 1 0 3) (s.done 1 0 3) ≤ 2 ^ (t.latched.getD 3 (0, 0)).2 ∧
      s.copyFault t (s.readCopy t 3 (s.cons 1 0 3)) = none) ∧
    (let s := ringing 2 0x40 none
     s.ringState 1 0 3 = 1 ∧ 2 ^ ((ringTeam 2 0x40 none).latched.getD 3 (0, 0)).2 < ahead (s.notify 1 0 3) (s.done 1 0 3) ∧ s.copies = []) ∧
    (let s := ringing 1 0x80 (some 1)
     s.ringState 1 0 3 = 2 ∧ 1 = s.notify 1 0 3 ∧ (ringTeam 1 0x80 (some 1)).latched.length = 4 ∧ s.hdr 1 0 3 2 24 4 ≤ 10 ∧
      s.hdr 1 0 3 2 0 19 + 32 * 2 ^ s.hdr 1 0 3 2 24 4 ≤ 256 * team.nloc) := by decide +kernel

/-- An entry that fills one 32-bit element of local store at 160, past the ring headers, as taken; feeding ring 0 with a full buffer for tile 3; done. -/
def filler : Copy :=
  { id := 9, launch := 1, team := 0, ring := 0, index := 0, entry := [0x2000000000000000, 0x10000000000000A0, 0, 0]
    desc := [0x21, 0, 0, 0, 1, 1, 4, 4] }
def copying (c : Copy) : State := { idle with copies := [c], subj := [9] }

theorem wit_CopyEngineSteps_landing :
    (let s := copying filler
     s.copies.find? (fun c => c.id == s.sub 0) = some filler ∧ s.team? 1 0 = some team ∧ team.ctx = .run ∧ filler.complete = false ∧ filler.opc ≠ 0 ∧
      filler.fence = false ∧ filler.pos < filler.units ∧ filler.dsp = 1 ∧ filler.waits = none ∧
      s.copyUnit team filler filler.pos = .ok [0, 0, 0, 0] false [] ∧ filler.bad = false ∧
      filler.baren = false ∧ filler.bmen = false ∧ 0 ≤ filler.dstAddr filler.pos ∧
      filler.dstBits / 8 + (if filler.dstBits = 4 then 1 else 0) = 4 ∧ (filler.dstAddr filler.pos).toNat + 4 ≤ 256 * team.nloc ∧
      (filler.dstAddr filler.pos).toNat % 4 = 0 ∧ (filler.dstAddr filler.pos).toNat + filler.halfOf filler.pos = 160 ∧
      (∀ b ∈ team.loose, team.bars.contains b = false) ∧ (s.ringArea 1).all (fun b => decide (160 + 4 ≤ b ∨ b + 128 ≤ 160)) = true ∧
      ∀ g ∈ s.groups, g.stream = []) := by
  refine ⟨by decide +kernel, by decide +kernel, by decide +kernel, by decide +kernel, by decide +kernel, by decide +kernel, by decide +kernel, by decide +kernel,
    by decide +kernel, reach_got (by decide +kernel), by decide +kernel⟩

def feeder : Copy := { filler with entry := [0x2000000000000000, 0x2000000000000000, 0, 0], filling := some 3, buf := List.replicate 8192 7 }

theorem wit_CopyEngineSteps_tile :
    feeder.buf.length = 8192 ∧
    (let s := copying feeder
     s.copies.find? (fun c => c.id == s.sub 0) = some feeder ∧ s.team? 1 0 = some team ∧ feeder.filling = some 3 ∧ feeder.baren = false ∧ feeder.bmen = false ∧
      3 < team.tiles.length ∧ feeder.dst < team.rings.length ∧ ∀ g ∈ s.groups, g.stream = []) := by
  refine ⟨List.length_replicate, ?_⟩
  refine ⟨rfl, by decide +kernel, rfl, by decide +kernel, by decide +kernel, by decide +kernel, by decide +kernel, ?_⟩
  decide +kernel

theorem wit_CopyEngineSteps_complete :
    (let c : Copy := { filler with pos := 1 }
     let s := copying c
     s.copies.find? (fun c => c.id == s.sub 0) = some c ∧ c.complete = false ∧ (c.fence = true → s.copyFirst c = true) ∧ (c.units ≤ c.pos ∧ c.filling = none)) ∧
    (let c : Copy := { filler with entry := [0x0800000000000000, 0, 0, 0] }
     let s : State := { copying c with nextId := 10 }
     s.copies.find? (fun c => c.id == s.sub 0) = some c ∧ c.fence = true ∧ s.copyFirst c = true ∧ c.opc = 0 ∧ c.id < s.nextId) := by decide +kernel
/-! ### Matrix and dispenser steps -/

/-- An operation of the block of `mmaTeam`, with its one k-step to fire, or fired and reading. -/
def mma (issued : Bool) (fired : Nat) : Mma :=
  { id := 9, op := 3, launch := 1, team := 0, gnum := 0, thread := 0, pb := 64
    words := [0, 0x400000000, 0x2000010001, 0x100000000, 0x400000000, 0, 0, 0], range := 5, trs := [tr0], kt := 32, issued := issued
    fired := fired, reading := List.range fired }
def mmas (m : Mma) (k : Core) : State := { idle with mmas := [m], cores := [k], teams := [mmaTeam], ranges := [range false], subj := [9] }

theorem wit_MatrixAndDispenserSteps_queue :
    let m := mma false 0
    let s := mmas m { id := 0 }
    s.mmas.find? (fun m => m.id == s.sub 0) = some m ∧
      (s.mmas.find? (fun x => x.launch == m.launch && x.team == m.team && x.gnum == m.gnum && !x.issued)).map (·.id) = some m.id ∧
      s.mmaQueued 1 0 0 < 8 := by decide +kernel

/-- No cap, one left of a cap of 4, and a cap that is spent. -/
theorem wit_MatrixAndDispenserSteps_fire :
    (∀ k ∈ ([{ id := 0 }, { id := 0, capNow := 4, window := 3 }, { id := 0, capNow := 4, window := 4 }] : List Core),
      let s := mmas (mma true 0) k
      s.mmas.find? (fun m => m.id == s.sub 0) = some (mma true 0) ∧ s.team? 1 0 = some mmaTeam ∧ s.stepReady (mma true 0) = true ∧
        (s.core mmaTeam.core).windowAt = s.windowNow mmaTeam.core ∧
        (∀ x ∈ s.mmasOn mmaTeam.core, x.id < 9 → s.stepReady x = false) ∧ (mma true 0).stalled = false ∧ s.core mmaTeam.core = k ∧
        (k.capNow = 0 ∨ k.window < k.capNow ∨ (k.capNow ≠ 0 ∧ k.capNow ≤ k.window))) ∧
    (let s := mmas (mma true 1) { id := 0 }
     s.mmas.find? (fun m => m.id == s.sub 0) = some (mma true 1) ∧ s.team? 1 0 = some mmaTeam ∧ (mma true 1).reading = [0]) ∧
    (let s : State := { idle with dies := idle.dies.map (fun d => { d with clk := 640 }), subj := [0] }
     (s.core (s.sub 0)).windowAt ≠ s.windowNow (s.sub 0)) := by decide +kernel

/-- The last point of a space of 3 by 2 by 2; a request for it, one past it, one of the static share, one past that. -/
def asks : Op := { id := 3, launch := 1, team := 0, gnum := 0, kind := .fetcht, wants := [31] }
def space (order pos n : Nat) : Launch :=
  { launched with
    ext := (3, 2, 2), pos := pos, counts := [n]
    block := [0, 0, BitVec.ofNat 64 (order * 2 ^ 53)] ++ List.replicate 13 0 }
def dispensing (x : Launch) : State := { idle with launches := [x], ops := [asks], subj := [3] }

theorem wit_MatrixAndDispenserSteps_dispense :
    (0 < 3 ∧ 0 < 2 ∧ 0 < 1 ∧ 11 < 3 * 2 * 2) ∧
    (∀ p ∈ ([11, 12] : List Nat),
      (dispensing (space 0 p 0)).op? ((dispensing (space 0 p 0)).sub 0) = some asks ∧ (dispensing (space 0 p 0)).launch? 1 = some (space 0 p 0) ∧
        asks.wants = [31] ∧ (space 0 p 0).order ≠ 3 ∧ (space 0 p 0).exhausted = false ∧ (space 0 p 0).total = 12) ∧
    (∀ n ∈ ([11, 12] : List Nat),
      (dispensing (space 3 0 n)).launch? 1 = some (space 3 0 n) ∧ (space 3 0 n).order = 3 ∧ (space 3 0 n).exhausted = false ∧
        asks.team + (space 3 0 n).counts.getD asks.team 0 * (space 3 0 n).cores.length = n ∧ (space 3 0 n).total = 12) ∧
    (space 3 0 12).shareLeft 0 = false ∧
      ∀ i < (space 3 0 12).cores.length, (space 3 0 12).shareLeft i = true → ∃ t, (dispensing (space 3 0 12)).team? 1 i = some t ∧ t.exited = true := by
  refine ⟨by decide +kernel, by decide +kernel, by decide +kernel, by decide +kernel, ?_⟩
  have h : ∀ i < (space 3 0 12).cores.length, (space 3 0 12).shareLeft i = false := by decide +kernel
  intro i hi hs
  rw [h i hi] at hs
  exact absurd hs Bool.false_ne_true

/-! ### The fabric -/

/-- A put of 32 bytes from island 0 to island 1, and its packet. -/
def put : FabOp :=
  { id := 3, op := 2, launch := 1, team := 0, gnum := 0, thread := 0, kind := .put, w0 := 0x0020000000000000, w1 := 0x0010000000000000
    bar := 0xFFFFFFFF, order := 0, len := 32, dests := [{ isl := 1, left := 1 }] }
def packet (st : PacketSt) (via : Option Nat) (tries : Nat) : Packet :=
  { id := 9, fab := 3, src := 0, dst := 1, via := via, at_ := 0, len := 32, st := st, tries := tries }
def onFabric (p : Packet) : State :=
  { idle with
    fabs := [put], packets := [p], topo := List.replicate 900 1, subj := [9], now := 500, fabricTime := 25, nextId := 10
    dies := (panelOf leading following).map (fun d => { d with incar := 0 }) }

theorem wit_FabricSteps_packets :
    (let s := onFabric (packet .waiting none 0)
     s.slot < s.fabricTime / 25 ∧ (s.packets.map (·.id)).Nodup) ∧
    (let s : State := { onFabric (packet .flying none 1) with fabs := [] }
     s.packets.find? (fun p => p.id == s.sub 0) = some (packet .flying none 1) ∧ s.fab? 3 = none) ∧
    (∀ v ∈ ([none, some 2] : List (Option Nat)), ∀ n ∈ ([0, 1] : List Nat),
      let p : Packet := { packet .flying v 1 with incar := n }
      let s := onFabric p
      s.packets.find? (fun p => p.id == s.sub 0) = some p ∧ s.fab? p.fab = some put ∧ p.st = .flying ∧ p.id < s.nextId ∧
        (if n = 0 then p.incar = (s.die p.die).incar else p.incar ≠ (s.die p.die).incar) ∧ (if v = none then p.next = p.dst else p.next ≠ p.dst) ∧
        p.tries < 2 ∧ ({ p with tries := 2 } : Packet).noted = false) ∧
    (∀ st ∈ ([.arrived, .refused] : List PacketSt), ∀ n ∈ ([1, 2] : List Nat),
      let p := packet st none n
      let s := onFabric p
      s.packets.find? (fun p => p.id == s.sub 0) = some p ∧ (p.st = .arrived ∨ p.st = .refused) ∧ p.acked = false ∧ p.src ≠ p.dst ∧
        (if n = 1 then p.tries < 2 else 2 ≤ p.tries ∧ p.noted = false)) ∧
    (∀ n ∈ ([1, 2] : List Nat),
      let p := packet .flying none n
      let s := onFabric p
      s.packets.find? (fun p => p.id == s.sub 0) = some p ∧ p.acked = false ∧ p.src ≠ p.dst ∧ p.st = .flying ∧ p.sentAt + 500 ≤ s.now ∧
        (s.packets.map (·.id)).Nodup ∧ (∀ q ∈ s.packets, s.diePresent q.die = true) ∧ (n = 1 ∨ 2 ≤ n)) ∧
    (let p := packet .flying none 1
     let s : State := { onFabric p with dieMask := BitVec.allOnes 60 &&& ~~~1 }
     s.packets.find? (fun p => p.id == s.sub 0) = some p ∧ s.diePresent p.die = false ∧ p.at_ = p.src ∧ p.resp = false) ∧
    (let s := onFabric (packet .flying none 2)
     s.leader?.isSome = true ∧ s.newEntry 0 1 none ≠ 0 ∧ ∀ v ∈ ([2, 5, 6, 29] : List Nat), v < 30 ∧ s.islMask.getLsbD v = true ∧ v ≠ 0 ∧ v ≠ 1 ∧
      (s.route 0 v).1 = 1 ∧ (s.route v 1).1 = 1) ∧
    (let s : State := { onFabric (packet .flying none 2) with topo := List.replicate 900 0 }
     s.leader?.isSome = true ∧ s.newEntry 0 1 none = 0) := by decide +kernel

/-- Plane 31 as its dark window opens and as it closes; die 5 with die 0 the lease holder. -/
theorem wit_FabricSteps_time :
    (let s : State := { idle with fabricTime := 968750, subj := [31] }
     s.sub 0 < 32 ∧ s.blackout.getD (s.sub 0) false = false ∧ s.planeRetrains (s.sub 0) = false ∧ (s.fabricTime + 1000000 - 31250 * s.sub 0) % 1000000 < 200) ∧
    (let s : State := { idle with fabricTime := 968950, subj := [31], blackout := List.replicate 32 true }
     s.sub 0 < 32 ∧ s.blackout.getD (s.sub 0) false = true ∧ 200 ≤ (s.fabricTime + 1000000 - 31250 * s.sub 0) % 1000000) ∧
    (let s := led leading following [5]
     s.leader? = some 0 ∧ ({ s with fabricTime := 200 } : State).dark = false ∧ (s.die (s.sub 0)).counterOn = true ∧ s.diePresent (s.sub 0) = true) := by decide +kernel

/-- Fabric time with plane 0 dark, or not. -/
def linkNow (b : Bool) : Nat := if b then 1000000 else 1000200

/-- The last link of an island in a state: with n requests counted, no deferral running (w 0), one just over (1) or one still running (2), and
just changed or changed 64000 ns ago. -/
def linkAt (st : LinkSt) (n w : Nat) (b : Bool) (past : Nat) : Link :=
  { st := st, requests := n, deferred := if w = 0 then 0 else linkNow b + w - 1, since := linkNow b - past }
def linked (i : Nat) (k : Link) (b : Bool) : State :=
  { idle with links := List.replicate (32 * i + 31) {} ++ [k], subj := [i, 31], fabricTime := linkNow b }
def linkMeets (i : Nat) (st : LinkSt) (n w : Nat) (b : Bool) (past : Nat) : Bool :=
  let k := linkAt st n w b past
  let s := linked i k b
  decide (s.sub 0 < 30) && decide (s.sub 1 < 32) && s.link (s.sub 0) (s.sub 1) == k && s.dark == b && k.since + past == s.fabricTime &&
    (if w = 2 then decide (s.fabricTime < k.deferred) else decide (k.deferred ≤ s.fabricTime))

theorem wit_LinkStates :
    ([.pam4, .step, .two, .probe, .req, .retrain].all fun st => [(2, 0), (2, 1), (2, 2), (3, 1), (3, 2)].all fun n => [false, true].all fun b =>
      linkMeets 0 st n.1 n.2 b 0 && linkMeets 0 st n.1 n.2 b 64000) = true ∧ linkMeets 29 .pam4 2 0 false 0 = true := by
  decide +kernel

/-! ### The lease and booting -/

theorem wit_LeaderLease :
    (let s := led leading following [0]
     s.dies.length = 60 ∧ (s.die 0).lease.st = .leader ∧ s.diePresent 0 = true ∧ (s.die 0).lease.sent + 2000000 ≤ s.now ∧ (s.die 0).lease.sent + 10000000 ≤ s.now) ∧
    (∀ t ∈ ([4, 5] : List Nat),
      let s := led { leading with hearers := [0], acks := [0] } { following with term := t } [5]
      s.dies.length = 60 ∧ s.leader? = some 0 ∧ s.diePresent 5 = true ∧ (s.die 0).lease.hearers ≠ [] ∧ 5 ∉ (s.die 0).lease.hearers ∧
        (s.die 5).lease.st = .follower ∧ (s.die 5).lease.term = t ∧ (s.die 0).lease.term = 4) ∧
    (let s : State := { led { leading with hearers := [0, 5], acks := [0] } following [5] with dieMask := 0x21 }
     s.leader? = some 0 ∧ 5 ∈ (s.die 0).lease.hearers ∧ 5 ∉ (s.die 0).lease.acks ∧ s.diePresent 5 = true ∧
      ∀ e < 60, s.diePresent e = true → e = 0 ∨ e = 5) ∧
    (let s := led { leading with hearers := [0, 5], acks := [0] } following [5]
     s.leader? = some 0 ∧ 5 ∈ (s.die 0).lease.hearers ∧ 5 ∉ (s.die 0).lease.acks ∧ s.diePresent 7 = true ∧ 7 ∉ (s.die 0).lease.acks ∧ (7 : Nat) ≠ 5) ∧
    (let s := led leading following [5]
     (s.die 5).lease.st = .follower ∧ (s.die 5).lease.heard + 10000000 ≤ s.now) ∧
    (let s := led leading { following with st := .elect, timer := 10000000 } [5]
     (s.die 5).lease.st = .elect ∧ s.diePresent 5 = true ∧ (s.die 5).lease.timer ≤ s.now) ∧
    (let s := led leading { following with st := .elect, term := 3 } [5, 0]
     s.sub 1 = 0 ∧ (s.die 0).lease.st = .leader ∧ s.diePresent 0 = true ∧ (s.die 5).lease.st = .elect ∧ (s.die 5).lease.term < (s.die 0).lease.term) ∧
    (let s := led leading { leading with acks := [5] } [5, 0]
     s.sub 1 = 0 ∧ (s.die 0).lease.st = .leader ∧ (s.die 5).lease.st = .leader ∧ (s.die 5).lease.term = (s.die 0).lease.term ∧
      (s.die 5).lease.claimed = (s.die 0).lease.claimed ∧ (0 : Nat) < 5) ∧
    (let s := led leading { leading with term := 3 } [5, 0]
     s.sub 1 = 0 ∧ (s.die 0).lease.st = .leader ∧ s.diePresent 0 = true ∧ (s.die 5).lease.st = .leader ∧ (s.die 5).lease.term < (s.die 0).lease.term) := by
  refine ⟨?_, ?_, ?_, ?_, ?_, ?_, ?_, ?_, ?_⟩ <;> decide +kernel

/-- Die 5 (partner 4) in a boot state since 0, absent from the panel that die 0 leads, or that nobody leads; with its earlier
failures, and the verdict of the stage it is in. -/
def booting (led : Bool) (b : Boot) (n v late : Nat) : State :=
  let other : Die := if led then joined following else { Die.reset 0 with boot := .pair }
  { idle with
    dieMask := if led then BitVec.allOnes 60 &&& ~~~0x20 else 0, now := 2000000000 + late, subj := [5, v]
    dies := (if led then joined leading else other) :: (List.replicate 4 other ++
      { Die.reset 5 with boot := b, imageFails := n, partnerFails := n, reportFails := n } :: List.replicate 54 other) }

theorem wit_BootJoinAndFence :
    (∀ b ∈ ([.reset, .selftest, .image, .pair, .panel, .fenced] : List Boot), ∀ n ∈ ([0, 1] : List Nat), ∀ v ∈ ([0, 1] : List Nat),
      ∀ late ∈ ([0, 1] : List Nat),
      let s := booting true b n v late
      s.dies.length = 60 ∧ s.sub 0 = 5 ∧ partnerDie 5 = 4 ∧ s.sub 1 < 2 ∧ s.subj = [5, s.sub 1] ∧ s.islMask.getLsbD (5 / 2) = true ∧
        (s.die 5).boot = b ∧ s.leader? = some 0 ∧ s.sub 1 = v ∧ (s.die 5).imageFails = n ∧ (s.die 5).partnerFails = n ∧ (s.die 5).reportFails = n ∧
        s.diePresent 5 = false ∧ (s.die 4).boot = .joined ∧
        (if late = 0 then s.now ≤ (s.die 5).bootSince + 2000000000 else (s.die 5).bootSince + 2000000000 < s.now)) ∧
    (let s := booting false .panel 0 0 0
     s.dies.length = 60 ∧ (s.die 5).boot = .panel ∧ s.leader? = none ∧ s.dieMask = 0 ∧ s.diePresent 5 = false ∧ (s.die 5).bootSince + 500000000 ≤ s.now) ∧
    (let s := led leading following [5, 0]
     (s.die 5).boot = .joined ∧ s.diePresent 5 = true ∧ s.subj = [5, s.sub 1]) := by decide +kernel
/-! ### Host, power and errors -/

/-- Words of memory, 64 bits each, at rising addresses. -/
def nums (ws : List (Nat × DWord)) : Cells Byte :=
  ws.flatMap (fun w => ((bytesOf w.2.toNat 8).zipIdx.filter (fun p => decide (p.1 ≠ 0))).map (fun p => (w.1 + p.2, p.1)))

/-- The mailbox window where it lies after reset. -/
def window : Nat := 0x3FF0000000

theorem wit_HostAndQueues_read :
    (let s : State := { idle with subj := [1, 0x1000, 4096], topo := List.replicate 900 1 }
     s.subj = [1, 0x1000, 4096] ∧ hostSize 4096 = true ∧ 0x1000 % 4096 = 0 ∧ s.hostAbsent 1 0x1000 = false ∧
      (s.ranges.all fun _ => false) = true) ∧
    (let s : State := { idle with subj := [1, 0x1000, 4], dieMask := 1 }
     hostSize 4 = true ∧ s.hostAbsent 1 0x1000 = true) := by decide +kernel

theorem wit_HostAndQueues_write :
    (let s : State := { idle with subj := [0, 0x1000, 1, 2, 3, 4] }
     s.subj = 0 :: 0x1000 :: ([1, 2, 3, 4] : List Byte).map (·.toNat) ∧ hostSize 4 = true ∧ 0x1000 % 4 = 0 ∧ s.hostAbsent 0 0x1000 = false ∧
      s.inMailbox 0x1000 = false ∧ ∀ b ∈ (s.die (dieOfPa 0x1000)).blocks, b.dirty = []) ∧
    (let s : State := { idle with subj := [0, window + 0x4000, 1, 2, 3, 4] }
     s.subj = 0 :: (window + 0x4000) :: ([1, 2, 3, 4] : List Byte).map (·.toNat) ∧ (window + 0x4000) % 4 = 0 ∧ s.hostAbsent 0 (window + 0x4000) = false ∧
      s.inMailbox (window + 0x4000) = true ∧ s.mailbox + 0x4000 ≤ window + 0x4000 ∧ s.RindOk) ∧
    (let s : State := { idle with subj := [0, 0x1000, 1, 2, 3, 4], dieMask := 2 }
     s.hostAbsent 0 0x1000 = true) := by
  refine ⟨by decide +kernel, ⟨by decide +kernel, by decide +kernel, by decide +kernel, by decide +kernel, by decide +kernel, rindOk_sub (by decide +kernel)⟩,
    by decide +kernel⟩

/-- Queue 255 with a good descriptor (rings of 16), and with one whose rings have 8. -/
def descriptor (rings : DWord × DWord) : State :=
  { idle with subj := [255], mem := nums [(window + 64 * 255, rings.1), (window + 64 * 255 + 24, rings.2)] }

theorem wit_HostAndQueues_queue :
    (descriptor (0x400004000, 0x400008000)).noHome (descriptor (0x400004000, 0x400008000)).mailbox = false ∧
    (descriptor (0x400004000, 0x400008000)).qfield 255 5 0 2 ≠ 1 ∧
    (descriptor (0x400004000, 0x400008000)).badDescriptor 255 = false ∧
    (descriptor (0x300004000, 0x300008000)).badDescriptor 255 = true ∧
    (descriptor (0x400004000, 0x400008000)).RindOk :=
  ⟨by decide +kernel, by decide +kernel, by decide +kernel, by decide +kernel, rindOk_sub (by decide +kernel)⟩

theorem wit_HostAndQueues_register :
    (let s : State := { idle with subj := [0, 0x3FF8, 1, 8] }
     (s.sub 3 = 1 ∨ s.sub 3 = 2 ∨ s.sub 3 = 4 ∨ s.sub 3 = 8) ∧ s.sub 0 = 0 ∧ s.sub 1 % s.sub 3 = 0 ∧ s.sub 1 + s.sub 3 ≤ 0x4000 ∧ s.noHome s.mailbox = false) ∧
    (∀ v ∈ ([5, 0xFFFFFFFF] : List Nat),
      let s : State := { idle with subj := [1, 59, 35, v], launches := [] }
      s.sub 0 = 1 ∧ s.sub 1 < 60 ∧ s.sub 2 < 36 ∧ s.launches.any Launch.onDies = false ∧ s.sub 3 < 2 ^ 32 ∧
        latencyOk (s.sub 2) (s.sub 3) = decide (v = 0xFFFFFFFF)) ∧
    (let s := led leading following []
     s.leader?.isSome = true ∧ s.noHome s.mailbox = false ∧ s.RindOk) := by
  refine ⟨by decide +kernel, by decide +kernel, by decide +kernel, by decide +kernel, rindOk_sub (by decide +kernel)⟩

/-- Errors of each kind, corrected and lasting, at die 0 or its core 95; a link with one die. -/
theorem wit_PowerAndErrors :
    (let s : State := { idle with now := 10000, subj := [59], dies := idle.dies.map (fun x => { x with sag := true }) }
     s.sub 0 < 60 ∧ (s.die (s.sub 0)).sag = true ∧ (s.die (s.sub 0)).sagSince + 10000 ≤ s.now) ∧
    (let s : State := { idle with subj := [95, 7] }
     s.sub 0 = 95 ∧ 95 < 2 ^ 13 ∧ 95 % 128 < 96 ∧ s.diePresent (dieOfCore 95) = true) ∧
    (∀ k ∈ ([1, 2, 4] : List Nat), ∀ b ∈ ([0, 1] : List Nat),
      let s : State := { idle with subj := [0x1000, b, k] }
      (k = 1 ∨ k = 2 ∨ k = 4) ∧ s.diePresent (dieOfPa 0x1000) = true ∧ s.sub 1 = b ∧ s.sub 2 = k ∧ s.sub 0 = 0x1000 ∧ s.dies.length = 60) ∧
    (∀ k ∈ ([5, 6, 7, 8] : List Nat), ∀ b ∈ ([0, 1] : List Nat),
      let s : State := { idle with subj := [95, b, k] }
      5 ≤ k ∧ k ≤ 8 ∧ 95 % 128 < 96 ∧ s.diePresent (dieOfCore 95) = true ∧ s.sub 1 = b ∧ s.sub 2 = k ∧ s.sub 0 = 95) ∧
    (∀ b ∈ ([0, 1] : List Nat),
      let s : State := { idle with subj := [29, b], dieMask := BitVec.allOnes 60 >>> 1 }
      s.sub 0 = 29 ∧ (s.diePresent 58 || s.diePresent 59) = true ∧ s.sub 1 = b) := by decide +kernel

/-! ### Packets -/

/-- Queue q runs and holds the one packet `p`, at the place `x`. -/
def taking (q : Nat) (p : List DWord) (x : Queue) (more : Cells Byte) : State :=
  { idle with
    queues := [{ x with q := q }], subj := [q], launches := []
    mem := more ++ nums ([(window + 64 * q, 0x400004000), (window + 64 * q + 16, BitVec.ofNat 64 (x.next + 1)), (window + 64 * q + 40, 1)] ++
      p.zipIdx.map (fun w => (window + 0x4000 + 32 * x.next + 8 * w.2, w.1))) }

/-- Queue 1 takes that packet. -/
def takes (q : Nat) (p : List DWord) (x : Queue) (more : Cells Byte) : Bool :=
  let s := taking q p x more
  s.take q == some ({ x with q := q }, p) && s.sub 0 == q && !s.launchesOpen q && !s.noHome s.mailbox && s.queues.any (fun x => x.q == q) &&
    (x.busy != some x.next) && s.cores.isEmpty

/-- One packet of each opcode that structures a queue, with no must-be-zero bit set: opcode, packet, place. WAIT and IF with
a condition that holds (word 0 equals 0) and one that does not; LOOP with its count 2 and 0; each structure taken and skipped;
the last repetition of a loop and one before it; a nesting of seven. -/
def structured : List (Nat × List DWord × Queue) :=
  [ (0, [0, 0, 0, 0], { q := 1 }), (0xA, [0xA, 0, 0, 0], { q := 1 }), (0xFF, [0xFF, 0, 0, 0], { q := 1, stack := [(1, 0, 0)], skip := 1 }),
    (3, [3, 0x1000, 0, 0xFFFFFFFF], { q := 1 }), (3, [0x103, 0x1000, 0, 0xFFFFFFFF], { q := 1 }),
    (5, [5, 0x1008, 0, 0], { q := 1, stack := List.replicate 7 (1, 0, 0) }), (5, [5, 0x1000, 0, 0], { q := 1 }),
    (5, [5, 0x1008, 0, 0], { q := 1, stack := [(1, 0, 0)], skip := 1 }), (6, [6, 0, 0, 0], { q := 1, next := 3, stack := [(0, 0, 1)] }),
    (6, [6, 0, 0, 0], { q := 1, next := 3, stack := [(0, 0, 0)], skip := 1 }), (6, [6, 0, 0, 0], { q := 1, next := 3, stack := [(0, 0, 2)] }),
    (7, [7, 0x1000, 0, 0xFFFFFFFF], { q := 1 }), (7, [0x107, 0x1000, 0, 0xFFFFFFFF], { q := 1 }),
    (7, [7, 0x1000, 0, 0xFFFFFFFF], { q := 1, stack := [(1, 0, 0)], skip := 1 }), (8, [8, 0, 0, 0], { q := 1, stack := [(1, 0, 0)] }),
    (8, [8, 0, 0, 0], { q := 1, stack := [(1, 0, 0)], skip := 1 }), (9, [9, 0, 0, 0], { q := 1, stack := [(1, 0, 0)] }),
    (9, [9, 0, 0, 0], { q := 1, stack := [(2, 0, 0)], skip := 1 }), (4, [4, 0x1000, 5, 0], { q := 1 }), (4, [0x304, 0x1000, 5, 0], { q := 1 }) ]

/-- The assigned bits of those opcodes (R405). -/
def assigned (op : Nat) : List Nat :=
  match op with
  | 3 => [0xFFF, 0x1FFFFFFFFFFFFF, 0xFFFFFFFFFFFFFFFF, 0xFFFFFFFFFFFFFFFF]
  | 4 => [0x1F07FF, 0x1FFFFFFFFFFFFFF, 0xFFFFFFFFFFFFFFFF, 0]
  | 5 => [0xFF, 0x1FFFFFFFFFFFFF, 0, 0]
  | 7 => [0xFFF, 0x1FFFFFFFFFFFFF, 0xFFFFFFFFFFFFFFFF, 0xFFFFFFFFFFFFFFFF]
  | _ => [0xFF, 0, 0, 0]

theorem wit_PacketStructures_take :
    (structured.all fun c => takes 1 c.2.1 c.2.2 (nums [(0x1008, 2)]) && decide (pfield c.2.1 0 0 8 = c.1) && !strayBits c.2.1 (assigned c.1) &&
      decide (c.2.2.stack.length < 8)) = true := by decide +kernel

theorem wit_PacketStructures_rest :
    pfield [0xA, 0, 0, 0] 0 0 8 ∉ opcodes ∧ pfield [0xFF, 0, 0, 0] 0 0 8 ∉ opcodes ∧
    (∀ p ∈ ([[3, 0x1000, 0, 0xFFFFFFFF], [0x103, 0x1000, 0, 0xFFFFFFFF], [7, 0x1000, 0, 0xFFFFFFFF]] : List (List DWord)),
      let s := taking 1 p { q := 1 } []
      badCondition p = false ∧ s.noHome (pfield p 1 0 53) = false ∧ s.condNow p = decide (pfield p 0 8 3 = 0) ∧
        (s.die (dieOfPa (pfield p 1 0 53))).watch.length < 256 ∧ s.dies.length = 60) ∧
    ((taking 1 [5, 0x1008, 0, 0] { q := 1 } (nums [(0x1008, 2)])).homeNum 0x1008 4 = 2 ∧ (taking 1 [5, 0x1000, 0, 0] { q := 1 } []).homeNum 0x1000 4 = 0) ∧
    (∀ p ∈ ([[4, 0x1000, 5, 0], [0x304, 0x1000, 5, 0]] : List (List DWord)),
      let s := taking 1 p { q := 1 } []
      pfield p 0 10 1 = 0 ∧ pfield p 1 53 4 = 0 ∧ (pfield p 0 8 1 = 0 ∨ pfield p 0 8 1 = 1) ∧ s.signalAt 1 p = .home 0x1000 32) ∧
    (taking 1 [0, 0, 0, 0] { q := 1 } []).RindOk :=
  ⟨by decide +kernel, by decide +kernel, by decide +kernel, by decide +kernel, by decide +kernel, rindOk_sub (by decide +kernel)⟩

/-! ### Launches -/

/-- The lease holder may give out the next number. -/
def numbering : Lease := { leading with next := 1, ackedCeiling := 1 }
def counted (s : State) : State := { s with dies := panelOf numbering following }

theorem wit_LaunchPackets_launch :
    (let p : List DWord := [1, 0x1000, 0x100000001, 1]
     let s := counted (taking 1 p { q := 1 } [])
     s.take 1 = some ({ q := 1 }, p) ∧ pfield p 0 0 8 = 1 ∧ strayBits p [0x3FF, 0x1FFFFFFFFFFFFF, 0xFFFFFFFFFFFFFFFF, 0xFFFFFFFF] = false ∧
      pfield p 1 0 53 % 128 = 0 ∧ pfield p 0 9 1 = 0 ∧ s.dies.length = 60 ∧ s.leader? = some 0 ∧
      notAfter (s.die 0).lease.next (s.die 0).lease.ackedCeiling = true) ∧
    (let p : List DWord := [2, 0x1000, 0x2010, 0]
     let s := counted (taking 1 p { q := 1 } [])
     s.take 1 = some ({ q := 1 }, p) ∧ pfield p 0 0 8 = 2 ∧ strayBits p [0x1FF, 0x1FFFFFFFFFFFFF, 0x1FFFFFFFFFFFFF, 0] = false ∧
      pfield p 1 0 53 % 128 = 0 ∧ s.launchesOpen 1 = false ∧ s.dies.length = 60 ∧ pfield p 2 0 53 % 16 = 0 ∧ s.noHome (pfield p 2 0 53) = false ∧
      s.leader? = some 0 ∧ notAfter (s.die 0).lease.next (s.die 0).lease.ackedCeiling = true) := by
  refine ⟨?_, ?_⟩ <;> decide +kernel

/-- The panel with die 0 the lease holder. -/
def headed (s : State) : State := { s with dies := panelOf leading following }

/-- A launch of one team on core 0 that waits; one placed whose team has exited; one stopping whose team is no longer in RUN. -/
theorem wit_LaunchPackets_life :
    (let x : Launch := { launched with phase := .waiting }
     let s : State := { led leading following [1] with launches := [x], teams := [], groups := [] }
     s.launch? (s.sub 0) = some x ∧ x.held = false ∧ s.leader?.isSome = true ∧
      (∀ y ∈ s.launches.takeWhile (fun y => y.num != x.num), y.queue = x.queue → y.phase ≠ .waiting) ∧ s.mayTake x.num = true ∧ s.fitsWithout x [] = true) ∧
    (let s : State := { idle with teams := [{ team with exited := true }], subj := [1] }
     s.launch? (s.sub 0) = some launched ∧ launched.stopping = false ∧ launched.phase = .placed ∧ s.alive 1 = [] ∧ s.owesNothing 1 = true) ∧
    (let x : Launch := { launched with stopping := true }
     let s : State := { idle with launches := [x], teams := [{ team with ctx := .draining }], subj := [1] }
     s.launch? (s.sub 0) = some x ∧ x.phase ≠ Phase.over ∧ x.kept = false ∧ (∀ t ∈ s.alive 1, t.ctx ≠ .run) ∧ ∀ l ∈ s.lanes, l.launch ≠ x.num) := by
  refine ⟨?_, ?_, ?_⟩ <;> decide +kernel

/-- PREEMPT, RESUME and ABORT of launch 1, held with and without a debug stop. -/
theorem wit_LaunchPackets_preempt :
    (∀ p ∈ ([[0x100000013, 0, 0, 0], [0x100000113, 0, 0, 0]] : List (List DWord)),
      let s := headed { taking 1 p { q := 1 } [] with launches := [launched] }
      s.leader?.isSome = true ∧ s.take 1 = some ({ q := 1 }, p) ∧ pfield p 0 0 8 = 0x13 ∧ strayBits p [0xFFFFFFFF000003FF, 0, 0, 0] = false ∧ pfield p 0 9 1 = 0 ∧
        s.launch? (pfield p 0 32 32) = some launched ∧ launched.stopping = false ∧ launched.phase ≠ Phase.over ∧ launched.num = pfield p 0 32 32 ∧
        ∀ z ∈ s.launches, z.num = launched.num → z = launched) ∧
    (∀ k ∈ ([false, true] : List Bool),
      let p : List DWord := [0x100000213, 0, 0, 0]
      let y : Launch := { launched with held := true, kept := k }
      let s := headed { taking 1 p { q := 1 } [] with launches := [y] }
      s.leader?.isSome = true ∧ s.take 1 = some ({ q := 1 }, p) ∧ pfield p 0 0 8 = 0x13 ∧ strayBits p [0xFFFFFFFF000003FF, 0, 0, 0] = false ∧
        pfield p 0 8 1 = 0 ∧ pfield p 0 9 1 = 1 ∧ s.launch? (pfield p 0 32 32) = some y ∧ y.phase ≠ Phase.over ∧ y.held = true ∧ y.kept = k) := by
  refine ⟨?_, ?_⟩ <;> decide +kernel

/-- A MAP and a decline for the page at 0, asked for and not present: with FILL 2, and with FILL 0 once it has been posted. -/
theorem wit_LaunchPackets_map :
    ∀ p ∈ ([[0x100000014, 0, 0x400F, 0], [0x100002014, 0, 0x400F, 0]] : List (List DWord)), ∀ f ∈ ([0, 2] : List Nat),
      let r : MapReq := { req with posted := decide (f = 0) }
      let s := headed { taking 0 p { q := 0 } (tables (0x400E + f * 2 ^ 60)) with launches := [pooled], mapReqs := [r] }
      s.leader?.isSome = true ∧ s.take 0 = some ({ q := 0 }, p) ∧ pfield p 0 0 8 = 0x14 ∧
        strayBits p [0xFFFFFFFF00003FFF, 0x1FFFFFFFFFFFFFF, 0xFFFFFFFFFFFFFFFF, 0] = false ∧
        s.mapReqs.find? (fun r => r.isl == pfield p 0 8 5 && r.launch == (pfield p 0 32 32) && r.page == pfield p 1 0 57) = some r ∧
        (p.getD 2 0).getLsbD 0 = true ∧ (p.getD 2 0).getLsbD 1 = true ∧ inTransition (p.getD 2 0) = false ∧ leafOk (p.getD 2 0) req.size = true ∧
        s.mappedAt (pfield p 0 8 5) (pfield p 0 32 32) (pfield p 1 0 57) = some (.absent 0 65536 f (BitVec.ofNat 64 (0x400E + f * 2 ^ 60)) 0x3000) ∧
        (r.posted = true ∨ f = 2) := by decide +kernel

/-- The topology of a panel of one island; the page at 0 changed; bank roles of the last die, eight banks left as cache. -/
theorem wit_LaunchPackets_topo :
    let p : List DWord := [0x12, 0x1000, 0, 0]
    let s := headed { taking 1 p { q := 1 } (nums [(0x1000, 1)]) with dieMask := 3 }
    s.leader?.isSome = true ∧ s.take 1 = some ({ q := 1 }, p) ∧ strayBits p [0xFF, 0x1FFFFFFFFFFFFF, 0, 0] = false ∧ s.launches.any Launch.onDies = false ∧
      s.noHome (pfield p 1 0 53) = false ∧
      s.topoOk ((List.range 900).map (fun i => BitVec.ofNat 32 (s.cmdNum (pfield p 1 0 53 + 4 * i) 4))) = true := by decide +kernel

theorem wit_LaunchPackets_pagemode :
    let p : List DWord := [0x100000011, 0, 0x4007, 1]
    let s := headed { taking 1 p { q := 1 } (tables 0x400F) with launches := [pooled] }
    s.leader?.isSome = true ∧ s.take 1 = some ({ q := 1 }, p) ∧ pfield p 0 0 8 = 0x11 ∧ strayBits p [0xFFFFFFFF00001FFF, 0x1FFFFFFFFFFFFFF, 0xFFFFFFFFFFFFFFFF, 0xFFFFFFFF] = false ∧
      pfield p 3 0 32 = 1 ∧ pfield p 0 8 5 < 30 ∧ (p.getD 2 0).getLsbD 1 = true ∧ inTransition (p.getD 2 0) = false ∧ leafOk (p.getD 2 0) 65536 = true ∧
      s.launch? (pfield p 0 32 32) = some pooled ∧ pooled.phase ≠ Phase.over ∧
      s.mappedAt (pfield p 0 8 5) (pfield p 0 32 32) (pfield p 1 0 57) = some (.present tr0) ∧ tr0.page = pfield p 1 0 57 ∧
      tr0.page + 1 * tr0.size ≤ windowBase ∧ s.islandEntry 0 1 0 65536 = some 0x400F ∧ (0x400F : DWord).getLsbD 1 = true ∧ s.changes = [] := by decide +kernel

theorem wit_LaunchPackets_banks :
    (let p : List DWord := [0x10 + 29 * 0x100 + 0x2000 + 0x4000 + 4608 * 0x10000, 0xFFFFFF, 0, 0]
     let s := headed (taking 1 p { q := 1 } [])
     s.leader?.isSome = true ∧ s.take 1 = some ({ q := 1 }, p) ∧ pfield p 0 0 8 = 0x10 ∧ strayBits p [0x1FFFFFFF, 0xFFFFFFFF, 0, 0] = false ∧ 2 * pfield p 0 8 5 + pfield p 0 13 1 = 59 ∧
      pfield p 0 8 5 < 30 ∧ s.diePresent 59 = true ∧ pfield p 0 14 2 ≠ 3 ∧ pfield p 0 16 13 ≤ 4608 ∧
      fewCaches (rolesAfter (s.die 59) ((s.die 59).bankCmd ++ [(1, pfield p 1 0 32, pfield p 0 14 2, pfield p 0 16 13)])) = false ∧
      s.dies.length = 60) ∧
    (let s : State := { idle with
        launches := [], subj := [59], dies := (panelOf leading following).map (fun x => { x with bankCmd := [(1, 0xFFFFFF, 1, 4608)] }) }
     s.leader?.isSome = true ∧ fewCaches (rolesAfter (s.die 59) [(1, 0xFFFFFF, 1, 4608)]) = false ∧ s.sub 0 = 59 ∧ s.dies.length = 60 ∧ (s.die 59).bankCmd = [(1, 0xFFFFFF, 1, 4608)] ∧ s.dieInUse 59 = false ∧
      (s.dies.all fun x => x.blocks.isEmpty) = true) := by
  refine ⟨?_, ?_⟩ <;> decide +kernel

theorem wit_LaunchPackets_transfer :
    ∀ p ∈ ([[0x2000000015, 0x1000, 0, 0], [0x2000000215, 0x1000, 0, 0]] : List (List DWord)),
      let s := headed (taking 1 p { q := 1 } [])
      s.leader?.isSome = true ∧ s.take 1 = some ({ q := 1 }, p) ∧ pfield p 0 0 8 = 0x15 ∧ strayBits p [0xFFFFFFFF000003FF, 0x1FFFFFFFFFFFFF, 0x1FFFFFFFFFFFFF, 0] = false ∧
        pfield p 0 32 32 % 32 = 0 ∧ s.launchesOpen 1 = false ∧ s.sub 1 ≠ 1 ∧ s.noHome (pfield p 1 0 53) = false ∧
        s.noHome (pfield p 1 0 53 + pfield p 0 32 32 - 1) = false := by decide +kernel

/-! ### Steps, checks and rounding -/

theorem wit_StepRunsWord : ∃ (s : State) (l : Lane) (ls : List Lane), s.sched = [] ∧ s.lanes = l :: ls ∧ l.stalled = false ∧ l.idx < l.words.length :=
  ⟨bench [] (.iaddImm 6 6 3 false false), lane (.iaddImm 6 6 3 false false), [], by decide +kernel⟩
theorem wit_StepOtherwise_end : ∃ (s : State) (l : Lane) (ls : List Lane), s.sched = [] ∧ s.lanes = l :: ls ∧ l.stalled = false ∧ l.words.length ≤ l.idx :=
  ⟨{ idle with lanes := [{ lane (.nop 0 0 0 false) with idx := 1 }] }, { lane (.nop 0 0 0 false) with idx := 1 }, [], by decide +kernel⟩
theorem wit_StepOtherwise_event : ∃ (s : State) (i : Instr) (subj : List Nat) (rest : List Choice), s.sched = .event i subj :: rest ∧ i.isWord = false :=
  ⟨{ panel with sched := [.event .supplySag []] }, .supplySag, [], [], by decide +kernel⟩
theorem wit_StepOtherwise_word : ∃ (s : State) (i : Instr) (subj : List Nat) (rest : List Choice), s.sched = .event i subj :: rest ∧ i.isWord = true :=
  ⟨{ panel with sched := [.event (.nop 0 0 0 false) []] }, .nop 0 0 0 false, [], [], by decide +kernel⟩
theorem wit_StepOtherwise_lane : ∃ (s : State) (k : Nat) (l : Lane) (rest : List Choice), s.sched = .lane k :: rest ∧ s.lanes[k]? = some l ∧ l.idx < l.words.length :=
  ⟨{ bench [] (.nop 0 0 0 false) with sched := [.lane 0] }, 0, lane (.nop 0 0 0 false), [], by decide +kernel⟩
theorem wit_StepOtherwise_absent : ∃ (s : State) (k : Nat) (rest : List Choice), s.sched = .lane k :: rest ∧ s.lanes[k]? = none :=
  ⟨{ panel with sched := [.lane 0] }, 0, [], by decide +kernel⟩
theorem wit_StepOtherwise_tick : ∃ (s : State) (n : Nat) (rest : List Choice), s.sched = .tick n :: rest :=
  ⟨{ panel with sched := [.tick 5] }, 5, [], by decide +kernel⟩
theorem wit_StepOtherwise_act : ∃ (s t : State), s.sched = [] ∧ (∀ l ∈ s.lanes, l.stalled = true) ∧ s.firstAct s.events = some t :=
  have h : (State.reset.firstAct State.reset.events).isSome = true := by decide +kernel
  match ht : State.reset.firstAct State.reset.events, h with
  | some t, _ => ⟨State.reset, t, by decide +kernel, by decide +kernel, ht⟩
theorem wit_StepOtherwise_time : ∃ (s : State), s.sched = [] ∧ (∀ l ∈ s.lanes, l.stalled = true) ∧ s.firstAct s.events = none :=
  ⟨{ State.reset with dies := [], blackout := [], fabricTime := 1000, slot := 40 }, by decide +kernel⟩
theorem wit_ReadyTimesKept : ∃ (s t : State), step s = .next t ∧ t.groups ≠ [] :=
  have h : after (step { bench [] (.nop 0 0 0 false) with sched := [.tick 5] }) (fun t => t.groups != []) = true := by decide +kernel
  match hs : step { bench [] (.nop 0 0 0 false) with sched := [.tick 5] }, h with
  | .next t, h => ⟨_, t, hs, by simpa [after] using h⟩
theorem wit_FailedChecksRaise_illop : ∃ (i : Instr) (s : State) (l : Lane) (ls : List Lane) (g : Group) (x : Trap), i.isWord = true ∧ s.lanes = l :: ls ∧
    s.laneGroup? l = some g ∧ checkWord i s l g = some x ∧ x.code = 1 :=
  ⟨.illop 0x000000EF, bench [] (.illop 0x000000EF), lane (.illop 0x000000EF), [], grp [], { code := 0x0001, addr := 0, thread := 0 }, by decide +kernel⟩
theorem wit_FailedChecksRaise_illreg : ∃ (i : Instr) (s : State) (l : Lane) (ls : List Lane) (g : Group) (x : Trap), i.isWord = true ∧ s.lanes = l :: ls ∧
    s.laneGroup? l = some g ∧ checkWord i s l g = some x ∧ x.code = 2 :=
  ⟨.iaddImm 113 6 3 false false, bench [] (.iaddImm 113 6 3 false false), lane (.iaddImm 113 6 3 false false), [], grp [],
    { code := 0x0002, addr := 0, thread := 0 }, by decide +kernel⟩
theorem wit_FailedChecksRaise_regfault : ∃ (i : Instr) (s : State) (l : Lane) (ls : List Lane) (g : Group) (x : Trap), i.isWord = true ∧ s.lanes = l :: ls ∧
    s.laneGroup? l = some g ∧ checkWord i s l g = some x ∧ x.code = 4 :=
  ⟨.iaddImm 16 6 3 false false, { bench [] (.iaddImm 16 6 3 false false) with groups := [{ grp [] with nblk := 1 }] },
    lane (.iaddImm 16 6 3 false false), [], { grp [] with nblk := 1 }, { code := 0x0004, addr := 0, thread := 0 }, by decide +kernel⟩
theorem wit_RoundingRules_same : ∃ (f : Fmt) (x : Nat) (n : Bool) (m : Nat) (e : Int), x < 2 ^ f.width ∧ f.decode x = .fin n m e ∧ 0 < m :=
  ⟨.f32, 0x3F800000, false, 2 ^ 23, -23, by decide +kernel⟩
theorem wit_RoundingRules_down : ∃ (f : Fmt) (neg : Bool) (m : Nat) (e : Int) (s : Bool) (mag : Nat), f.roundMag .rz neg m e false = .bits s mag ∧ mag < f.maxBits :=
  ⟨.f32, false, 2 ^ 24 + 1, 0, false, 0x4B800000, by decide +kernel⟩
theorem wit_RoundingRules_inf : ∃ (f : Fmt) (x y : Nat), f.decode x = .inf false ∧ f.decode y = .inf true :=
  ⟨.f32, 0x7F800000, 0xFF800000, by decide +kernel⟩
theorem wit_RoundingRules_zero : ∃ (f : Fmt) (x y : Nat) (e e' : Int), f.decode x = .fin false 0 e ∧ f.decode y = .fin true 0 e' :=
  ⟨.f32, 0, 0x80000000, -149, -149, by decide +kernel⟩
theorem wit_RoundingRules_negative : ∃ (f : Fmt) (x : Nat) (m : Nat) (e : Int), f.decode x = .fin true (m + 1) e :=
  ⟨.f32, 0xBF800000, 2 ^ 23 - 1, -23, by decide +kernel⟩
theorem wit_EncodeThenDecode : ∃ i : Instr, i.wellFormed = true := ⟨.iaddImm 6 6 3 false false, by decide +kernel⟩

end Sys2Proof.Tests
end

/-! ### The step of a clause in front, with nothing scheduled (log 2) -/

namespace Sys2Proof.Machine

/-- An empty schedule leaves the choice to the fixed order of search (log 2). -/
theorem step_of_sched_nil {s : State} (hs : s.sched = []) : step s = settled s.autoStep := by
  simp only [step, hs]

/-- A clause in front that does not wait in its lane is the one that goes on, and the state is as it was. -/
theorem nextLane_eq_self {s : State} {l : Lane} {ls : List Lane} (hl : s.lanes = l :: ls) (hst : l.stalled = false) :
    s.nextLane = some s := by
  have hidx : s.lanes.findIdx? (fun l => !l.stalled) = some 0 := by simp [hl, List.findIdx?_cons, hst]
  have hfront : s.toFront 0 = some s := by cases s; subst hl; rfl
  rw [State.nextLane, hidx]
  exact hfront

/-- No engine is tried before a clause that can go on (log 2). -/
theorem autoStep_eq_runLane {s : State} {l : Lane} {ls : List Lane} (hl : s.lanes = l :: ls) (hst : l.stalled = false) :
    s.autoStep = s.runLane := by
  rw [State.autoStep, nextLane_eq_self hl hst]

/-- A clause with words left runs the instruction decoded from the word at its index (R45). -/
theorem runLane_of_idx_lt {s : State} {l : Lane} {ls : List Lane} (hl : s.lanes = l :: ls) (hi : l.idx < l.words.length) :
    s.runLane = exec (decodeWord (l.words.getD l.idx 0)) s := by
  simp only [State.runLane, hl, hi, if_true]

/-- Settles O17: the clause in front is the one that goes on (nextLane_eq_self), and it has a word left to run. -/
theorem stepRunsWord : Obligations.StepRunsWord := by
  intro s l ls hs hl hst hi
  calc step s = settled s.autoStep := step_of_sched_nil hs
    _ = settled s.runLane := by rw [autoStep_eq_runLane hl hst]
    _ = settled (exec (decodeWord (l.words.getD l.idx 0)) s) := by rw [runLane_of_idx_lt hl hi]

end Sys2Proof.Machine

/-! ## Numbers (03_numbers): rounding, arithmetic, faithful functions, conversions, reductions and scans -/

namespace Sys2Proof.Machine

/-! ### Exact values in a common unit -/

/-- `m * 2^e` in units of `2^lo`, for `lo ≤ e`. -/
def scaled (lo : Int) (m : Nat) (e : Int) : Nat := m * 2 ^ (e - lo).toNat

theorem scaled_le_scaled_left {lo : Int} {m n : Nat} {e : Int} : scaled lo m e ≤ scaled lo n e ↔ m ≤ n :=
  Nat.mul_le_mul_right_iff (Nat.two_pow_pos _)

theorem scaled_lt_scaled_left {lo : Int} {m n : Nat} {e : Int} : scaled lo m e < scaled lo n e ↔ m < n :=
  Nat.mul_lt_mul_right (Nat.two_pow_pos _)

/-- A power of two moves between the significand and the exponent. -/
theorem scaled_mul_pow {lo e : Int} (h : lo ≤ e) (m k : Nat) : scaled lo (m * 2 ^ k) e = scaled lo m (e + k) := by
  have hk : (e + k - lo).toNat = k + (e - lo).toNat := by omega
  rw [scaled, scaled, hk, Nat.pow_add, Nat.mul_assoc]

theorem scaled_mul_pow_toNat {lo l e : Int} (hlo : lo ≤ l) (h : l ≤ e) (m : Nat) :
    scaled lo (m * 2 ^ (e - l).toNat) l = scaled lo m e := by
  have he : l + ((e - l).toNat : Int) = e := by omega
  rw [scaled_mul_pow hlo, he]

theorem scaled_two_mul {lo e : Int} (h : lo ≤ e - 1) (m : Nat) : scaled lo (2 * m) (e - 1) = scaled lo m e := by
  have he : e - 1 + ((1 : Nat) : Int) = e := by omega
  have hm := scaled_mul_pow h m 1
  rwa [he, Nat.pow_one, Nat.mul_comm m] at hm

theorem scaled_le_of_exp_le (lo : Int) (m : Nat) {e e' : Int} (h : e ≤ e') : scaled lo m e ≤ scaled lo m e' :=
  Nat.mul_le_mul_left m (Nat.pow_le_pow_right Nat.two_pos (by omega))

/-- The model's comparison is that of the exact values, in any unit below both. -/
theorem leScaled_iff {lo e1 e2 : Int} (h1 : lo ≤ e1) (h2 : lo ≤ e2) (m1 m2 : Nat) :
    leScaled m1 e1 m2 e2 = true ↔ scaled lo m1 e1 ≤ scaled lo m2 e2 := by
  have hl1 : (if e1 ≤ e2 then e1 else e2) ≤ e1 := by split <;> omega
  have hl2 : (if e1 ≤ e2 then e1 else e2) ≤ e2 := by split <;> omega
  have hlo : lo ≤ (if e1 ≤ e2 then e1 else e2) := by split <;> assumption
  simp only [leScaled, decide_eq_true_eq]
  rw [← scaled_mul_pow_toNat hlo hl1, ← scaled_mul_pow_toNat hlo hl2, scaled_le_scaled_left]

theorem leScaled_eq_false_iff {lo e1 e2 : Int} (h1 : lo ≤ e1) (h2 : lo ≤ e2) (m1 m2 : Nat) :
    leScaled m1 e1 m2 e2 = false ↔ scaled lo m2 e2 < scaled lo m1 e1 := by
  rw [Bool.eq_false_iff, ne_eq, leScaled_iff h1 h2, Nat.not_le]

/-- A value lies between the powers of two that its leading bit names. -/
theorem scaled_log2_le {lo e : Int} (h : lo ≤ e) {m : Nat} (hm : m ≠ 0) : scaled lo 1 (e + Nat.log2 m) ≤ scaled lo m e := by
  rw [← scaled_mul_pow h, Nat.one_mul, scaled_le_scaled_left]
  exact Nat.log2_self_le hm

theorem scaled_lt_log2_succ {lo e : Int} (h : lo ≤ e) (m : Nat) : scaled lo m e < scaled lo 1 (e + (Nat.log2 m + 1 : Nat)) := by
  rw [← scaled_mul_pow h, Nat.one_mul, scaled_lt_scaled_left]
  exact Nat.lt_log2_self

/-! ### The magnitudes of a format (R71, R72) -/

/-- Significand of the finite value with magnitude bits `mag`. -/
def Fmt.sig (f : Fmt) (mag : Nat) : Nat :=
  if mag / 2 ^ f.mbits = 0 then mag % 2 ^ f.mbits else mag % 2 ^ f.mbits + 2 ^ f.mbits

/-- Exponent of the last bit of that significand: `emin` for subnormals and for the lowest normal values alike. -/
def Fmt.expo (f : Fmt) (mag : Nat) : Int := f.emin + (mag / 2 ^ f.mbits - 1 : Nat)

/-- The value with magnitude bits `mag`, in units of `2^lo`. -/
def Fmt.val (f : Fmt) (lo : Int) (mag : Nat) : Nat := scaled lo (f.sig mag) (f.expo mag)

/-- Magnitude bits of the significand `n` with its last bit `k` places above that of a subnormal. -/
def Fmt.magBits (f : Fmt) (n k : Nat) : Nat :=
  if n < 2 ^ f.mbits then n else (k + 1) * 2 ^ f.mbits + (n - 2 ^ f.mbits)

theorem Fmt.width_eq (f : Fmt) : f.width = f.ebits + f.mbits + 1 := by rw [Fmt.width]; omega

theorem Fmt.emin_le_expo (f : Fmt) (mag : Nat) : f.emin ≤ f.expo mag := by rw [Fmt.expo]; omega

theorem Fmt.maxBits_lt (f : Fmt) : f.maxBits < 2 ^ (f.ebits + f.mbits) := by cases f <;> decide

theorem Fmt.maxBits_div_pos (f : Fmt) : 0 < f.maxBits / 2 ^ f.mbits := by cases f <;> decide

/-- Up to the largest finite value there is neither an infinity nor a NaN. -/
theorem Fmt.le_maxBits_iff (f : Fmt) {mag : Nat} (h : mag < 2 ^ (f.ebits + f.mbits)) :
    mag ≤ f.maxBits ↔ ¬ (f.ieee = true ∧ mag / 2 ^ f.mbits = 2 ^ f.ebits - 1) ∧ ¬ (f = .e4m3 ∧ mag = 0x7F) := by
  cases f <;>
    simp only [Fmt.ebits, Fmt.mbits, Fmt.ieee, Fmt.maxBits, true_and, reduceCtorEq, false_and, not_false_eq_true, and_true,
      Bool.false_eq_true, iff_true] at h ⊢ <;> omega

/-- A finite pattern decodes to the value of its magnitude, with the sign of its sign bit. -/
theorem Fmt.decode_of_le_maxBits (f : Fmt) {x : Nat} (h : x % 2 ^ (f.ebits + f.mbits) ≤ f.maxBits) :
    f.decode x = .fin (decide (x / 2 ^ (f.ebits + f.mbits) % 2 = 1)) (f.sig (x % 2 ^ (f.ebits + f.mbits)))
      (f.expo (x % 2 ^ (f.ebits + f.mbits))) := by
  obtain ⟨hinf, hnan⟩ := (f.le_maxBits_iff (Nat.mod_lt x (Nat.two_pow_pos _))).mp h
  simp only [Fmt.decode, if_neg hinf, if_neg hnan, Fmt.sig, Fmt.expo]
  generalize x % 2 ^ (f.ebits + f.mbits) / 2 ^ f.mbits = ex
  by_cases h0 : ex = 0
  · rw [if_pos h0, if_pos h0, h0, Nat.zero_sub, Int.natCast_zero, Int.add_zero]
  · have he : f.emin + (ex : Int) - 1 = f.emin + (ex - 1 : Nat) := by omega
    rw [if_neg h0, if_neg h0, he]

/-- Only finite patterns decode to finite values. -/
theorem Fmt.le_maxBits_of_decode {f : Fmt} {x : Nat} {n : Bool} {m : Nat} {e : Int} (h : f.decode x = .fin n m e) :
    x % 2 ^ (f.ebits + f.mbits) ≤ f.maxBits := by
  rw [f.le_maxBits_iff (Nat.mod_lt x (Nat.two_pow_pos _))]
  constructor
  · intro hinf
    simp only [Fmt.decode, if_pos hinf] at h
    split at h <;> cases h
  · intro hnan
    simp only [Fmt.decode, if_pos hnan] at h
    split at h
    · split at h <;> cases h
    · cases h

theorem Fmt.decode_mag (f : Fmt) {mag : Nat} (h : mag ≤ f.maxBits) : f.decode mag = .fin false (f.sig mag) (f.expo mag) := by
  have hlt := Nat.lt_of_le_of_lt h f.maxBits_lt
  have hmod := Nat.mod_eq_of_lt hlt
  rw [f.decode_of_le_maxBits (by rwa [hmod]), hmod, Nat.div_eq_of_lt hlt]
  rfl

/-- The top bit of a pattern is 0 or 1. -/
theorem Fmt.topBit_lt_two (f : Fmt) {x : Nat} (h : x < 2 ^ f.width) : x / 2 ^ (f.ebits + f.mbits) < 2 := by
  rw [f.width_eq, Nat.pow_succ'] at h
  exact (Nat.div_lt_iff_lt_mul (Nat.two_pow_pos _)).mpr h

/-- A pattern is its sign bit and its magnitude. -/
theorem Fmt.signBit_add_mag (f : Fmt) {x : Nat} (h : x < 2 ^ f.width) :
    f.signBit (decide (x / 2 ^ (f.ebits + f.mbits) % 2 = 1)) + x % 2 ^ (f.ebits + f.mbits) = x := by
  have hx := Nat.div_add_mod x (2 ^ (f.ebits + f.mbits))
  have hq := f.topBit_lt_two h
  generalize x / 2 ^ (f.ebits + f.mbits) = q at hx hq ⊢
  rcases (by omega : q = 0 ∨ q = 1) with rfl | rfl
  · rwa [Nat.mul_zero] at hx
  · rwa [Nat.mul_one] at hx

theorem Fmt.sig_mul_add (f : Fmt) (a : Nat) {b : Nat} (hb : b < 2 ^ f.mbits) :
    f.sig (2 ^ f.mbits * a + b) = if a = 0 then b else b + 2 ^ f.mbits := by
  rw [Fmt.sig, Nat.mul_add_div (Nat.two_pow_pos _), Nat.div_eq_of_lt hb, Nat.add_zero, Nat.mul_add_mod, Nat.mod_eq_of_lt hb]

theorem Fmt.expo_mul_add (f : Fmt) (a : Nat) {b : Nat} (hb : b < 2 ^ f.mbits) :
    f.expo (2 ^ f.mbits * a + b) = f.emin + (a - 1 : Nat) := by
  rw [Fmt.expo, Nat.mul_add_div (Nat.two_pow_pos _), Nat.div_eq_of_lt hb, Nat.add_zero]

/-- Exponent field and fraction of a magnitude. -/
theorem Fmt.mag_fields (f : Fmt) (mag : Nat) : ∃ a b, b < 2 ^ f.mbits ∧ mag = 2 ^ f.mbits * a + b :=
  ⟨_, _, Nat.mod_lt mag (Nat.two_pow_pos _), (Nat.div_add_mod ..).symm⟩

theorem Fmt.sig_eq_zero (f : Fmt) {mag : Nat} : f.sig mag = 0 ↔ mag = 0 := by
  obtain ⟨a, b, hb, rfl⟩ := f.mag_fields mag
  have hp : 0 < 2 ^ f.mbits := Nat.two_pow_pos _
  rw [f.sig_mul_add a hb]
  by_cases ha : a = 0
  · rw [if_pos ha, ha, Nat.mul_zero, Nat.zero_add]
  · have hmul := Nat.mul_pos hp (Nat.pos_of_ne_zero ha)
    rw [if_neg ha]
    omega

/-- The encoding of a significand that fills its place, and of a subnormal one. -/
theorem Fmt.sig_magBits (f : Fmt) {n k : Nat} (hn : n < 2 * 2 ^ f.mbits) : f.sig (f.magBits n k) = n := by
  rw [Fmt.magBits]
  split
  · next h => rw [Fmt.sig, Nat.div_eq_of_lt h, Nat.mod_eq_of_lt h, if_pos rfl]
  · next h =>
    rw [Nat.mul_comm, f.sig_mul_add _ (by omega), if_neg (Nat.succ_ne_zero k)]
    omega

theorem Fmt.expo_magBits (f : Fmt) {n k : Nat} (hn : n < 2 * 2 ^ f.mbits) (hk : n < 2 ^ f.mbits → k = 0) :
    f.expo (f.magBits n k) = f.emin + k := by
  rw [Fmt.magBits]
  split
  · next h => rw [Fmt.expo, Nat.div_eq_of_lt h, hk h]
  · next h => rw [Nat.mul_comm, f.expo_mul_add _ (by omega), Nat.add_sub_cancel]

theorem Fmt.magBits_sig (f : Fmt) (mag : Nat) : f.magBits (f.sig mag) (f.expo mag - f.emin).toNat = mag := by
  obtain ⟨a, b, hb, rfl⟩ := f.mag_fields mag
  have he : (f.emin + (a - 1 : Nat) - f.emin).toNat = a - 1 := by omega
  rw [f.sig_mul_add a hb, f.expo_mul_add a hb, he, Fmt.magBits]
  by_cases ha : a = 0
  · rw [if_pos ha, if_pos hb, ha, Nat.mul_zero, Nat.zero_add]
  · rw [if_neg ha, if_neg (by omega), Nat.sub_add_cancel (Nat.pos_of_ne_zero ha), Nat.add_sub_cancel, Nat.mul_comm]

/-- The next magnitude lies one unit of the last place further. -/
theorem Fmt.val_succ (f : Fmt) {lo : Int} (hlo : lo ≤ f.emin) (mag : Nat) :
    f.val lo (mag + 1) = scaled lo (f.sig mag + 1) (f.expo mag) := by
  obtain ⟨a, b, hb, rfl⟩ := f.mag_fields mag
  rw [Fmt.val, f.sig_mul_add a hb, f.expo_mul_add a hb]
  by_cases hc : b + 1 < 2 ^ f.mbits
  · rw [Nat.add_assoc, f.sig_mul_add a hc, f.expo_mul_add a hc]
    split
    · rfl
    · rw [Nat.add_right_comm]
  · have hcarry : 2 ^ f.mbits * a + b + 1 = 2 ^ f.mbits * (a + 1) + 0 := by
      rw [Nat.mul_succ]
      omega
    rw [hcarry, f.sig_mul_add _ (Nat.two_pow_pos _), f.expo_mul_add _ (Nat.two_pow_pos _), if_neg (Nat.succ_ne_zero a),
      Nat.add_sub_cancel, Nat.zero_add]
    by_cases ha : a = 0
    · have hb1 : b + 1 = 2 ^ f.mbits := by omega
      rw [if_pos ha, ha, hb1]
    · have hb1 : b + 2 ^ f.mbits + 1 = 2 ^ f.mbits * 2 ^ 1 := by omega
      have he : f.emin + ((a - 1 : Nat) : Int) + (1 : Nat) = f.emin + a := by omega
      rw [if_neg ha, hb1, scaled_mul_pow (by omega), he]

theorem Fmt.val_lt_val (f : Fmt) {lo : Int} (hlo : lo ≤ f.emin) {a b : Nat} (h : a < b) : f.val lo a < f.val lo b := by
  have hstep : ∀ mag, f.val lo mag < f.val lo (mag + 1) := fun mag => by
    rw [f.val_succ hlo]
    exact scaled_lt_scaled_left.mpr (Nat.lt_succ_self _)
  induction h with
  | refl => exact hstep a
  | step _ ih => exact Nat.lt_trans ih (hstep _)

theorem Fmt.val_le_val_iff (f : Fmt) {lo : Int} (hlo : lo ≤ f.emin) {a b : Nat} : f.val lo a ≤ f.val lo b ↔ a ≤ b := by
  constructor
  · intro h
    exact Nat.le_of_not_lt fun hlt => Nat.not_le_of_lt (f.val_lt_val hlo hlt) h
  · intro h
    rcases Nat.eq_or_lt_of_le h with rfl | hlt
    · exact Nat.le_refl _
    · exact Nat.le_of_lt (f.val_lt_val hlo hlt)

/-! ### The one rounding (R77, R78) -/

/-- Exponent of the last bit kept of `m * 2^e`. -/
def Fmt.quantum (f : Fmt) (m : Nat) (e : Int) : Int := max f.emin (e + Nat.log2 m - f.mbits)

/-- Whole part of `m * 2^e` in units of `2^q`. -/
def wholeAt (m : Nat) (e q : Int) : Nat := if q ≤ e then m * 2 ^ (e - q).toNat else m / 2 ^ (q - e).toNat

/-- What remains of `m * 2^e` beside that whole part, in units of `2^e`. -/
def fracAt (m : Nat) (e q : Int) : Nat := if q ≤ e then 0 else m % 2 ^ (q - e).toNat

/-- Whether a mode rounds the magnitude `n` up, for a fraction `r` of `2^sh`. -/
def RMode.up (mode : RMode) (neg : Bool) (n r sh : Nat) : Bool :=
  match mode with
  | .rne => decide (r > 2 ^ (sh - 1)) || (decide (r = 2 ^ (sh - 1)) && decide (n % 2 = 1) && decide (0 < sh))
  | .rz => false
  | .ru => decide (r ≠ 0) && !neg
  | .rd => decide (r ≠ 0) && neg

theorem RMode.up_rz (neg : Bool) (n r sh : Nat) : RMode.rz.up neg n r sh = false := rfl

theorem RMode.up_rne_of_lt {neg : Bool} {n r sh : Nat} (h : r < 2 ^ (sh - 1)) : RMode.rne.up neg n r sh = false := by
  rw [RMode.up, decide_eq_false (Nat.lt_asymm h), decide_eq_false (Nat.ne_of_lt h)]
  rfl

theorem RMode.up_exact (mode : RMode) (neg : Bool) (n sh : Nat) : mode.up neg n 0 sh = false := by
  cases mode with
  | rne => exact RMode.up_rne_of_lt (Nat.two_pow_pos _)
  | rz => rfl
  | ru => rfl
  | rd => rfl

/-- Whether an overflow gives infinity (R78). -/
def Fmt.toInf (f : Fmt) (mode : RMode) (neg : Bool) (m : Nat) (e : Int) : Bool :=
  match mode with
  | .rne => leScaled (2 * (f.maxBits % 2 ^ f.mbits + 2 ^ f.mbits) + 1) (f.emin + (f.maxBits / 2 ^ f.mbits : Nat) - 1 - 1) m e
  | .rz => false
  | .ru => !neg
  | .rd => neg

theorem Fmt.val_maxBits (f : Fmt) (lo : Int) :
    f.val lo f.maxBits =
      scaled lo (f.maxBits % 2 ^ f.mbits + 2 ^ f.mbits) (f.emin + (f.maxBits / 2 ^ f.mbits : Nat) - 1) := by
  have h := f.maxBits_div_pos
  have he : f.emin + ((f.maxBits / 2 ^ f.mbits - 1 : Nat) : Int) = f.emin + (f.maxBits / 2 ^ f.mbits : Nat) - 1 := by omega
  rw [Fmt.val, Fmt.sig, if_neg (Nat.ne_of_gt h), Fmt.expo, he]

theorem Fmt.roundMag_zero (f : Fmt) (mode : RMode) (neg : Bool) (e : Int) : f.roundMag mode neg 0 e false = .bits neg 0 := by
  have hle : ∀ m' e', leScaled 0 (e - 1) m' e' = true := fun m' e' => by
    simp only [leScaled, Nat.zero_mul, Nat.zero_le, decide_true]
  simp only [Fmt.roundMag, Bool.false_eq_true, if_false, Nat.mul_zero, Nat.add_zero, hle, not_true_eq_false, if_true]

section
variable (f : Fmt) {lo e : Int} (hf : lo ≤ f.emin) (he : lo ≤ e - 1)
include hf he

/-- The comparison that tells an overflow. -/
theorem Fmt.leScaled_maxBits_iff (m : Nat) :
    leScaled (2 * m) (e - 1) (f.maxBits % 2 ^ f.mbits + 2 ^ f.mbits) (f.emin + (f.maxBits / 2 ^ f.mbits : Nat) - 1) = true ↔
      scaled lo m e ≤ f.val lo f.maxBits := by
  have h := f.maxBits_div_pos
  rw [leScaled_iff he (by omega), scaled_two_mul he, f.val_maxBits]

/-- Beyond the largest finite value there is an overflow. -/
theorem Fmt.roundMag_of_lt (mode : RMode) (neg : Bool) {m : Nat} (h : f.val lo f.maxBits < scaled lo m e) :
    f.roundMag mode neg m e false = .over neg (f.toInf mode neg (2 * m) (e - 1)) := by
  have hover := mt (f.leScaled_maxBits_iff hf he m).mp (Nat.not_le_of_lt h)
  simp only [Fmt.roundMag, Bool.false_eq_true, if_false, Nat.add_zero, hover, not_false_eq_true, if_true]
  cases mode <;> rfl

/-- Up to it, the whole part in units of the last place is encoded, after the mode's decision. -/
theorem Fmt.roundMag_of_le (mode : RMode) (neg : Bool) {m : Nat} (hm : m ≠ 0) (h : scaled lo m e ≤ f.val lo f.maxBits) :
    f.roundMag mode neg m e false =
      let q := f.quantum m e
      let n := wholeAt (2 * m) (e - 1) q
      .bits neg (f.magBits (if mode.up neg n (fracAt (2 * m) (e - 1) q) (q - (e - 1)).toNat then n + 1 else n)
        (q - f.emin).toNat) := by
  have hle := (f.leScaled_maxBits_iff hf he m).mpr h
  have hm2 : 2 * m ≠ 0 := by omega
  have hq : (if e - 1 + (Nat.log2 (2 * m) : Int) - f.mbits ≤ f.emin then f.emin else e - 1 + (Nat.log2 (2 * m) : Int) - f.mbits) =
      f.quantum m e := by
    rw [Fmt.quantum, Nat.log2_two_mul hm]
    split <;> omega
  simp only [Fmt.roundMag, Bool.false_eq_true, if_false, Nat.add_zero, hle, not_true_eq_false, hq, if_neg hm2]
  cases mode <;> rfl

end

theorem Fmt.emin_le_quantum (f : Fmt) (m : Nat) (e : Int) : f.emin ≤ f.quantum m e := by
  rw [Fmt.quantum]
  omega

/-! ### Rounding toward zero -/

/-- The whole part is the value rounded down to a multiple of `2^q`. -/
theorem scaled_wholeAt_le {lo e q : Int} (he : lo ≤ e) (hq : lo ≤ q) (m : Nat) : scaled lo (wholeAt m e q) q ≤ scaled lo m e := by
  rw [wholeAt]
  split
  · next h => exact Nat.le_of_eq (scaled_mul_pow_toNat hq h m)
  · next h =>
    rw [← scaled_mul_pow_toNat he (Int.le_of_lt (Int.not_le.mp h)), scaled_le_scaled_left]
    exact Nat.div_mul_le_self _ _

theorem scaled_lt_wholeAt_succ {lo e q : Int} (he : lo ≤ e) (hq : lo ≤ q) (m : Nat) :
    scaled lo m e < scaled lo (wholeAt m e q + 1) q := by
  rw [wholeAt]
  split
  · next h =>
    rw [← scaled_mul_pow_toNat hq h, scaled_lt_scaled_left]
    exact Nat.lt_succ_self _
  · next h =>
    rw [← scaled_mul_pow_toNat he (Int.le_of_lt (Int.not_le.mp h)), scaled_lt_scaled_left, Nat.mul_comm]
    exact Nat.lt_mul_div_succ m (Nat.two_pow_pos _)

/-- Magnitude bits of `m * 2^e` with what lies below the last place dropped. -/
def Fmt.truncated (f : Fmt) (m : Nat) (e : Int) : Nat :=
  f.magBits (wholeAt (2 * m) (e - 1) (f.quantum m e)) (f.quantum m e - f.emin).toNat

section
variable (f : Fmt) {lo e : Int} (hf : lo ≤ f.emin) (he : lo ≤ e - 1)
include hf he

/-- The whole part in units of the last place fits the significand. -/
theorem Fmt.whole_lt (m : Nat) : wholeAt (2 * m) (e - 1) (f.quantum m e) < 2 * 2 ^ f.mbits := by
  have hq := Int.le_trans hf (f.emin_le_quantum m e)
  have hexp : e + (Nat.log2 m + 1 : Nat) ≤ f.quantum m e + (f.mbits + 1 : Nat) := by
    rw [Fmt.quantum]
    omega
  rw [← Nat.pow_succ', ← scaled_lt_scaled_left (lo := lo) (e := f.quantum m e)]
  calc scaled lo (wholeAt (2 * m) (e - 1) (f.quantum m e)) (f.quantum m e)
    _ ≤ scaled lo (2 * m) (e - 1) := scaled_wholeAt_le he hq _
    _ = scaled lo m e := scaled_two_mul he m
    _ < scaled lo 1 (e + (Nat.log2 m + 1 : Nat)) := scaled_lt_log2_succ (by omega) m
    _ ≤ scaled lo 1 (f.quantum m e + (f.mbits + 1 : Nat)) := scaled_le_of_exp_le lo 1 hexp
    _ = scaled lo (2 ^ (f.mbits + 1)) (f.quantum m e) := by rw [← scaled_mul_pow hq, Nat.one_mul]

/-- Above the subnormal values the significand is full. -/
theorem Fmt.quantum_eq_emin_of_whole_lt {m : Nat} (hm : m ≠ 0)
    (h : wholeAt (2 * m) (e - 1) (f.quantum m e) < 2 ^ f.mbits) : f.quantum m e = f.emin := by
  have hq := Int.le_trans hf (f.emin_le_quantum m e)
  refine Decidable.byContradiction fun hne => Nat.lt_irrefl (scaled lo m e) ?_
  have hexp : f.quantum m e + f.mbits = e + Nat.log2 m := by
    rw [Fmt.quantum] at hne ⊢
    omega
  calc scaled lo m e
    _ = scaled lo (2 * m) (e - 1) := (scaled_two_mul he m).symm
    _ < scaled lo (wholeAt (2 * m) (e - 1) (f.quantum m e) + 1) (f.quantum m e) := scaled_lt_wholeAt_succ he hq _
    _ ≤ scaled lo (2 ^ f.mbits) (f.quantum m e) := scaled_le_scaled_left.mpr h
    _ = scaled lo 1 (e + Nat.log2 m) := by rw [← hexp, ← scaled_mul_pow hq, Nat.one_mul]
    _ ≤ scaled lo m e := scaled_log2_le (by omega) hm

theorem Fmt.sig_truncated (m : Nat) : f.sig (f.truncated m e) = wholeAt (2 * m) (e - 1) (f.quantum m e) :=
  f.sig_magBits (f.whole_lt hf he m)

theorem Fmt.expo_truncated {m : Nat} (hm : m ≠ 0) : f.expo (f.truncated m e) = f.quantum m e := by
  have hq := f.emin_le_quantum m e
  rw [Fmt.truncated, f.expo_magBits (f.whole_lt hf he m)]
  · omega
  · intro hlt
    rw [f.quantum_eq_emin_of_whole_lt hf he hm hlt, Int.sub_self, Int.toNat_zero]

theorem Fmt.val_truncated_le {m : Nat} (hm : m ≠ 0) : f.val lo (f.truncated m e) ≤ scaled lo m e := by
  rw [Fmt.val, f.sig_truncated hf he, f.expo_truncated hf he hm, ← scaled_two_mul he m]
  exact scaled_wholeAt_le he (Int.le_trans hf (f.emin_le_quantum m e)) _

theorem Fmt.lt_val_truncated_succ {m : Nat} (hm : m ≠ 0) : scaled lo m e < f.val lo (f.truncated m e + 1) := by
  rw [f.val_succ hf, f.sig_truncated hf he, f.expo_truncated hf he hm, ← scaled_two_mul he m]
  exact scaled_lt_wholeAt_succ he (Int.le_trans hf (f.emin_le_quantum m e)) _

/-- Rounding toward zero without an overflow takes the magnitude next below the exact one, or equal to it (R77). -/
theorem Fmt.roundMag_rz {neg : Bool} {m : Nat} {s : Bool} {mag : Nat} (h : f.roundMag .rz neg m e false = .bits s mag) :
    s = neg ∧ mag ≤ f.maxBits ∧ f.val lo mag ≤ scaled lo m e ∧ scaled lo m e < f.val lo (mag + 1) := by
  by_cases hm : m = 0
  · rw [hm, f.roundMag_zero] at h
    cases h
    have hval : f.val lo 0 = scaled lo 0 e := by rw [Fmt.val, f.sig_eq_zero.mpr rfl, scaled, scaled, Nat.zero_mul, Nat.zero_mul]
    rw [hm, ← hval]
    exact ⟨rfl, Nat.zero_le _, Nat.le_refl _, f.val_lt_val hf Nat.zero_lt_one⟩
  rcases Nat.lt_or_ge (f.val lo f.maxBits) (scaled lo m e) with hover | hle
  · rw [f.roundMag_of_lt hf he _ _ hover] at h
    cases h
  · have hval := f.val_truncated_le hf he hm
    rw [f.roundMag_of_le hf he _ _ hm hle] at h
    simp only [RMode.up_rz, Bool.false_eq_true, if_false] at h
    cases h
    exact ⟨rfl, (f.val_le_val_iff hf).mp (Nat.le_trans hval hle), hval, f.lt_val_truncated_succ hf he hm⟩

end

/-! ### Rounding a value of the format -/

/-- The last place of a finite value is where its own significand ends. -/
theorem Fmt.quantum_sig (f : Fmt) {mag : Nat} (hm : f.sig mag ≠ 0) : f.quantum (f.sig mag) (f.expo mag) = f.expo mag := by
  obtain ⟨a, b, hb, rfl⟩ := f.mag_fields mag
  rw [f.sig_mul_add a hb] at hm ⊢
  rw [f.expo_mul_add a hb, Fmt.quantum]
  by_cases ha : a = 0
  · rw [if_pos ha] at hm ⊢
    have hlog : Nat.log2 b < f.mbits := (Nat.log2_lt hm).mpr hb
    omega
  · rw [if_neg ha] at hm ⊢
    have hlog : Nat.log2 (b + 2 ^ f.mbits) = f.mbits := by
      rw [Nat.log2_eq_iff hm, Nat.pow_succ]
      omega
    omega

/-- A finite value that the format represents is its own rounding, in every mode. -/
theorem Fmt.roundMag_val (f : Fmt) (mode : RMode) (neg : Bool) {mag : Nat} (h : mag ≤ f.maxBits) :
    f.roundMag mode neg (f.sig mag) (f.expo mag) false = .bits neg mag := by
  by_cases hm : f.sig mag = 0
  · rw [hm, f.roundMag_zero, f.sig_eq_zero.mp hm]
  have hf : f.emin - 1 ≤ f.emin := by omega
  have hsh : (f.expo mag - (f.expo mag - 1)).toNat = 1 := by omega
  have hwhole : wholeAt (2 * f.sig mag) (f.expo mag - 1) (f.expo mag) = f.sig mag := by
    rw [wholeAt, if_neg (by omega), hsh, Nat.pow_one, Nat.mul_div_cancel_left _ Nat.two_pos]
  have hfrac : fracAt (2 * f.sig mag) (f.expo mag - 1) (f.expo mag) = 0 := by
    rw [fracAt, if_neg (by omega), hsh, Nat.pow_one, Nat.mul_mod_right]
  rw [f.roundMag_of_le hf (Int.sub_le_sub_right (f.emin_le_expo mag) 1) mode neg hm ((f.val_le_val_iff hf).mpr h)]
  simp only [f.quantum_sig hm, hwhole, hfrac, RMode.up_exact, Bool.false_eq_true, if_false, f.magBits_sig]

/-- A finite pattern rounds to itself. -/
theorem Fmt.round_decode (f : Fmt) (mode : RMode) {x : Nat} (hx : x < 2 ^ f.width) {n : Bool} {m : Nat} {e : Int}
    (h : f.decode x = .fin n m e) : f.round mode (.fin n m e) = x := by
  have hle := Fmt.le_maxBits_of_decode h
  rw [f.decode_of_le_maxBits hle] at h
  cases h
  rw [Fmt.round, f.roundMag_val mode _ hle]
  exact f.signBit_add_mag hx

/-! ### Invalid operations (R82) -/

section
variable (f : Fmt) (mode : RMode) {x y : Nat}

theorem Fmt.add_opposite_inf {n : Bool} (hx : f.decode x = .inf n) (hy : f.decode y = .inf (!n)) : f.add mode x y = f.nan := by
  rw [Fmt.add, hx, hy]
  cases n <;> rfl

theorem Fmt.sub_equal_inf {n : Bool} (hx : f.decode x = .inf n) (hy : f.decode y = .inf n) : f.sub mode x y = f.nan := by
  rw [Fmt.sub, hx, hy]
  cases n <;> rfl

theorem Fmt.div_inf_inf {n k : Bool} (hx : f.decode x = .inf n) (hy : f.decode y = .inf k) : f.div mode x y = f.nan := by
  simp only [Fmt.div, hx, hy]

theorem Fmt.div_zero_zero {n k : Bool} {e e' : Int} (hx : f.decode x = .fin n 0 e) (hy : f.decode y = .fin k 0 e') :
    f.div mode x y = f.nan := by
  simp only [Fmt.div, hx, hy, if_true]

/-- 0 times infinity is NaN before any addend is seen. -/
theorem FVal.zero_mul_inf (n k : Bool) (e : Int) :
    (FVal.fin n 0 e).mul (.inf k) = .nan ∧ (FVal.inf k).mul (.fin n 0 e) = .nan := ⟨rfl, rfl⟩

theorem Fmt.mul_of_nan (h : (f.decode x).mul (f.decode y) = .nan) : f.mul mode x y = f.nan := by
  rw [Fmt.mul, h, Fmt.round]

theorem Fmt.fma_of_nan (h : (f.decode x).mul (f.decode y) = .nan) (z : Nat) : f.fma mode x y z = f.nan := by
  rw [Fmt.fma, h, FVal.add, Fmt.round]

theorem Fmt.sqrt_neg {m : Nat} {e : Int} (hx : f.decode x = .fin true (m + 1) e) : f.sqrt mode x = f.nan := by
  simp only [Fmt.sqrt, hx, if_neg (Nat.succ_ne_zero m), if_true]

theorem Fmt.rsq_neg {m : Nat} {e : Int} (hx : f.decode x = .fin true (m + 1) e) : f.rsq mode x = f.nan := by
  simp only [Fmt.rsq, hx, if_neg (Nat.succ_ne_zero m), if_true]

end

/-- Settles O16: a represented value is its own rounding (round_decode); rounding toward zero takes the magnitude next below
(roundMag_rz), and magnitudes up to the largest decode to their values (decode_mag). -/
theorem roundingRules : Obligations.RoundingRules := by
  refine ⟨fun f mode x n m e hx h => f.round_decode mode hx h, ?_, ?_⟩
  · intro f neg m e s mag h
    have hf : min f.emin (e - 1) ≤ f.emin := Int.min_le_left ..
    have he : min f.emin (e - 1) ≤ e - 1 := Int.min_le_right ..
    have hexpo := fun mag => Int.le_trans hf (f.emin_le_expo mag)
    obtain ⟨hs, hmax, hlow, hhigh⟩ := f.roundMag_rz hf he h
    exact ⟨hs, hmax, ⟨_, _, f.decode_mag hmax, (leScaled_iff (hexpo _) (by omega) ..).mpr hlow⟩,
      fun hlt => ⟨_, _, f.decode_mag hlt, (leScaled_eq_false_iff (hexpo _) (by omega) ..).mpr hhigh⟩⟩
  · intro f mode x y
    refine ⟨fun n hx hy => f.add_opposite_inf mode hx hy,
      fun n hx hy => ⟨f.sub_equal_inf mode hx hy, f.div_inf_inf mode hx hy⟩, ?_,
      fun n k e e' hx hy => f.div_zero_zero mode hx hy, fun m e hx => ⟨f.sqrt_neg mode hx, f.rsq_neg mode hx⟩⟩
    intro n k e hx hy
    obtain ⟨hxy, hyx⟩ := FVal.zero_mul_inf n k e
    rw [← hx, ← hy] at hxy hyx
    exact ⟨f.mul_of_nan mode hxy, f.mul_of_nan mode hyx, fun z => ⟨f.fma_of_nan mode hxy z, f.fma_of_nan mode hyx z⟩⟩

/-! ### Instructions built on `alu` -/

/-- What `new` says of registers of threads that there are decides alone. -/
theorem WritesOnly.congr {s t : State} {now l : Lane} {ls : List Lane} {g : Group} {new new' : Nat → Nat → Option Word}
    (h : WritesOnly s t now l ls g new) (hnew : ∀ r th, th < 32 → new r th = new' r th) : WritesOnly s t now l ls g new' := by
  obtain ⟨hrest, hlanes, ⟨g', hg', hregs⟩, hgroups, hquiet⟩ := h
  refine ⟨hrest, hlanes, ⟨g', hg', fun r th hth => ?_⟩, hgroups, fun hread => hquiet fun r th hiss hsome => ?_⟩
  · rw [← hnew r th hth, hregs r th hth]
  · exact hread r th hiss (by rwa [← hnew r th (BitVec.lt_of_getLsbD hiss)])

theorem Lane.lowest_lt (l : Lane) : l.lowest < 32 := by
  rw [Lane.lowest]
  cases h : threadsOf l.issuing with
  | nil => decide
  | cons th ths => exact ((mem_threadsOf l.issuing th).mp (h ▸ List.mem_cons_self)).1

/-- Two functions that agree on every view of a thread below 32 are computed alike. -/
theorem Computes.congr {i : Instr} {u : Bool} {d : BitVec 7} {f f' : Thr → List Word} (h : Computes i u d f)
    (hf : ∀ e : Thr, e.t < 32 → f e = f' e) : Computes i u d f' := by
  intro s l ls g hr
  obtain ⟨t, hexec, hw⟩ := h s l ls g hr
  refine ⟨t, hexec, hw.congr fun r th hth => ?_⟩
  rw [hf]
  cases u
  · exact hth
  · exact l.lowest_lt

/-- `alu_computes`, the instruction and its function read off the statement. -/
theorem computes {i : Instr} {u : Bool} {d : BitVec 7} {f : Thr → List Word} (h : ∀ s, exec i s = alu i u d f s) :
    Computes i u d f := alu_computes i u d f h

/-- An element of a typed operand lies within its format. -/
theorem fun1_congr {t : BitVec 2} {f g : Fmt → Nat → Nat} (e : Thr) (a : BitVec 7)
    (h : ∀ k x, x < 2 ^ Fmt.width k → f k x = g k x) : fun1 t f e a = fun1 t g e a := by
  simp only [fun1]
  rw [h .f64 _ (e.v64 a).isLt, h .f32 _ (e.v32 a).isLt, h .bf16 _ ((e.v32 a).extractLsb' 16 16).isLt,
    h .bf16 _ ((e.v32 a).setWidth 16).isLt]

theorem fun2_congr {t : BitVec 2} {f g : Fmt → Nat → Nat → Nat} (e : Thr) (a b : BitVec 7)
    (h : ∀ k x y, f k x y = g k x y) : fun2 t f e a b = fun2 t g e a b := by
  simp only [fun2, h]

/-! ### Floating-point functions, case by case -/

section
variable (f : Fmt)

/-- FSCALE of a finite value, zeros among them, is one rounding (R82). -/
theorem Fmt.scale_fin (mode : RMode) {a : Nat} {n : Bool} {m : Nat} {e : Int} (h : f.decode a = .fin n m e) (x : Int) :
    f.scale mode a x = f.round mode (.fin n m (e + x)) := by
  simp only [Fmt.scale, h]
  split
  · next hm => rw [hm, Fmt.round, f.roundMag_zero, Fmt.ofRounded, Nat.add_zero]
  · rfl

theorem Fmt.minMaxNum_eq (max : Bool) (a b : Nat) :
    f.minMaxNum max a b =
      if (f.decode a).isNan then (if (f.decode b).isNan then f.nan else b)
      else if (f.decode b).isNan then a
      else if max then (if (f.decode a).below (f.decode b) then b else a)
      else if (f.decode a).below (f.decode b) then a else b := by
  simp only [Fmt.minMaxNum, Fmt.minMax]
  cases (f.decode a).isNan <;> cases (f.decode b).isNan <;> rfl

/-- The sign of a value that is not NaN is the top bit of its pattern. -/
theorem Fmt.sign_decode {a : Nat} (h : a < 2 ^ f.width) (hn : f.decode a ≠ .nan) :
    (f.decode a).sign = decide (2 ^ (f.width - 1) ≤ a) := by
  have htop : (a / 2 ^ (f.ebits + f.mbits) % 2 = 1) = (2 ^ (f.width - 1) ≤ a) := by
    have hlt := f.topBit_lt_two h
    have hle : 1 ≤ a / 2 ^ (f.ebits + f.mbits) ↔ 2 ^ (f.ebits + f.mbits) ≤ a := by
      rw [Nat.le_div_iff_mul_le (Nat.two_pow_pos _), Nat.one_mul]
    rw [f.width_eq, Nat.add_sub_cancel, ← hle]
    generalize a / 2 ^ (f.ebits + f.mbits) = q at hlt
    exact propext (by omega)
  simp only [Fmt.decode, htop] at hn ⊢
  split
  · split
    · rfl
    · next hinf hfr => exact absurd (by rw [if_pos hinf, if_neg hfr]) hn
  · split
    · next hinf hmag => exact absurd (by rw [if_neg hinf, if_pos hmag]) hn
    · split <;> rfl

/-- The one bit that FCLASS sets is that of the class of its operand (R86). -/
theorem Fmt.classMask_eq {a : Nat} (h : a < 2 ^ f.width) : f.classMask a = 2 ^ classBit f a := by
  have hsign := f.sign_decode h
  rw [Fmt.classMask, classBit]
  cases hd : f.decode a with
  | nan =>
    simp only [Nat.testBit_eq_decide_div_mod_eq, decide_eq_true_eq]
    split <;> rfl
  | inf n =>
    obtain rfl : n = decide (2 ^ (f.width - 1) ≤ a) := by
      rw [hd] at hsign
      exact hsign FVal.noConfusion
    cases decide (2 ^ (f.width - 1) ≤ a) <;> rfl
  | fin n m e =>
    obtain rfl : n = decide (2 ^ (f.width - 1) ≤ a) := by
      rw [hd] at hsign
      exact hsign FVal.noConfusion
    simp only
    generalize decide (2 ^ (f.width - 1) ≤ a) = n
    split
    · cases n <;> rfl
    · split <;> cases n <;> rfl

/-- FNEG inverts the sign bit: it adds it, modulo the width. -/
theorem Fmt.negBits_eq {a : Nat} (h : a < 2 ^ f.width) : f.negBits a = (a + 2 ^ (f.width - 1)) % 2 ^ f.width := by
  rw [f.width_eq] at h ⊢
  rw [Nat.add_sub_cancel, Fmt.negBits, Fmt.signBit, if_pos rfl]
  refine Nat.eq_of_testBit_eq fun j => ?_
  rw [Nat.testBit_xor, Nat.testBit_two_pow, Nat.testBit_mod_two_pow, Nat.add_comm a]
  rcases Nat.lt_trichotomy j (f.ebits + f.mbits) with hj | rfl | hj
  · rw [Nat.testBit_two_pow_add_gt hj, decide_eq_false (Nat.ne_of_gt hj), decide_eq_true (Nat.lt_succ_of_lt hj), Bool.xor_false,
      Bool.true_and]
  · rw [Nat.testBit_two_pow_add_eq, decide_eq_true rfl, decide_eq_true (Nat.lt_succ_self _), Bool.xor_true, Bool.true_and]
  · have hlow : a.testBit j = false :=
      Nat.testBit_lt_two_pow (Nat.lt_of_lt_of_le h (Nat.pow_le_pow_right Nat.two_pos hj))
    rw [hlow, decide_eq_false (Nat.ne_of_lt hj), decide_eq_false (Nat.not_lt.mpr hj), Bool.false_and]
    rfl

theorem Fmt.absBits_eq (a : Nat) : f.absBits a = a % 2 ^ (f.width - 1) := by
  rw [Fmt.absBits, Fmt.signBit, if_pos rfl, f.width_eq, Nat.add_sub_cancel]

end

/-- Settles O8: the instructions round as the model's arithmetic does by definition; FSCALE's zeros round to themselves
(scale_fin). -/
theorem floatArithmetic : Obligations.FloatArithmetic := by
  refine ⟨fun _ _ _ _ _ _ => computes fun _ => rfl, fun _ _ _ _ _ _ => computes fun _ => rfl,
    fun _ _ _ _ _ _ => computes fun _ => rfl, fun _ _ _ _ _ _ => computes fun _ => rfl,
    fun _ _ _ _ _ _ => computes fun _ => rfl, fun _ _ _ _ _ _ => computes fun _ => rfl,
    fun _ _ _ _ _ _ => computes fun _ => rfl, fun _ _ _ _ _ _ => computes fun _ => rfl, ?_⟩
  intro d a b u m t
  refine (computes fun _ => rfl).congr fun e _ => fun1_congr e a fun k x _ => ?_
  cases h : k.decode x with
  | nan => simp only [Fmt.scale, h, Fmt.round]
  | inf n => simp only [Fmt.scale, h, Fmt.round]
  | fin n p q => exact k.scale_fin _ h _

/-- Settles O9: FMIN and FMAX are `minMax` by definition; FMINN and FMAXN by which operands are NaN (minMaxNum_eq). -/
theorem floatMinMax : Obligations.FloatMinMax := by
  refine ⟨fun _ _ _ _ _ => computes fun _ => rfl, fun _ _ _ _ _ => computes fun _ => rfl, ?_, ?_⟩
  · exact fun d a b u t => (computes fun _ => rfl).congr fun e _ => fun2_congr e a b fun k x y => k.minMaxNum_eq false x y
  · exact fun d a b u t => (computes fun _ => rfl).congr fun e _ => fun2_congr e a b fun k x y => k.minMaxNum_eq true x y

/-- Settles O10: FCMP's conditions are those of `ordered` by definition; FCLASS by classMask_eq. -/
theorem floatCompareAndClass : Obligations.FloatCompareAndClass := by
  refine ⟨fun _ _ _ _ _ => computes fun _ => rfl, fun _ _ _ _ _ => computes fun _ => rfl, fun _ _ _ _ _ => computes fun _ => rfl,
    fun _ _ _ _ _ => computes fun _ => rfl, fun _ _ _ _ _ => computes fun _ => rfl, fun _ _ _ _ _ => computes fun _ => rfl,
    fun _ _ _ _ _ => computes fun _ => rfl, fun _ _ _ _ _ => computes fun _ => rfl, ?_⟩
  intro d a z u t
  refine (computes fun _ => rfl).congr fun e _ => ?_
  rw [Fmt.f64.classMask_eq (e.v64 a).isLt, Fmt.f32.classMask_eq (e.v32 a).isLt, apply_ite (2 ^ ·)]

/-! ### A word that writes two fields -/

theorem get_regWrites_append (m : Cells Word) (iss : Word) (new1 new2 : Nat → Nat → Option Word) (ws1 ws2 : List RegWrite)
    (h1 : ∀ w : RegWrite, w ∈ ws1 ↔ w.1 < 32 ∧ iss.getLsbD w.1 = true ∧ new1 w.2.1 w.1 = some w.2.2)
    (h2 : ∀ w : RegWrite, w ∈ ws2 ↔ w.1 < 32 ∧ iss.getLsbD w.1 = true ∧ new2 w.2.1 w.1 = some w.2.2) (r th : Nat) (hth : th < 32) :
    Cells.get 0 ((ws1 ++ ws2).foldl (fun m (w : RegWrite) => Cells.set 0 m (32 * w.2.1 + w.1) w.2.2) m) (32 * r + th) =
      if iss.getLsbD th then ((new2 r th).or (new1 r th)).getD (Cells.get 0 m (32 * r + th)) else Cells.get 0 m (32 * r + th) := by
  rw [List.foldl_append, get_regWrites _ iss new2 ws2 (fun w => (h2 w).mp) (fun r th v ha hb hc => (h2 (th, r, v)).mpr ⟨ha, hb, hc⟩) r th hth,
    get_regWrites _ iss new1 ws1 (fun w => (h1 w).mp) (fun r th v ha hb hc => (h1 (th, r, v)).mpr ⟨ha, hb, hc⟩) r th hth]
  cases iss.getLsbD th
  · rfl
  · cases new2 r th <;> rfl

/-- Writing one field after another: where both name a register the second one's value stands. -/
theorem putRegs_two_fields (s : State) (l : Lane) (ls : List Lane) (g : Group) (new1 new2 : Nat → Nat → Option Word) (ws1 ws2 : List RegWrite)
    (hl : s.lanes = l :: ls) (hg : s.laneGroup? l = some g)
    (h1 : ∀ w : RegWrite, w ∈ ws1 ↔ w.1 < 32 ∧ l.issuing.getLsbD w.1 = true ∧ new1 w.2.1 w.1 = some w.2.2)
    (h2 : ∀ w : RegWrite, w ∈ ws2 ↔ w.1 < 32 ∧ l.issuing.getLsbD w.1 = true ∧ new2 w.2.1 w.1 = some w.2.2) :
    WritesOnly s (s.putRegs l.launch l.team l.gnum (ws1 ++ ws2)).advance l.after l ls g (fun r th => (new2 r th).or (new1 r th)) := by
  obtain ⟨hrest, hlanes, -, hregs, hgroups, hquiet⟩ := putRegs_spec s l.launch l.team l.gnum (ws1 ++ ws2)
  rw [advance_of _ l ls (hlanes.trans hl)]
  refine ⟨hrest, rfl, ?_, hgroups, fun hread => hquiet fun o ho => ?_⟩
  · change s.group? l.launch l.team l.gnum = some g at hg
    rw [hg] at hregs
    simp only [Option.map_some, Option.map_eq_some_iff] at hregs
    obtain ⟨g', hg', hreg⟩ := hregs
    refine ⟨g', hg', fun r th hth => ?_⟩
    rw [Group.at_, hreg]
    exact get_regWrites_append g.regs l.issuing new1 new2 ws1 ws2 h1 h2 r th hth
  · have hsome : ∀ w ∈ ws1 ++ ws2, l.issuing.getLsbD w.1 = true ∧ ((new2 w.2.1 w.1).or (new1 w.2.1 w.1)).isSome = true := by
      intro w hw
      rcases List.mem_append.mp hw with hw | hw
      · obtain ⟨-, hiss, hnew⟩ := (h1 w).mp hw
        exact ⟨hiss, by rw [hnew]; cases new2 w.2.1 w.1 <;> rfl⟩
      · obtain ⟨-, hiss, hnew⟩ := (h2 w).mp hw
        exact ⟨hiss, by rw [hnew]; rfl⟩
    rw [Bool.eq_false_iff]
    intro hcon
    simp only [Bool.and_eq_true, List.any_eq_true] at hcon
    obtain ⟨⟨⟨hL, hT⟩, hG⟩, w, hw, hrd⟩ := hcon
    obtain ⟨hiss, hnew⟩ := hsome w hw
    have hstill := hread w.2.1 w.1 hiss hnew
    rw [State.stillRead, List.any_eq_false] at hstill
    exact hstill o ho (by rw [hL, hT, hG, hrd]; rfl)

theorem ffrexp_writes (d a b : BitVec 7) (u : Bool) (t : BitVec 2) {s : State} {l : Lane} {ls : List Lane} {g : Group}
    (hr : Runs (.ffrexp d a b u t) s l ls g) :
    ∃ t', exec (.ffrexp d a b u t) s = .next t' ∧ WritesOnly s t' l.after l ls g (fun r th =>
      (fieldVal g b [BitVec.ofInt 32 (frexpOf t (viewOf s l g u th) a).2] r).or
        (fieldVal g d (if t = 0 then pair (BitVec.ofNat 64 (frexpOf t (viewOf s l g u th) a).1)
          else [BitVec.ofNat 32 (frexpOf t (viewOf s l g u th) a).1]) r)) := by
  have hexec : exec (.ffrexp d a b u t) s = execFfrexp d a b u t s := rfl
  rw [hexec, execFfrexp, runWord_next _ _ _ s l ls g hr rfl]
  exact ⟨_, rfl, putRegs_two_fields s l ls g _ _ _ _ hr.1 hr.2.1
    (mem_writesAt s l g u d fun e => if t = 0 then pair (BitVec.ofNat 64 (frexpOf t e a).1) else [BitVec.ofNat 32 (frexpOf t e a).1])
    (mem_writesAt s l g u b fun e => [BitVec.ofInt 32 (frexpOf t e a).2])⟩

theorem Fmt.frexp_fin (f : Fmt) {a : Nat} {n : Bool} {m : Nat} {e : Int} (h : f.decode a = .fin n m e) (hm : m ≠ 0) :
    f.frexp a = (f.round .rne (.fin n m (-(Nat.log2 m : Int) - 1)), e + (Nat.log2 m : Int) + 1) := by
  have he : e - (e + (Nat.log2 m : Int) + 1) = -(Nat.log2 m : Int) - 1 := by omega
  simp only [Fmt.frexp, h, if_neg hm, he]

/-- Settles O11: the sign bit as arithmetic (negBits_eq, absBits_eq); FFREXP writes two fields, the exponent's last
(putRegs_two_fields). -/
theorem signsAndIntegralValues : Obligations.SignsAndIntegralValues := by
  refine ⟨?_, ?_, ?_, ?_, ?_⟩
  · exact fun d a z u t => (computes fun _ => rfl).congr fun e _ => fun1_congr e a fun k x hx => k.negBits_eq hx
  · exact fun d a z u t => (computes fun _ => rfl).congr fun e _ => fun1_congr e a fun k x _ => k.absBits_eq x
  · intro d a z u m t
    refine (computes fun _ => rfl).congr fun e _ => fun1_congr e a fun k x _ => ?_
    cases h : k.decode x <;> simp only [Fmt.rnd, h, Fmt.round]
  · intro d a b u t s l ls g hr
    obtain ⟨t', hexec, hw⟩ := ffrexp_writes d a b u t hr
    refine ⟨t', hexec, hw.congr fun r th _ => ?_⟩
    cases fieldVal g b [BitVec.ofInt 32 (frexpOf t (viewOf s l g u th) a).2] r <;> rfl
  · intro f _ a
    cases h : f.decode a with
    | nan => simp only [Fmt.frexp, h]
    | inf n => simp only [Fmt.frexp, h]
    | fin n m e =>
      by_cases hm : m = 0
      · simp only [Fmt.frexp, h, hm, if_true]
      · simp only [f.frexp_fin h hm, if_neg hm, and_self]

/-! ### Elements and scales -/

theorem eltPut_eq_putElement (w p : Nat) (x : Word) (c : Nat) : eltPut w p x c = putElement w p x c := by
  have hle : x.toNat / 2 ^ (w * p) % 2 ^ w * 2 ^ (w * p) ≤ x.toNat :=
    Nat.le_trans (Nat.mul_le_mul_right _ (Nat.mod_le _ _)) (Nat.div_mul_le_self _ _)
  rw [eltPut, putElement, replaceField, eltAt, ← Int.ofNat_sub hle, ← Int.natCast_add, BitVec.ofInt_natCast]

/-- Settles O13: packing replaces one element of the word (eltPut_eq_putElement); the others are so by definition. -/
theorem conversions : Obligations.Conversions := by
  refine ⟨fun _ _ _ _ _ _ _ => computes fun _ => rfl, ?_, fun _ _ _ _ _ => computes fun _ => rfl,
    fun _ _ _ _ => computes fun _ => rfl, fun _ _ _ _ => computes fun _ => rfl⟩
  intro d a p q m u n
  refine (computes fun _ => rfl).congr fun e _ => ?_
  rw [eltPut_eq_putElement]

/-! ### The tree of REDG and SCANG (R93, R94) -/

theorem treeUp_getD (f : DWord → DWord → DWord) (l : List (Option DWord)) (j : Nat) :
    (treeUp f l).getD j none = joinNodes f (l.getD (2 * j) none) (l.getD (2 * j + 1) none) := by
  induction l using treeUp.induct generalizing j with
  | case1 x y rest ih =>
    cases j with
    | zero => rfl
    | succ j => exact ih j
  | case2 l hl =>
    match l, hl with
    | [], _ => rfl
    | [x], _ =>
      cases j with
      | zero => cases x <;> rfl
      | succ j => rfl
    | x :: y :: rest, hl => exact absurd rfl (hl x y rest)

theorem treeLevel_getD (f : DWord → DWord → DWord) (leaves : List (Option DWord)) (k j : Nat) :
    (treeLevel f leaves k).getD j none = blockOf f leaves k j := by
  induction k generalizing j with
  | zero => rfl
  | succ k ih => rw [treeLevel, treeUp_getD, ih, ih, blockOf]

/-- Block by block: the positions already covered are those of the higher digits of `n`. -/
theorem scanBlocks_eq_foldl (f : DWord → DWord → DWord) (leaves : List (Option DWord)) (k n : Nat) (acc : Option DWord) :
    scanBlocks f leaves k n (n / 2 ^ k * 2 ^ k) acc =
      (List.range k).reverse.foldl (fun acc k =>
        if n / 2 ^ k % 2 = 1 then joinNodes f acc (blockOf f leaves k (n / 2 ^ k - 1)) else acc) acc := by
  induction k generalizing acc with
  | zero => rfl
  | succ k ih =>
    have hdiv : n / 2 ^ (k + 1) * 2 ^ (k + 1) = (n / 2 ^ k - n / 2 ^ k % 2) * 2 ^ k := by
      have hq : n / 2 ^ k / 2 * 2 = n / 2 ^ k - n / 2 ^ k % 2 := by
        generalize n / 2 ^ k = q
        omega
      rw [Nat.pow_succ, ← Nat.div_div_eq_div_mul, Nat.mul_comm (2 ^ k), ← Nat.mul_assoc, hq]
    rw [List.range_succ, List.reverse_append, List.reverse_singleton, List.singleton_append, List.foldl_cons, scanBlocks, hdiv]
    by_cases hbit : n / 2 ^ k % 2 = 1
    · have hnext : (n / 2 ^ k - 1) * 2 ^ k + 2 ^ k = n / 2 ^ k * 2 ^ k := by
        rw [← Nat.succ_mul, Nat.succ_eq_add_one, Nat.sub_add_cancel]
        generalize n / 2 ^ k = q at hbit
        omega
      rw [if_pos hbit, if_pos hbit, hbit, hnext, Nat.mul_div_cancel _ (Nat.two_pow_pos _), ← List.getD_eq_getElem?_getD,
        treeLevel_getD, ih]
    · rw [if_neg hbit, if_neg hbit, Nat.mod_two_ne_one.mp hbit, Nat.sub_zero, ih]

theorem scanIncl_eq_prefixOf (f : DWord → DWord → DWord) (leaves : List (Option DWord)) {i : Nat} (hi : i < 32) :
    scanIncl f leaves i = prefixOf f leaves (i + 1) := by
  have h0 : (i + 1) / 2 ^ 6 * 2 ^ 6 = 0 := by omega
  have h := scanBlocks_eq_foldl f leaves 6 (i + 1) none
  rw [h0] at h
  exact h

theorem treeRoot_eq_blockOf (f : DWord → DWord → DWord) (leaves : List (Option DWord)) :
    (treeLevel f leaves 5).headD none = blockOf f leaves 5 0 := by
  rw [← treeLevel_getD]
  cases treeLevel f leaves 5 <;> rfl

theorem issuingBelow_lt {e : Thr} {i j : Nat} (h : issuingBelow e i = some j) : j < 32 := by
  have hmem := List.mem_of_getLast? h
  exact ((mem_threadsOf e.l.issuing j).mp (List.mem_filter.mp hmem).1).1

/-- Settles O15: a tree's node is the block of its level (treeLevel_getD); a scan goes through the binary digits of its
count (scanBlocks_eq_foldl). -/
theorem reduceAndScan : Obligations.ReduceAndScan := by
  refine ⟨?_, ?_, ?_⟩
  · intro d a o t
    refine (computes fun _ => rfl).congr fun e _ => ?_
    rw [treeRoot_eq_blockOf]
  · intro d a o t
    refine (computes fun _ => rfl).congr fun e he => ?_
    rw [scanIncl_eq_prefixOf _ _ he]
  · intro d a o t
    refine (computes fun _ => rfl).congr fun e _ => ?_
    rw [← issuingBelow]
    cases h : issuingBelow e e.t with
    | none => rfl
    | some j => simp only [scanIncl_eq_prefixOf _ _ (issuingBelow_lt h)]

/-! ### The reciprocals that FRCP and FRSQ bracket (R83) -/

section
variable (f : Fmt)

/-- A magnitude is rounded down by rounding it toward zero. -/
theorem Fmt.roundMag_rd_pos (m : Nat) (e : Int) (st : Bool) : f.roundMag .rd false m e st = f.roundMag .rz false m e st := by
  simp only [Fmt.roundMag, Bool.and_false]

theorem Fmt.roundMag_ru_neg (m : Nat) (e : Int) (st : Bool) : f.roundMag .ru true m e st = f.roundMag .rz true m e st := by
  simp only [Fmt.roundMag, Bool.and_false, Bool.not_true]

/-- An overflow does not depend on the mode; what it gives does (R78). -/
theorem Fmt.over_of_roundMag_rz {n : Bool} {m : Nat} {e : Int} {st s b : Bool} (h : f.roundMag .rz n m e st = .over s b) :
    s = n ∧ f.roundMag .ru n m e st = .over n (!n) ∧ f.roundMag .rd n m e st = .over n n := by
  simp only [Fmt.roundMag] at h ⊢
  generalize (if st = true then 1 else 0) = b' at h ⊢
  split at h
  · next hover =>
    cases h
    exact ⟨rfl, if_pos hover, if_pos hover⟩
  · split at h <;> cases h

/-- A reciprocal of a number that is not zero is one rounding. -/
theorem Fmt.rcp_fin (mode : RMode) {a : Nat} {n : Bool} {m : Nat} {e : Int} (h : f.decode a = .fin n m e) (hm : m ≠ 0) :
    f.rcp mode a = f.ofRounded (f.roundQuot mode n 1 0 m e) := by
  simp only [Fmt.rcp, h, if_neg hm]

/-- The reciprocal rounded toward zero is one of the two brackets; for special values all modes agree. -/
theorem Fmt.rcp_rz_bracket (a : Nat) : f.rcp .rz a = f.rcp .rd a ∨ f.rcp .rz a = f.rcp .ru a := by
  cases hd : f.decode a with
  | nan => exact .inl (by simp only [Fmt.rcp, hd])
  | inf n => exact .inl (by simp only [Fmt.rcp, hd])
  | fin n m e =>
    by_cases hm : m = 0
    · exact .inl (by simp only [Fmt.rcp, hd, if_pos hm])
    · simp only [f.rcp_fin _ hd hm, Fmt.roundQuot]
      cases n with
      | false => exact .inl (by rw [f.roundMag_rd_pos])
      | true => exact .inr (by rw [f.roundMag_ru_neg])

theorem Fmt.rcpFaithful_bracket (a : Nat) : f.rcpFaithful a = f.rcp .rd a ∨ f.rcpFaithful a = f.rcp .ru a := by
  have hdn := f.rcp_rz_bracket a
  rw [Fmt.rcpFaithful]
  cases hd : f.decode a with
  | nan => exact hdn
  | inf n => exact hdn
  | fin n m e =>
    simp only
    by_cases hm : m = 0
    · rwa [if_pos hm]
    rw [if_neg hm]
    rcases hq : f.roundQuot .rz n 1 0 m e with ⟨s, mag⟩ | ⟨s, b⟩
    · simp only
      split
      · split
        · exact .inr rfl
        · exact .inl rfl
      · exact hdn
    · obtain ⟨rfl, hru, hrd⟩ := f.over_of_roundMag_rz hq
      simp only [f.rcp_fin _ hd hm, Fmt.roundQuot, hru, hrd, Fmt.ofRounded]
      cases s with
      | false => exact .inr rfl
      | true => exact .inl rfl

theorem Fmt.rsqFaithful_bracket (a : Nat) : f.rsqFaithful a = f.rsq .rd a ∨ f.rsqFaithful a = f.rsq .ru a := by
  rw [Fmt.rsqFaithful]
  split
  · exact .inr rfl
  · exact .inl rfl

end

/-! ### Faithful functions at special operands (R83) -/

/-- Faithful functions of a NaN. -/
theorem faithful_nan {x : Nat} (h : (Fmt.f32.decode x).isNan = true) :
    fexp2 x = 0x7FC00000 ∧ flog2 x = 0x7FC00000 ∧ fsin x = 0x7FC00000 ∧ fcos x = 0x7FC00000 ∧
    ftanh x = 0x7FC00000 ∧ Fmt.f32.rcpFaithful x = 0x7FC00000 ∧ Fmt.f32.rsqFaithful x = 0x7FC00000 := by
  cases hd : Fmt.f32.decode x with
  | nan =>
    simp only [fexp2, flog2, fsin, fcos, fsincos, ftanh, Fmt.rcpFaithful, Fmt.rcp, Fmt.rsqFaithful, Fmt.rsq, hd, Fmt.nan,
      ite_self, and_self]
  | inf n =>
    rw [hd] at h
    cases h
  | fin n m e =>
    rw [hd] at h
    cases h

/-- What the functions give for infinities. -/
theorem faithful_inf {x : Nat} {n : Bool} (h : Fmt.f32.decode x = .inf n) :
    fexp2 x = (if n then 0 else 0x7F800000) ∧ flog2 x = (if n then 0x7FC00000 else 0x7F800000) ∧
    fsin x = 0x7FC00000 ∧ fcos x = 0x7FC00000 ∧ ftanh x = Fmt.f32.signBit n + 0x3F800000 := by
  have hinf : Fmt.f32.infBits = 0x7F800000 := by decide
  simp only [fexp2, flog2, fsin, fcos, fsincos, ftanh, h, Fmt.nan, hinf, and_self]

/-- What the functions give for zeros. -/
theorem faithful_zero {x : Nat} {n : Bool} {e : Int} (h : Fmt.f32.decode x = .fin n 0 e) :
    fexp2 x = 0x3F800000 ∧ flog2 x = 0xFF800000 ∧ fsin x = Fmt.f32.signBit n ∧ fcos x = 0x3F800000 ∧
    ftanh x = Fmt.f32.signBit n := by
  have hinf : Fmt.f32.signBit true + Fmt.f32.infBits = 0xFF800000 := by decide
  simp only [fexp2, flog2, fsin, fcos, fsincos, ftanh, h, hinf, if_true, if_neg Nat.one_ne_zero, and_self]

theorem flog2_two_pow {a m : Nat} {e : Int} (h : Fmt.f32.decode a = .fin false (2 ^ m) e) :
    flog2 a = Fmt.f32.round .rne (.fin (decide (e + m < 0)) (e + m).natAbs 0) := by
  have hpos : (2 ^ m : Nat) ≠ 0 := Nat.ne_of_gt (Nat.two_pow_pos m)
  simp only [flog2, h, if_neg hpos, Nat.log2_two_pow, Bool.false_eq_true, if_false, if_true]

theorem flog2_neg {a m : Nat} {e : Int} (h : Fmt.f32.decode a = .fin true m e) (hm : m ≠ 0) : flog2 a = 0x7FC00000 := by
  simp only [flog2, h, if_neg hm, if_true, Fmt.nan]

/-! ### FEXP2 of integers (R83) -/

theorem f32_emin : Fmt.f32.emin = -149 := by decide

/-- The last bit of a single-precision value is not below that of a subnormal. -/
theorem f32_emin_le {a : Nat} {n : Bool} {m : Nat} {e : Int} (h : Fmt.f32.decode a = .fin n m e) : -149 ≤ e := by
  rw [Fmt.f32.decode_of_le_maxBits (Fmt.le_maxBits_of_decode h)] at h
  cases h
  rw [← f32_emin]
  exact Fmt.f32.emin_le_expo _

theorem f32_val_maxBits (lo : Int) : Fmt.f32.val lo Fmt.f32.maxBits = scaled lo 0xFFFFFF 104 := by
  have hsig : Fmt.f32.sig Fmt.f32.maxBits = 0xFFFFFF := by decide
  have hexpo : Fmt.f32.expo Fmt.f32.maxBits = 104 := by decide
  rw [Fmt.val, hsig, hexpo]

/-- Two to a power of 128 or more overflows to infinity. -/
theorem f32_round_two_pow_of_ge {k : Int} (hk : 128 ≤ k) : Fmt.f32.round .rne (.fin false 1 k) = Fmt.f32.infBits := by
  have hf : -149 ≤ Fmt.f32.emin := Int.le_of_eq f32_emin.symm
  have he : -149 ≤ k - 1 := by omega
  have hpow : scaled (-149) 0x2000000 103 ≤ scaled (-149) 1 k :=
    Nat.le_trans (Nat.le_of_eq (scaled_mul_pow (show -149 ≤ (103 : Int) by decide) 1 25)) (scaled_le_of_exp_le _ 1 hk)
  have hover : Fmt.f32.val (-149) Fmt.f32.maxBits < scaled (-149) 1 k := by
    rw [f32_val_maxBits]
    refine Nat.lt_of_lt_of_le ?_ hpow
    rw [← scaled_two_mul (show -149 ≤ (104 : Int) - 1 by decide)]
    exact scaled_lt_scaled_left.mpr (by decide)
  have hinf : Fmt.f32.toInf .rne false (2 * 1) (k - 1) = true := by
    have hmant : 2 * (Fmt.f32.maxBits % 2 ^ Fmt.f32.mbits + 2 ^ Fmt.f32.mbits) + 1 = 0x1FFFFFF := by decide
    have hexp : Fmt.f32.emin + (Fmt.f32.maxBits / 2 ^ Fmt.f32.mbits : Nat) - 1 - 1 = 103 := by decide
    rw [Fmt.toInf, hmant, hexp, leScaled_iff (show -149 ≤ (103 : Int) by decide) he, scaled_two_mul he]
    exact Nat.le_trans (scaled_le_scaled_left.mpr (by decide)) hpow
  rw [Fmt.round, Fmt.f32.roundMag_of_lt hf he _ _ hover, hinf]
  rfl

/-- Two to a power below half of the least subnormal value rounds to zero. -/
theorem f32_round_two_pow_of_le {k : Int} (hk : k ≤ -151) : Fmt.f32.round .rne (.fin false 1 k) = 0 := by
  have hf : k - 1 ≤ Fmt.f32.emin := by
    rw [f32_emin]
    omega
  have hle : scaled (k - 1) 1 k ≤ Fmt.f32.val (k - 1) Fmt.f32.maxBits := by
    rw [f32_val_maxBits]
    exact Nat.le_trans (scaled_le_of_exp_le _ 1 (by omega)) (scaled_le_scaled_left.mpr (by decide))
  have hq : Fmt.f32.quantum 1 k = -149 := by
    have hlog : Nat.log2 1 = 0 := by decide
    rw [Fmt.quantum, f32_emin, hlog]
    omega
  obtain ⟨j, hj⟩ : ∃ j : Nat, (-149 - (k - 1)).toNat = j + 3 := ⟨_, (Nat.sub_add_cancel (by omega)).symm⟩
  have hlt : 2 < 2 ^ (j + 2) := Nat.lt_of_lt_of_le (by decide : 2 < 2 ^ 2) (Nat.pow_le_pow_right Nat.two_pos (by omega))
  have hlt' : 2 * 1 < 2 ^ (j + 3) := Nat.lt_trans hlt (Nat.pow_lt_pow_right (by decide) (by omega))
  have hwhole : wholeAt (2 * 1) (k - 1) (-149) = 0 := by
    rw [wholeAt, if_neg (by omega), hj, Nat.div_eq_of_lt hlt']
  have hfrac : fracAt (2 * 1) (k - 1) (-149) = 2 := by
    rw [fracAt, if_neg (by omega), hj, Nat.mod_eq_of_lt hlt']
  rw [Fmt.round, Fmt.f32.roundMag_of_le hf (Int.le_refl _) _ _ Nat.one_ne_zero hle]
  simp only [hq, hwhole, hfrac, hj, RMode.up_rne_of_lt (sh := j + 3) hlt]
  rfl

/-- An operand equal to the integer `k`, as a magnitude in units of the least subnormal value. -/
theorem f32_int_operand {n : Bool} {m : Nat} {e k : Int} (hk : (if n then -(m : Int) else m) * 2 ^ (e + 149).toNat = k * 2 ^ 149) :
    m * 2 ^ (e + 149).toNat = k.natAbs * 2 ^ 149 ∧ k = if n then -(k.natAbs : Int) else k.natAbs := by
  have hcast : ((m * 2 ^ (e + 149).toNat : Nat) : Int) = m * 2 ^ (e + 149).toNat := by
    rw [Int.natCast_mul, Int.natCast_pow]
    rfl
  cases n with
  | false =>
    simp only [Bool.false_eq_true, if_false] at hk ⊢
    rw [← hcast] at hk
    omega
  | true =>
    simp only [if_true, Int.neg_mul] at hk ⊢
    rw [← hcast] at hk
    omega

/-- An integral operand has no fraction bits. -/
theorem whole_of_units {m N : Nat} {e : Int} (he : -149 ≤ e) (h : m * 2 ^ (e + 149).toNat = N * 2 ^ 149) :
    0 ≤ e ∨ m % 2 ^ (-e).toNat = 0 := by
  by_cases hneg : 0 ≤ e
  · exact .inl hneg
  · have hpow : 2 ^ 149 = 2 ^ (-e).toNat * 2 ^ (e + 149).toNat := by
      rw [← Nat.pow_add, show (-e).toNat + (e + 149).toNat = 149 by omega]
    rw [hpow, ← Nat.mul_assoc] at h
    rw [Nat.eq_of_mul_eq_mul_right (Nat.two_pow_pos _) h]
    exact .inr (Nat.mul_mod_left ..)

/-- An operand of magnitude at least `2^12` is at least that integer. -/
theorem natAbs_ge_of_units {m N : Nat} {e : Int} (he : -149 ≤ e) (hm : m ≠ 0) (h : m * 2 ^ (e + 149).toNat = N * 2 ^ 149)
    (hbig : 12 ≤ e + (Nat.log2 m : Int)) : 4096 ≤ N := by
  have hle : scaled (-149) 1 12 ≤ scaled (-149) m e := Nat.le_trans (scaled_le_of_exp_le _ 1 hbig) (scaled_log2_le he hm)
  have hunits : scaled (-149) m e = N * 2 ^ 149 := h
  have htop : scaled (-149) 1 12 = 4096 * 2 ^ 149 := by decide
  rw [hunits, htop] at hle
  exact Nat.le_of_mul_le_mul_right hle (Nat.two_pow_pos _)

theorem mul_two_pow_eq {m N a b a' b' c : Nat} (h : m * 2 ^ a = N * 2 ^ b) (ha : a' = a + c) (hb : b' = b + c) :
    m * 2 ^ a' = N * 2 ^ b' := by
  rw [ha, hb, Nat.pow_add, Nat.pow_add, ← Nat.mul_assoc, ← Nat.mul_assoc, h]

/-- The fixed-point operand is `k` with 520 fraction bits, all zero. -/
theorem fixed_of_units {n : Bool} {m : Nat} {e k : Int} (he : -149 ≤ e) (h : m * 2 ^ (e + 149).toNat = k.natAbs * 2 ^ 149)
    (hsign : k = if n then -(k.natAbs : Int) else k.natAbs) :
    (if n then -((m * 2 ^ (e + fxBits).toNat : Nat) : Int) else (m * 2 ^ (e + fxBits).toNat : Nat)) = k * (2 ^ fxBits : Nat) := by
  have hexp : (e + fxBits).toNat = (e + 149).toNat + 371 := by
    rw [fxBits]
    omega
  have hfx : m * 2 ^ (e + fxBits).toNat = k.natAbs * 2 ^ fxBits := mul_two_pow_eq h hexp (Eq.refl fxBits : fxBits = 149 + 371)
  rw [hfx, Int.natCast_mul]
  cases n with
  | false =>
    simp only [Bool.false_eq_true, if_false] at hsign ⊢
    rw [← hsign]
  | true =>
    simp only [if_true] at hsign ⊢
    rw [← Int.neg_mul, ← hsign]

/-- At an integral operand FEXP2 is exact, but for overflow and underflow. -/
theorem fexp2_int {a : Nat} {n : Bool} {m : Nat} {e k : Int} (h : Fmt.f32.decode a = .fin n m e) (hm : m ≠ 0)
    (hk : (if n then -(m : Int) else m) * 2 ^ (e + 149).toNat = k * 2 ^ 149) :
    fexp2 a = Fmt.f32.round .rne (.fin false 1 k) := by
  have he := f32_emin_le h
  obtain ⟨hunits, hsign⟩ := f32_int_operand hk
  have hwhole : (decide (0 ≤ e) || decide (m % 2 ^ (-e).toNat = 0)) = true := by
    rw [Bool.or_eq_true, decide_eq_true_eq, decide_eq_true_eq]
    exact whole_of_units he hunits
  have hpos : ((2 ^ fxBits : Nat) : Int) ≠ 0 := Int.natCast_ne_zero.mpr (Nat.ne_of_gt (Nat.two_pow_pos _))
  have hlo : ¬ e < -(fxBits : Int) := by
    rw [fxBits]
    omega
  simp only [fexp2, h, if_neg hm, if_neg hlo, hwhole, if_true, fixed_of_units he hunits hsign, Int.mul_emod_left,
    Int.mul_ediv_cancel _ hpos, Int.toNat_zero]
  split
  · next hbig =>
    have hge := natAbs_ge_of_units he hm hunits (of_decide_eq_true hbig)
    split
    · next hn =>
      rw [if_pos hn] at hsign
      exact (f32_round_two_pow_of_le (by omega)).symm
    · next hn =>
      rw [if_neg hn] at hsign
      exact (f32_round_two_pow_of_ge (by omega)).symm
  · rfl

/-- Settles O12: the special operands by what they decode to, integral operands of FEXP2 by fexp2_int, FRCP and FRSQ by their
brackets. -/
theorem faithfulFunctions : Obligations.FaithfulFunctions := by
  obtain ⟨hexpPos, hlogPos, hsinPos, hcosPos, htanhPos⟩ := faithful_inf (show Fmt.f32.decode 0x7F800000 = .inf false by decide)
  obtain ⟨hexpNeg, -, hsinNeg, hcosNeg, htanhNeg⟩ := faithful_inf (show Fmt.f32.decode 0xFF800000 = .inf true by decide)
  obtain ⟨hexp0, hlog0, hsin0, hcos0, htanh0⟩ := faithful_zero (show Fmt.f32.decode 0 = .fin false 0 (-149) by decide)
  obtain ⟨hexpm0, hlogm0, hsinm0, hcosm0, htanhm0⟩ :=
    faithful_zero (show Fmt.f32.decode 0x80000000 = .fin true 0 (-149) by decide)
  have hone : Fmt.f32.decode 0xBF800000 = .fin true 0x800000 (-23) := by decide
  exact ⟨fun _ _ _ _ => computes fun _ => rfl, fun _ _ _ _ => computes fun _ => rfl, fun _ _ _ _ => computes fun _ => rfl,
    fun _ _ _ _ => computes fun _ => rfl, fun _ _ _ _ => computes fun _ => rfl, fun _ _ _ _ _ => computes fun _ => rfl,
    fun _ _ _ _ _ => computes fun _ => rfl, fun x hx => faithful_nan hx,
    hexpNeg, hexpPos, hexp0, hexpm0, hlog0, hlogm0, hlogPos, flog2_neg hone (by decide), hsinPos, hsinNeg, hsin0, hsinm0,
    hcosPos, hcosNeg, hcos0, hcosm0, fun f x => ⟨f.rcpFaithful_bracket x, f.rsqFaithful_bracket x⟩,
    fun _ _ _ _ _ h hm hk => fexp2_int h hm hk, fun _ _ _ h => flog2_two_pow h, fun _ _ _ h hm => flog2_neg h hm,
    htanhPos, htanhNeg, htanh0, htanhm0⟩

end Sys2Proof.Machine

/-! ## Group execution (04_group_execution): ready times, steps and time, register blocks -/

namespace Sys2Proof.Machine

/-! ### Readiness is judged without the groups' ready times (R113) -/

section
variable (s : State) (gs : List Group)

/-- A walk reads tables, and no group. -/
theorem walkFrom_groups (d launch va : Nat) (lvs : List Level) (bits table : Nat) :
    walkFrom { s with groups := gs } d launch va lvs bits table = walkFrom s d launch va lvs bits table := by
  induction lvs generalizing bits table with
  | nil => rfl
  | cons lv rest ih =>
    simp only [walkFrom, ih]
    rfl

theorem State.look_groups (c launch : Nat) (slot : Option (Nat × Nat)) (va : Nat) :
    ({ s with groups := gs } : State).look c launch slot va = s.look c launch slot va := by
  have hwalk : ∀ d, ({ s with groups := gs } : State).walk d launch va = s.walk d launch va :=
    fun d => walkFrom_groups s gs d launch va levels 18 (s.root launch d)
  simp only [State.look, hwalk]
  rfl

theorem State.fetch_groups (c launch va : Nat) : ({ s with groups := gs } : State).fetch c launch va = s.fetch c launch va := by
  simp only [State.fetch, State.look_groups]
  rfl

theorem State.fetchFrom_groups (c launch pc n k : Nat) :
    ({ s with groups := gs } : State).fetchFrom c launch pc n k = s.fetchFrom c launch pc n k := by
  induction n generalizing k with
  | zero => rfl
  | succ n ih => simp only [State.fetchFrom, State.fetch_groups, ih]

theorem State.fetchClause_groups (c launch pc : Nat) :
    ({ s with groups := gs } : State).fetchClause c launch pc = s.fetchClause c launch pc := by
  simp only [State.fetchClause, State.fetchFrom_groups]

theorem State.wordsSeen_groups (c launch pc n : Nat) :
    ({ s with groups := gs } : State).wordsSeen c launch pc n = s.wordsSeen c launch pc n := by
  simp only [State.wordsSeen, State.fetch_groups]

/-- Whether a group's next clause is ready depends neither on the other groups nor on any ready time. -/
theorem State.ready_groups (g : Group) (since : Option Nat) (clk : Nat) :
    ({ s with groups := gs } : State).ready { g with readySince := since, readyClk := clk } = s.ready g := by
  simp only [State.ready, State.fetchClause_groups, State.wordsSeen_groups]
  rfl

end

/-! ### Bringing the ready times up to date (R114) -/

/-- A group with its ready time up to date: kept while it stays ready, now where it has become ready, else none. -/
def State.timed (s : State) (g : Group) : Group :=
  { g with
    readySince := if s.ready g then some (g.readySince.getD s.now) else none
    readyClk := if s.ready g ∧ g.readySince = none then s.clkOf g else g.readyClk }

theorem State.isSome_readySince_timed (s : State) (g : Group) : (s.timed g).readySince.isSome = s.ready g := by
  cases h : s.ready g <;> simp [State.timed, h]

theorem State.refreshReady_eq (s : State) : s.refreshReady = { s with groups := s.groups.map s.timed } := by
  have htimed : ∀ g, (if s.ready g then (if g.readySince.isNone then { g with readySince := some s.now, readyClk := s.clkOf g } else g)
      else if g.readySince.isSome then { g with readySince := none } else g) = s.timed g := by
    intro g
    have hkept : ∀ since, g.readySince = since → g = { g with readySince := since, readyClk := g.readyClk } := by
      rintro _ rfl
      rfl
    cases hr : s.ready g with
    | true =>
      cases ht : g.readySince with
      | none => simp [State.timed, hr, ht]
      | some since => simpa [State.timed, hr, ht] using hkept _ ht
    | false =>
      cases ht : g.readySince with
      | none => simpa [State.timed, hr, ht] using hkept _ ht
      | some since => simp [State.timed, hr]
  simp only [State.refreshReady, htimed]

/-- Settles O21: a group's ready time is brought up to date by `State.timed`. -/
theorem readyTimeIsWhenItBecameReady : Obligations.ReadyTimeIsWhenItBecameReady := by
  intro s
  rw [s.refreshReady_eq]
  exact ⟨rfl, rfl⟩

/-- After the ready times are brought up to date, a group has one exactly where it is ready. -/
theorem State.isSome_readySince_refreshReady (s : State) {g : Group} (hg : g ∈ s.refreshReady.groups) :
    g.readySince.isSome = s.refreshReady.ready g := by
  rw [s.refreshReady_eq] at hg ⊢
  obtain ⟨h, -, rfl⟩ := List.mem_map.mp hg
  exact (s.isSome_readySince_timed h).trans (s.ready_groups _ h _ _).symm

/-- Every step ends with `State.finish`. -/
theorem step_eq_settled (s : State) : ∃ o, step s = settled o := by
  unfold step
  split
  · exact ⟨_, rfl⟩
  · exact ⟨_, rfl⟩

theorem exists_finish_of_settled {o : Out} {t : State} (h : settled o = .next t) : ∃ u : State, t = u.finish := by
  cases o with
  | next u =>
    cases h
    exact ⟨u, rfl⟩
  | fault r => cases h
  | refused r => cases h

/-- Settles O20: every step ends by bringing the ready times up to date, which leaves readiness as it is (ready_groups). -/
theorem readyTimesKept : Obligations.ReadyTimesKept := by
  intro s t hstep g hg
  obtain ⟨o, ho⟩ := step_eq_settled s
  obtain ⟨u, rfl⟩ := exists_finish_of_settled (ho.symm.trans hstep)
  exact State.isSome_readySince_refreshReady _ hg

/-! ### What a step takes (log 2) -/

/-- A clause without words left ends (R105). -/
theorem runLane_of_le_idx {s : State} {l : Lane} {ls : List Lane} (hl : s.lanes = l :: ls) (hi : l.words.length ≤ l.idx) :
    s.runLane = exec .clauseEnd s := by
  simp only [State.runLane, hl, if_neg (Nat.not_lt.mpr hi)]

/-- The head of a schedule is taken from it and chosen. -/
theorem step_of_sched_cons {s : State} {c : Choice} {rest : List Choice} (hs : s.sched = c :: rest) :
    step s = settled (({ s with sched := rest } : State).choose c) := by
  simp only [step, hs]

/-- No clause can go on where all wait in their lanes. -/
theorem nextLane_eq_none {s : State} (hst : ∀ l ∈ s.lanes, l.stalled = true) : s.nextLane = none := by
  have hidx : s.lanes.findIdx? (fun l => !l.stalled) = none :=
    List.findIdx?_eq_none_iff.mpr fun l hl => by rw [hst l hl]; rfl
  rw [State.nextLane, hidx]

theorem toFront_of_some {s : State} {k : Nat} {l : Lane} (hl : s.lanes[k]? = some l) :
    s.toFront k = some { s with lanes := l :: s.lanes.eraseIdx k } := by
  rw [State.toFront, hl]

theorem toFront_of_none {s : State} {k : Nat} (hl : s.lanes[k]? = none) : s.toFront k = none := by
  rw [State.toFront, hl]

/-! ### Passing time (R156) -/

/-- The die whose counter the others follow: the lease holder, or the first whose counter runs. -/
def State.pace (s : State) : Option Nat := s.leader?.orElse (fun _ => (List.range 60).find? (fun d => (s.die d).counterOn))

/-- Die `d` after n ns at the pace of die `r`, held near the counter `near` of its island where there is one. -/
def State.paced (s : State) (r n : Nat) (near : Option Nat) (d : Nat) (x : Die) : Die :=
  let h := (s.die r).counter + n
  if d = r then { x with counter := h }
  else if x.counterOn then
    x.count n (Config.stray (s.now + n) d).toNat (max (h - 32) ((near.map (fun c => c - 8)).getD 0))
      (min (h + 32) ((near.map (fun c => c + 8)).getD (h + 32)))
  else x

/-- The dies as they go by the pace alone: the island of die `r` by its counter. -/
def State.firstPaced (s : State) (r n : Nat) : List Die :=
  s.dies.zipIdx.map (fun x => s.paced r n (if x.2 / 2 = r / 2 then some ((s.die r).counter + n) else none) x.2 x.1)

theorem State.die_of_getElem? {s : State} {d : Nat} {x : Die} (h : s.dies[d]? = some x) : s.die d = x := by
  rw [State.die, List.getD_eq_getElem?_getD, h, Option.getD_some]

theorem State.counters_of_pace_none {s : State} (h : s.pace = none) (n : Nat) : s.counters n = s.dies := by
  rw [State.pace] at h
  simp only [State.counters, h]

/-- With a pace, each die is paced by it, alone or beside the other die of its island. -/
theorem State.exists_counters_eq_paced {s : State} {r d : Nat} {x : Die} (hr : s.pace = some r) (hx : s.dies[d]? = some x) (n : Nat) :
    ∃ near, (s.counters n)[d]? = some (s.paced r n near d x) := by
  have hdie := State.die_of_getElem? hx
  have hcounters : s.counters n = ((s.firstPaced r n).zipIdx.map fun x =>
      let p := (s.firstPaced r n).getD (x.2 - 1) x.1
      if x.2 % 2 = 1 && decide (x.2 / 2 ≠ r / 2) && p.counterOn then s.paced r n (some p.counter) x.2 (s.die x.2) else x.1) := by
    rw [State.pace] at hr
    simp only [State.counters, hr]
    rfl
  rw [hcounters]
  simp only [State.firstPaced, List.getElem?_map, List.getElem?_zipIdx, hx, Option.map_some, Nat.zero_add, hdie]
  exact ⟨_, congrArg some (apply_ite (fun near => s.paced r n near d x) _ _ _).symm⟩

theorem State.paced_counter_self (s : State) (r n : Nat) (near : Option Nat) (x : Die) :
    (s.paced r n near r x).counter = (s.die r).counter + n := by
  rw [State.paced, if_pos rfl]

/-- A counter is stretched or made up, and never set back. -/
theorem Die.counter_le_count (x : Die) (n stray lo hi : Nat) : x.counter ≤ (x.count n stray lo hi).counter :=
  Nat.le_trans (Nat.le_max_left ..) (Nat.le_max_left ..)

theorem State.counter_le_paced {s : State} {r n d : Nat} (near : Option Nat) {x : Die} (hx : s.die d = x) :
    x.counter ≤ (s.paced r n near d x).counter := by
  rw [State.paced]
  split
  · next h =>
    subst h
    rw [hx]
    exact Nat.le_add_right _ _
  · split
    · exact x.counter_le_count ..
    · exact Nat.le_refl _

/-- Time, counters, memory, clauses and teams are the same in both states. -/
def SameTime (s t : State) : Prop :=
  t.now = s.now ∧ t.mem = s.mem ∧ t.lanes = s.lanes ∧ t.teams = s.teams ∧ t.dies.map Die.counter = s.dies.map Die.counter

theorem SameTime.refl (s : State) : SameTime s s := ⟨rfl, rfl, rfl, rfl, rfl⟩

theorem SameTime.trans {s t u : State} (h : SameTime s t) (k : SameTime t u) : SameTime s u := by
  obtain ⟨hnow, hmem, hlanes, hteams, hctr⟩ := h
  obtain ⟨know, kmem, klanes, kteams, kctr⟩ := k
  exact ⟨know.trans hnow, kmem.trans hmem, klanes.trans hlanes, kteams.trans hteams, kctr.trans hctr⟩

/-- Measuring a die's offsets touches no counter. -/
theorem sameTime_measure (s : State) (d : Nat) : SameTime s (s.measure d) :=
  ⟨rfl, rfl, rfl, rfl, map_setNth_getD Die.counter s.dies d {} (fun x => { x with measured := s.now, toff := _ }) fun _ => rfl⟩

theorem sameTime_measures (ds : List Nat) (s : State) : SameTime s (ds.foldl (fun s d => s.measure d) s) := by
  induction ds generalizing s with
  | nil => exact SameTime.refl s
  | cons d ds ih => exact (sameTime_measure s d).trans (ih _)

theorem sameTime_measureDue (s : State) : SameTime s s.measureDue := by
  unfold State.measureDue
  split
  · exact SameTime.refl s
  · dsimp only
    split
    · exact SameTime.refl s
    · exact sameTime_measures _ s

theorem State.timeOf_eq_getD (s : State) (d : Nat) : s.timeOf d = (s.dies.map Die.counter).getD d 0 := by
  rw [State.timeOf, State.die, List.getD_eq_getElem?_getD, List.getD_eq_getElem?_getD, List.getElem?_map]
  cases s.dies[d]? <;> rfl

/-- What passing time makes of time and counters, and what it leaves alone. -/
theorem State.tick_spec (s : State) (n : Nat) :
    (s.tick n).now = s.now + n ∧ (s.tick n).mem = s.mem ∧ (s.tick n).lanes = s.lanes ∧ (s.tick n).teams = s.teams ∧
      (s.tick n).dies.map Die.counter = (s.counters n).map Die.counter := by
  obtain ⟨hnow, hmem, hlanes, hteams, hctr⟩ := sameTime_measureDue _
  exact ⟨hnow, hmem, hlanes, hteams, hctr.trans (List.map_map ..)⟩

theorem State.timeOf_tick {s : State} {n d : Nat} {y : Die} (hy : (s.counters n)[d]? = some y) :
    (s.tick n).timeOf d = y.counter := by
  obtain ⟨-, -, -, -, hctr⟩ := s.tick_spec n
  rw [State.timeOf_eq_getD, hctr, List.getD_eq_getElem?_getD, List.getElem?_map, hy]
  rfl

/-- The lease holder's counter sets the pace. -/
theorem State.timeOf_tick_leader {s : State} {d : Nat} (hd : s.leader? = some d) (hlt : d < s.dies.length) (n : Nat) :
    (s.tick n).timeOf d = s.timeOf d + n := by
  have hpace : s.pace = some d := by rw [State.pace, hd]; rfl
  obtain ⟨near, hnear⟩ := State.exists_counters_eq_paced hpace (List.getElem?_eq_getElem hlt) n
  rw [State.timeOf_tick hnear, s.paced_counter_self]
  rfl

/-- No counter is set back. -/
theorem State.timeOf_le_timeOf_tick {s : State} {d : Nat} (hlt : d < s.dies.length) (n : Nat) : s.timeOf d ≤ (s.tick n).timeOf d := by
  have hx := List.getElem?_eq_getElem hlt
  have hdie := State.die_of_getElem? hx
  rw [State.timeOf, hdie]
  cases hpace : s.pace with
  | none =>
    have hsame : (s.counters n)[d]? = some s.dies[d] := (congrArg (·[d]?) (State.counters_of_pace_none hpace n)).trans hx
    exact Nat.le_of_eq (State.timeOf_tick hsame).symm
  | some r =>
    obtain ⟨near, hnear⟩ := State.exists_counters_eq_paced hpace hx n
    rw [State.timeOf_tick hnear]
    exact State.counter_le_paced near hdie

/-- Settles O18: a step is what its choice names (step_of_sched_cons), or the fixed order of search where nothing is scheduled;
passing time paces every counter by the lease holder's (exists_counters_eq_paced). -/
theorem stepOtherwise : Obligations.StepOtherwise := by
  refine ⟨?_, ?_, ?_, ?_, ?_, ?_, ?_, ?_, ?_⟩
  · intro s l ls hs hl hst hi
    rw [step_of_sched_nil hs, autoStep_eq_runLane hl hst, runLane_of_le_idx hl hi]
  · intro s i subj rest hs hi
    rw [step_of_sched_cons hs, State.choose, if_neg (Bool.not_eq_true _ ▸ hi)]
    rfl
  · intro s i subj rest hs hi
    rw [step_of_sched_cons hs, State.choose, if_pos hi]
  · intro s k l rest hs hl hi
    have hfront : ({ s with sched := rest } : State).toFront k = some { s with sched := rest, lanes := l :: s.lanes.eraseIdx k } :=
      toFront_of_some hl
    rw [step_of_sched_cons hs, State.choose, hfront]
    exact congrArg settled (runLane_of_idx_lt rfl hi)
  · intro s k rest hs hl
    have hfront : ({ s with sched := rest } : State).toFront k = none := toFront_of_none hl
    rw [step_of_sched_cons hs, State.choose, hfront]
  · intro s n rest hs
    exact step_of_sched_cons hs
  · intro s n
    obtain ⟨hnow, hmem, hlanes, hteams, -⟩ := s.tick_spec n
    exact ⟨hnow, hmem, hlanes, hteams, fun d hd hlt => State.timeOf_tick_leader hd hlt n,
      fun d hlt => State.timeOf_le_timeOf_tick hlt n⟩
  · intro s t hs hst hact
    rw [step_of_sched_nil hs, State.autoStep, nextLane_eq_none hst, hact]
  · intro s hs hst hact
    rw [step_of_sched_nil hs, State.autoStep, nextLane_eq_none hst, hact]

/-! ### Changes of one core, and members of a changed list -/

/-- A change of a core is a change of the cores alone. -/
theorem State.exists_modCore_eq (s : State) (c : Nat) (f : Core → Core) : ∃ ks, s.modCore c f = { s with cores := ks } := by
  unfold State.modCore State.setCore
  split
  · exact ⟨_, rfl⟩
  · exact ⟨_, rfl⟩

theorem getElem?_updWhere {α : Type} (p : α → Bool) (f : α → α) (l : List α) (i : Nat) :
    (updWhere p f l)[i]? = l[i]?.map (fun x => if p x then f x else x) := List.getElem?_map

/-! ### Granting register blocks (R120, R121) -/

theorem oldestRequest_mem {gs : List Group} {g : Group} (h : oldestRequest gs = some g) : g ∈ gs := by
  refine List.foldlRecOn gs _ (motive := fun a => ∀ g, a = some g → g ∈ gs) (fun g h => by cases h) ?_ g h
  intro a ih x hx g hg
  cases a with
  | none =>
    cases hg
    exact hx
  | some b =>
    by_cases hlt : x.rbAge < b.rbAge
    · simp only [hlt, if_true, Option.some.injEq] at hg
      exact hg ▸ hx
    · simp only [hlt, if_false] at hg
      exact ih g hg

/-- Only a request for one block or more is pending. -/
theorem rbreq_ne_zero_of_mem_requests {s : State} {L T : Nat} {g : Group} (h : g ∈ s.requests L T) : g.rbreq ≠ 0 := by
  simp only [State.requests, List.mem_filter, Bool.and_eq_true, decide_eq_true_eq] at h
  exact h.2.2

/-- RBACQ_GRANT leaves everything, or grants one pending request. -/
theorem execRbacqGrant_cases (s : State) : exec .rbacqGrant s = .next s ∨
    ∃ g em, g.rbreq ≠ 0 ∧ exec .rbacqGrant s = .next (s.grantBlocks g em).redraw := by
  have hexec : exec .rbacqGrant s = execRbacqGrant s := rfl
  rw [hexec, execRbacqGrant]
  dsimp only
  split
  · next g hplain =>
    obtain ⟨t, -, ht⟩ := List.exists_of_findSome?_eq_some hplain
    split at ht
    · cases ht
    · next g' hold =>
      split at ht
      · cases ht
        exact .inr ⟨g, false, rbreq_ne_zero_of_mem_requests (oldestRequest_mem hold), event_some ..⟩
      · cases ht
  · split
    · exact .inl (event_none s)
    · next g hold =>
      obtain ⟨t, -, hg⟩ := List.mem_flatMap.mp (oldestRequest_mem hold)
      obtain ⟨hreq, -⟩ := List.mem_filter.mp hg
      split
      · exact .inl (event_none s)
      · split
        · exact .inr ⟨g, true, rbreq_ne_zero_of_mem_requests hreq, event_some ..⟩
        · exact .inl (event_none s)

/-- A group that is granted n blocks. -/
def Group.granted (n : Nat) (em : Bool) (g : Group) : Group :=
  { g with regs := g.regs.keep (fun k => decide (k < 512 * g.nblk)), nblk := g.nblk + n, rbreq := 0, emrg := g.emrg || em }

theorem State.grantBlocks_groups (s : State) (g : Group) (em : Bool) :
    (s.grantBlocks g em).groups =
      updWhere (fun h => h.launch == g.launch && h.team == g.team && h.gnum == g.gnum) (Group.granted g.rbreq em) s.groups := by
  unfold State.grantBlocks
  dsimp only
  split
  · obtain ⟨ks, hks⟩ := State.exists_modCore_eq _ _ _
    rw [hks]
    rfl
  · rfl

/-- Registers of n blocks, of 16 registers of 32 threads each. -/
theorem key_lt_blocks_iff {n r th : Nat} (hth : th < 32) : 32 * r + th < 512 * n ↔ r < 16 * n := by omega

/-- The granted registers read zero, those held before as they did. -/
theorem Group.granted_at_ (n : Nat) (em : Bool) (g : Group) (r : Nat) {th : Nat} (hth : th < 32) :
    (g.granted n em).at_ r th = if r < 16 * g.nblk then g.at_ r th else 0 := by
  rw [Group.at_, Group.granted, Cells.get_keep]
  simp only [decide_eq_true_eq, key_lt_blocks_iff hth]
  rfl

/-- Settles O22: RBACQ_GRANT changes the groups as `Group.granted` says, or not at all (execRbacqGrant_cases). -/
theorem grantedRegistersReadZero : Obligations.GrantedRegistersReadZero := by
  intro s
  rcases execRbacqGrant_cases s with hexec | ⟨q, em, hq, hexec⟩
  · refine ⟨s, hexec, rfl, fun i g h hg hh => .inl ?_⟩
    rw [hg] at hh
    exact (Option.some.inj hh).symm
  · have hgroups : (s.grantBlocks q em).redraw.groups = _ := s.grantBlocks_groups q em
    refine ⟨_, hexec, ?_, fun i g h hg hh => ?_⟩
    · rw [hgroups]
      exact List.length_map ..
    · rw [hgroups, getElem?_updWhere, hg, Option.map_some, Option.some.injEq] at hh
      split at hh
      · subst hh
        exact .inr ⟨q.rbreq, Nat.pos_of_ne_zero hq, rfl, rfl, rfl, fun r th hth => g.granted_at_ q.rbreq em r hth⟩
      · exact .inl hh.symm

/-! ### Group instructions (R118 to R124, R151) -/

/-- The word raises REGFAULT, naming the lowest-numbered issuing thread. -/
def RaisesRegfault (i : Instr) (s : State) (l : Lane) (ls : List Lane) (g : Group) : Prop :=
  ∃ t, exec i s = .next t ∧ Raised s t l ls g { code := 0x0004, thread := l.lowest }

section
variable {i : Instr} {bad : State → Lane → Group → Bool} {body : State → Lane → Group → State} {s : State} {l : Lane} {ls : List Lane}
  {g : Group} (hi : ∀ s, exec i s = runWord i (fun s l g => regfaultIf l (bad s l g)) body s) (hr : Runs i s l ls g)
include hi hr

theorem raisesRegfault_of_bad (hbad : bad s l g = true) : RaisesRegfault i s l ls g := by
  obtain ⟨t, ht⟩ := runWord_own i (fun s l g => regfaultIf l (bad s l g)) body s l ls g _ hr (by rw [hbad]; rfl)
  exact ⟨t, (hi s).symm ▸ ht⟩

/-- A group instruction that its own check accepts has the effect of its body, and the clause, as the body leaves it, goes on. -/
theorem groupWord_next (hok : bad s l g = false) {now : Lane} (hl : (body s l g).lanes = now :: ls) :
    exec i s = .next { body s l g with lanes := now.after :: ls, freeCtr := (body s l g).freeCtr + 1 } := by
  rw [hi, runWord_next i _ body s l ls g hr (by rw [hok]; rfl), advance_of _ _ _ hl]

end

/-! ### WBASE and RBACQ (R119, R120) -/

/-- What WBASE does with the operand `arg`: below the blocks held it becomes the window base, otherwise the word faults. -/
def SetsWindow (i : Instr) (arg : State → Lane → Group → Nat) : Prop :=
  ∀ s l ls g, Runs i s l ls g →
    (arg s l g < g.nblk → exec i s = .next { s.modGroup l.launch l.team l.gnum (fun h => { h with wb := arg s l g }) with
      lanes := l.after :: ls, freeCtr := s.freeCtr + 1 }) ∧
    (g.nblk ≤ arg s l g → RaisesRegfault i s l ls g)

theorem setsWindow {i : Instr} {arg : State → Lane → Group → Nat}
    (hi : ∀ s, exec i s = runWord i (fun s l g => regfaultIf l (wbaseBad g (arg s l g))) (fun s l g => s.setWindow l (arg s l g)) s) :
    SetsWindow i arg := by
  intro s l ls g hr
  exact ⟨fun h => groupWord_next hi hr (decide_eq_false (Nat.not_le.mpr h)) hr.1,
    fun h => raisesRegfault_of_bad hi hr (decide_eq_true h)⟩

/-- What RBACQ does with the operand `arg`: it is noted for the end of the clause, unless it could never be granted. -/
def RequestsBlocks (i : Instr) (arg : State → Lane → Group → Nat) : Prop :=
  ∀ s l ls g t, Runs i s l ls g → s.team? l.launch l.team = some t →
    (arg s l g = 0 ∨ (g.nblk + arg s l g ≤ 32 ∧ g.nblk + arg s l g ≤ t.t) →
      exec i s = .next { s with lanes := { l.after with rbacq := arg s l g } :: ls, freeCtr := s.freeCtr + 1 }) ∧
    (arg s l g ≠ 0 → (32 < g.nblk + arg s l g ∨ t.t < g.nblk + arg s l g) → RaisesRegfault i s l ls g)

/-- What could never be granted: some blocks, and more than a group or its team can hold. -/
theorem rbacqBad_iff {s : State} {l : Lane} {t : Team} (ht : s.team? l.launch l.team = some t) (g : Group) (n : Nat) :
    rbacqBad s l g n = true ↔ n ≠ 0 ∧ (32 < g.nblk + n ∨ t.t < g.nblk + n) := by
  simp only [rbacqBad, ht, Option.map_some, Option.getD_some, Bool.and_eq_true, Bool.or_eq_true, decide_eq_true_eq]

theorem requestsBlocks {i : Instr} {arg : State → Lane → Group → Nat}
    (hi : ∀ s, exec i s = runWord i (fun s l g => regfaultIf l (rbacqBad s l g (arg s l g))) (fun s l g => s.noteRbacq (arg s l g)) s) :
    RequestsBlocks i arg := by
  intro s l ls g t hr ht
  have hnote : s.noteRbacq (arg s l g) = { s with lanes := { l with rbacq := arg s l g } :: ls } := by
    rw [State.noteRbacq, State.modLane, hr.1]
  constructor
  · intro h
    have hok : rbacqBad s l g (arg s l g) = false := by
      rw [Bool.eq_false_iff, ne_eq, rbacqBad_iff ht]
      omega
    rw [groupWord_next hi hr hok (congrArg State.lanes hnote), hnote]
    rfl
  · exact fun hn h => raisesRegfault_of_bad hi hr ((rbacqBad_iff ht g _).mpr ⟨hn, h⟩)

/-! ### RBREL (R122) -/

/-- From s to t clauses, memory, dies and launches are the same, and the group is g but for the blocks it waits to return and
for whether it counts the emergency block. -/
def BlocksReturned (s t : State) (L T G : Nat) (g : Group) : Prop :=
  t.lanes = s.lanes ∧ t.mem = s.mem ∧ t.dies = s.dies ∧ t.launches = s.launches ∧
    ∃ rel em, t.group? L T G = some { g with released := rel, emrg := em }

/-- The group of given names after a change of groups that keeps names. -/
theorem find?_groups_map (f : Group → Group) (hf : ∀ g, (f g).launch = g.launch ∧ (f g).team = g.team ∧ (f g).gnum = g.gnum)
    (gs : List Group) (L T G : Nat) :
    (gs.map f).find? (fun g => g.launch == L && g.team == T && g.gnum == G) =
      (gs.find? (fun g => g.launch == L && g.team == T && g.gnum == G)).map f := by
  have hnames : (fun g : Group => g.launch == L && g.team == T && g.gnum == G) ∘ f =
      fun g => g.launch == L && g.team == T && g.gnum == G := by
    funext g
    obtain ⟨hlaunch, hteam, hgnum⟩ := hf g
    simp only [Function.comp, hlaunch, hteam, hgnum]
  rw [List.find?_map, hnames]

section
variable {s t : State} {L T G : Nat} {g : Group} (h : BlocksReturned s t L T G g)
include h

theorem BlocksReturned.returnBlocks (role n : Nat) : BlocksReturned s (t.returnBlocks L T role n) L T G g := by
  obtain ⟨hlanes, hmem, hdies, hlaunches, rel, em, hg⟩ := id h
  unfold State.returnBlocks
  split
  · exact h
  · next team hteam =>
    dsimp only
    split
    · obtain ⟨ks, hks⟩ := State.exists_modCore_eq _ _ _
      rw [hks]
      refine ⟨hlanes, hmem, hdies, hlaunches, rel, ?_⟩
      have hfind := find?_groups_map (fun g => if g.launch == L && g.team == T then { g with emrg := false } else g)
        (fun g => by split <;> exact ⟨rfl, rfl, rfl⟩) t.groups L T G
      rw [show t.groups.find? _ = some _ from hg, Option.map_some] at hfind
      split at hfind
      · exact ⟨_, hfind⟩
      · exact ⟨_, hfind⟩
    · exact h

/-- Settling the blocks of a group that has not exited takes none that it holds. -/
theorem BlocksReturned.settleBlocks (hex : g.exited = false) : BlocksReturned s (t.settleBlocks L T G) L T G g := by
  obtain ⟨hlanes, hmem, hdies, hlaunches, rel, em, hg⟩ := id h
  simp only [State.settleBlocks, hg, hex, Bool.false_and, Bool.false_eq_true, if_false, Nat.add_zero, Nat.sub_zero, Nat.lt_irrefl]
  split
  · exact h
  · apply BlocksReturned.returnBlocks
    refine ⟨hlanes, hmem, hdies, hlaunches, _, em, Eq.trans (State.group?_modGroup t L T G _ ?_) (congrArg (Option.map _) hg)⟩
    exact fun _ => ⟨rfl, rfl, rfl⟩

end

/-- A group that holds n blocks less. -/
def Group.without (g : Group) (n : Nat) : Group :=
  { g with nblk := g.nblk - n, regs := g.regs.keep (fun k => decide (k < 32 * (16 * (g.nblk - n)))) }

/-- The registers of the blocks that remain read as they did. -/
theorem Group.without_at_ (g : Group) {n r th : Nat} (hr : r < 16 * (g.nblk - n)) (hth : th < 32) :
    (g.without n).at_ r th = g.at_ r th := by
  have hkey : 32 * r + th < 32 * (16 * (g.nblk - n)) := by omega
  rw [Group.at_, Group.without, Cells.get_keep, if_pos (decide_eq_true hkey)]
  rfl

theorem releaseBlocks_frame {s : State} {l : Lane} {g : Group} (hg : s.laneGroup? l = some g) (hex : g.exited = false) {n : Nat}
    (hn : n ≠ 0) : BlocksReturned s (s.releaseBlocks l g n) l.launch l.team l.gnum (g.without n) := by
  rw [State.releaseBlocks, if_neg hn]
  refine BlocksReturned.settleBlocks ?_ hex
  refine ⟨rfl, rfl, rfl, rfl, _, g.emrg,
    Eq.trans (State.group?_modGroup s l.launch l.team l.gnum _ ?_) (congrArg (Option.map _) hg)⟩
  exact fun _ => ⟨rfl, rfl, rfl⟩

/-- What RBREL refuses: blocks that the group has not, or without which its window base would not remain. -/
theorem rbrelBad_iff (g : Group) (n : Nat) : rbrelBad g n = true ↔ n ≠ 0 ∧ (g.nblk ≤ n ∨ g.nblk - n ≤ g.wb) := by
  simp only [rbrelBad, Bool.and_eq_true, Bool.or_eq_true, decide_eq_true_eq]

/-- What RBREL does with the operand `arg`: it removes the last blocks and keeps the registers that remain, or faults. -/
def ReleasesBlocks (i : Instr) (arg : State → Lane → Group → Nat) : Prop :=
  ∀ s l ls g, Runs i s l ls g → g.exited = false →
    (arg s l g ≠ 0 → g.nblk ≤ arg s l g ∨ g.nblk - arg s l g ≤ g.wb → RaisesRegfault i s l ls g) ∧
    (arg s l g = 0 → exec i s = .next { s with lanes := l.after :: ls, freeCtr := s.freeCtr + 1 }) ∧
    (arg s l g ≠ 0 → g.wb + arg s l g < g.nblk →
      ∃ t, exec i s = .next t ∧ t.lanes = l.after :: ls ∧ t.mem = s.mem ∧ t.dies = s.dies ∧ t.launches = s.launches ∧
        ∃ g', t.laneGroup? l = some g' ∧ g'.nblk = g.nblk - arg s l g ∧ g'.wb = g.wb ∧ g'.thr = g.thr ∧ g'.fcnt = g.fcnt ∧
          ∀ r th, r < 16 * (g.nblk - arg s l g) → th < 32 → g'.at_ r th = g.at_ r th)

theorem releasesBlocks {i : Instr} {arg : State → Lane → Group → Nat}
    (hi : ∀ s, exec i s = runWord i (fun s l g => regfaultIf l (rbrelBad g (arg s l g))) (fun s l g => s.releaseBlocks l g (arg s l g)) s) :
    ReleasesBlocks i arg := by
  intro s l ls g hr hex
  obtain ⟨hl, hg, -⟩ := id hr
  have hok : (arg s l g ≠ 0 → g.wb + arg s l g < g.nblk) → rbrelBad g (arg s l g) = false := by
    intro h
    rw [Bool.eq_false_iff, ne_eq, rbrelBad_iff]
    omega
  refine ⟨fun hn h => raisesRegfault_of_bad hi hr ((rbrelBad_iff g _).mpr ⟨hn, h⟩), ?_, ?_⟩
  · intro hn
    have hbody : s.releaseBlocks l g (arg s l g) = s := by rw [State.releaseBlocks, if_pos hn]
    rw [groupWord_next hi hr (hok fun h => absurd hn h) ((congrArg State.lanes hbody).trans hl), hbody]
  · intro hn h
    obtain ⟨hlanes, hmem, hdies, hlaunches, rel, em, hg'⟩ := releaseBlocks_frame hg hex hn
    exact ⟨_, groupWord_next hi hr (hok fun _ => h) (hlanes.trans hl), rfl, hmem, hdies, hlaunches, _, hg', rfl, rfl, rfl, rfl,
      fun r th hlt hth => g.without_at_ hlt hth⟩

/-! ### RQUOTA (R124) -/

theorem rquotaBad_iff {s : State} {l : Lane} {t : Team} (ht : s.team? l.launch l.team = some t) (src dst n : Nat) :
    rquotaBad s l src dst n = true ↔ t.nrole ≤ src ∨ t.nrole ≤ dst ∨ t.budget.getD src 0 < n := by
  simp only [rquotaBad, ht, Bool.or_eq_true, decide_eq_true_eq, or_assoc]

/-- The budgets after n blocks have moved from one role to another. -/
theorem getD_moved_budget {b : List Nat} {src dst n : Nat} (hsrc : src < b.length) (hdst : dst < b.length) (hne : src ≠ dst) (r : Nat) :
    (setNth (setNth b src (b.getD src 0 - n)) dst ((setNth b src (b.getD src 0 - n)).getD dst 0 + n)).getD r 0 =
      if r = src then b.getD r 0 - n else if r = dst then b.getD r 0 + n else b.getD r 0 := by
  simp only [getD_setNth, setNth_length, hsrc, hdst, and_true, if_neg hne.symm]
  split
  · next h => rw [if_neg (fun k => hne (k.symm.trans h)), h]
  · split
    · next h => rw [h]
    · rfl

/-- Moving budget changes the one team's budgets alone. -/
theorem moveBudget_spec {s : State} {l : Lane} {t : Team} (ht : s.team? l.launch l.team = some t) {src dst : Nat}
    (hsrc : src < t.budget.length) (hdst : dst < t.budget.length) (n : Nat) :
    (∃ ts, s.moveBudget l src dst n = { s with teams := ts }) ∧
    ∃ v, (s.moveBudget l src dst n).team? l.launch l.team = some v ∧ v.held = t.held ∧ v.t = t.t ∧
      ∀ r, v.budget.getD r 0 = if src = dst then t.budget.getD r 0 else if r = src then t.budget.getD r 0 - n
        else if r = dst then t.budget.getD r 0 + n else t.budget.getD r 0 := by
  unfold State.moveBudget
  by_cases h : src = dst
  · simp only [if_pos h]
    exact ⟨⟨_, rfl⟩, t, ht, rfl, rfl, fun r => rfl⟩
  · simp only [if_neg h]
    refine ⟨⟨_, rfl⟩, _, Eq.trans (State.team?_modTeam s l.launch l.team _ ?_) (congrArg (Option.map _) ht), rfl, rfl,
      getD_moved_budget hsrc hdst h⟩
    exact fun _ => ⟨rfl, rfl⟩

/-- What RQUOTA does with the operand `arg`: it moves that much budget from role `src` to role `dst` of the team, or faults. -/
def MovesBudget (i : Instr) (src dst : Nat) (arg : State → Lane → Group → Nat) : Prop :=
  ∀ s l ls g t, Runs i s l ls g → s.team? l.launch l.team = some t →
    (src < t.nrole → dst < t.nrole → t.nrole ≤ 4 → t.budget.length = 4 → arg s l g ≤ t.budget.getD src 0 →
      ∃ t', exec i s = .next t' ∧ t'.lanes = l.after :: ls ∧ t'.groups = s.groups ∧ t'.mem = s.mem ∧ t'.dies = s.dies ∧
        ∃ v, t'.team? l.launch l.team = some v ∧ v.held = t.held ∧ v.t = t.t ∧ ∀ r, v.budget.getD r 0 =
          if src = dst then t.budget.getD r 0 else if r = src then t.budget.getD r 0 - arg s l g
          else if r = dst then t.budget.getD r 0 + arg s l g else t.budget.getD r 0) ∧
    (t.nrole ≤ src ∨ t.nrole ≤ dst ∨ t.budget.getD src 0 < arg s l g → RaisesRegfault i s l ls g)

theorem movesBudget {i : Instr} {src dst : Nat} {arg : State → Lane → Group → Nat}
    (hi : ∀ s, exec i s = runWord i (fun s l g => regfaultIf l (rquotaBad s l src dst (arg s l g)))
      (fun s l g => s.moveBudget l src dst (arg s l g)) s) : MovesBudget i src dst arg := by
  intro s l ls g t hr ht
  constructor
  · intro hsrc hdst hrole hlen hle
    have hok : rquotaBad s l src dst (arg s l g) = false := by
      rw [Bool.eq_false_iff, ne_eq, rquotaBad_iff ht]
      omega
    obtain ⟨⟨ts, hts⟩, v, hv, hheld, hblocks, hbudget⟩ := moveBudget_spec ht (hlen ▸ Nat.lt_of_lt_of_le hsrc hrole)
      (hlen ▸ Nat.lt_of_lt_of_le hdst hrole) (arg s l g)
    rw [groupWord_next hi hr hok ((congrArg State.lanes hts).trans hr.1), hts]
    rw [hts] at hv
    exact ⟨_, rfl, rfl, rfl, rfl, rfl, v, hv, hheld, hblocks, hbudget⟩
  · exact fun h => raisesRegfault_of_bad hi hr ((rquotaBad_iff ht ..).mpr h)

/-! ### The group instructions, and what their statement says more -/

/-- What the group instructions do. Each takes its operand once, from the group of the clause in front; register and immediate
forms differ in the operand alone. -/
theorem groupInstructions_effects :
    (∀ x a z u, SetsWindow (.wbase x a z u) (groupArg a)) ∧ (∀ x y i u, SetsWindow (.wbaseImm x y i u) fun _ _ _ => i.toNat) ∧
    (∀ x a z u, RequestsBlocks (.rbacq x a z u) (groupArg a)) ∧
    (∀ x y i u, RequestsBlocks (.rbacqImm x y i u) fun _ _ _ => i.toNat) ∧
    (∀ x a z u, ReleasesBlocks (.rbrel x a z u) (groupArg a)) ∧
    (∀ x y i u, ReleasesBlocks (.rbrelImm x y i u) fun _ _ _ => i.toNat) ∧
    ∀ x a k f u, MovesBudget (.rquota x a k f u) f.toNat k.toNat (groupArg a) :=
  ⟨fun _ _ _ _ => setsWindow fun _ => rfl, fun _ _ _ _ => setsWindow fun _ => rfl, fun _ _ _ _ => requestsBlocks fun _ => rfl,
    fun _ _ _ _ => requestsBlocks fun _ => rfl, fun _ _ _ _ => releasesBlocks fun _ => rfl, fun _ _ _ _ => releasesBlocks fun _ => rfl,
    fun _ _ _ _ _ => movesBudget fun _ => rfl⟩

/-- WBASE of register 8. -/
def wbaseR8 : Instr := .wbase 0 8 0 false

/-- The group of the one clause of `namesakes`: 32 blocks, every register zero. -/
def namesake : Group := { launch := 1, team := 0, gnum := 0, thr := List.replicate 32 { pc := 0 }, nblk := 32 }

/-- WBASE of register 8 is next, and two groups bear the names of its group: register 8 reads 0 in thread 0 of the first, which
is the clause's, and 1 in thread 0 of the second. -/
def namesakes : State :=
  { State.reset.withFetchWord 32 ((encode wbaseR8).getD 0).toNat with groups := [namesake, { namesake with regs := [(256, 1)] }] }

/-- Its clause, with all threads issuing. -/
def namesakesLane : Lane :=
  { core := 0, launch := 1, team := 0, gnum := 0, claddr := 0, words := [(encode wbaseR8).getD 0], lits := List.replicate 7 0
    issuing := BitVec.allOnes 32 }

theorem namesakes_runs : Runs wbaseR8 namesakes namesakesLane [] namesake := ⟨rfl, rfl, rfl⟩

/-- Refutes O28 at WBASE in register form: where two groups bear the same names, as in `namesakes`, it gives each the operand
that the clause's group reads (R118), and the statement gives each the operand that this group itself reads, since the `g` under
its update shadows the clause's group. Read as `SetsWindow`, that part holds, and the others hold as they stand
(groupInstructions_effects). -/
theorem not_windowAndRegisterBlocks : ¬ Obligations.WindowAndRegisterBlocks := by
  rintro ⟨hstated, -⟩
  obtain ⟨hacts, -⟩ := groupInstructions_effects
  have hlow : groupArg 8 namesakes namesakesLane namesake < namesake.nblk := by decide
  obtain ⟨hset, -⟩ := hacts 0 8 0 false _ _ _ _ namesakes_runs
  obtain ⟨hclaim, -⟩ := hstated 0 8 0 false _ _ _ _ namesakes_runs
  have hwb := congrArg (fun t : State => t.groups.map Group.wb) (Host.Outcome.next.inj ((hset hlow).symm.trans (hclaim hlow)))
  exact absurd hwb (by decide)

end Sys2Proof.Machine

/-! ## Traps and context (06_traps_and_context): the fault queue -/

namespace Sys2Proof.Machine

/-! ### A group resumes while a logged store has still to replay (R169, R243, R244) -/

/-- The translation that core 0 keeps of the page at 0: mapped, homed on die 0, and not writable. -/
def readOnlyPage : Cached := { launch := 1, page := 0, size := 65536, leaf := 0x07 }

/-- A store of one byte to that page in core 0's side log, by operation `op`; `replay`: its identity while it replays. -/
def loggedStore (op : Nat) (replay : Option Nat) : LogEntry :=
  { launch := 1, team := 0, gnum := 0, thread := 0, op := op, va := 0, bytes := [0], kind := 0, page := 0, size := 65536
    tr := some { page := 0, size := 65536, pa := 0, leaf := 0x07 }, replay := replay }

/-- A group that a BINVAL has released from its wait with BAR_INVAL (R303), and its record. -/
def invalidated : Group :=
  { launch := 1, team := 0, gnum := 1, thr := List.replicate 32 { pc := 0 }, nblk := 1, halt := .faulted }
def invalidRecord : Record := { code := Code.barInval, cls := Cls.wait, launch := 1, gnum := 1 }

/-- The launch of the store and of the group. -/
def onlyLaunch : Launch :=
  { num := 1, queue := 1, cores := [0], counts := [0], gangArr := [[]], phase := .placed, block := List.replicate 16 0 }

/-- ST.u8 with U to the address in register 8. -/
def storeByte : Instr := .st 10 8 false 0 true

/-- That ST is next, at address 0, whose page core 0 still keeps logged for one earlier store; the record of the released group
is in the fault queue of die 0. -/
def storing : State :=
  let s := State.reset.withFetchWord 32 ((encode storeByte).getD 0).toNat
  { s with
    dieMask := BitVec.allOnes 60
    groups := s.groups ++ [invalidated]
    cores := [{ id := 0, tlb := [readOnlyPage], sideLog := [loggedStore 0 (some 0)] }]
    dies := setNth s.dies 0 { s.die 0 with faultQ := [invalidRecord] }
    subj := [0] }

/-- The state that the ST leaves. -/
def stored : State :=
  match exec storeByte storing with
  | .next t => t
  | _ => storing

/-- The ST enters the side log unchecked, as its page is logged (R243), and waits there to be replayed (`State.admitLog`). -/
theorem stored_sideLog : (stored.core 0).sideLog = [loggedStore 0 (some 0), loggedStore 1 none] := by decide

/-- What taking the record makes of that state. -/
def resumed : State := (stored.modDie 0 fun d => { d with faultQ := [] }).resumeAfter invalidRecord

theorem handling_stored : exec .faultRecordHandling stored = .next resumed.redraw := rfl

/-- As the group resumes, what waits goes on (`State.settle`): the store replays, fails its check, and core 0 notes for the launch
that it has had the NOT_MAPPED record of the page at 0 (R244). -/
theorem resumed_notMapped : (resumed.launch? 1).map Launch.notMapped = some [(0, 0)] := by decide

/-- Refutes O46 where a BAR_INVAL record resumes its group: the statement keeps every field of the launch but the counts of its
trap log, and `stored`, which a ST leaves, still has a store to replay that its page does not permit. It replays as the group
resumes, so that the launch's list of pages with a NOT_MAPPED record (R244) has grown from [] to [(0, 0)] (resumed_notMapped). -/
theorem not_faultQueueAndContexts : ¬ Obligations.FaultQueueAndContexts := by
  rintro ⟨-, hhandling, -⟩
  have hqueue : (stored.die (stored.sub 0)).faultQ = [invalidRecord] := rfl
  have hruns : ∀ t, stored.team? 1 0 = some t → t.ctx = .run := by
    rintro t ht
    cases ht
    rfl
  have hstreams : ∀ h ∈ stored.groups, h.stream = [] := by decide
  obtain ⟨-, -, hlaunch⟩ := hhandling stored invalidRecord [] hqueue
  obtain ⟨hresume, -⟩ := hlaunch onlyLaunch rfl (by decide) rfl hruns
  obtain ⟨t', -, hexec, -, -, -, -, -, -, hkept⟩ := hresume (by decide) (.inl rfl) invalidated rfl rfl rfl hstreams
  obtain rfl : resumed.redraw = t' := Host.Outcome.next.inj (handling_stored.symm.trans hexec)
  have hempty : (resumed.launch? 1).map Launch.notMapped = some [] := congrArg (Option.map Launch.notMapped) hkept
  exact absurd (resumed_notMapped.symm.trans hempty) (by decide)

end Sys2Proof.Machine

/-! ## The memory engine (07_memory_engine): words that start accesses, local store, memory's own steps -/

namespace Sys2Proof.Machine

/-! ### Loads, stores and atomics start (R211 to R215, R219 to R224) -/

/-- A load word that R211 lets pass puts one access for each executing thread in flight. -/
theorem loadWord_started {i : Instr} {d a : BitVec 7} {t : BitVec 4} {u : Bool} {kind : OpKind} {acq nc : Bool} {s : State} {l : Lane}
    {ls : List Lane} {g : Group} (hexec : exec i s = loadWord i d a t u kind acq nc s) (hr : Runs i s l ls g)
    (hok : ∀ th ∈ l.execThreads u, Accessible .load (memSize t) (viewOf s l g false th) (pairAt s l g a th)) :
    ∃ t', exec i s = .next t' ∧ Started s t' l ls { opOf s l u kind with
      dst := dstOf g d (tySize t), acq := acq, nc := nc
      accs := (l.execThreads u).map (fun th => ({ id := 0, thread := th, va := pairAt s l g a th, len := memSize t } : Access)) } := by
  rw [hexec]
  exact startMem_started i (dataChecks u a (memSize t) .load []) s l ls g
    (fun s l g => { l.start s kind u with dst := dstOf g d (tySize t), acq := acq, nc := nc }) false
    (fun s l g => accessesOf s l g u fun e => { id := 0, thread := 0, va := e.adr a, len := memSize t }) hr
    (dataChecks_none u a (memSize t) .load s l g hok)

/-- Settles O30: R211 finds nothing (dataChecks_none), and starting the operation is calm (startMem_started). -/
theorem loadsAndStoresStart : Obligations.LoadsAndStoresStart := by
  refine ⟨?_, ?_, ?_⟩
  · intro d a o t u s l ls g hr hok
    exact loadWord_started rfl hr hok
  · intro d a k t u s l ls g hr hok
    exact loadWord_started rfl hr hok
  · intro d a r t u s l ls g hr hok
    exact startMem_started (.st d a r t u) (dataChecks u a (memSize t) .store []) s l ls g
      (fun s l g => { l.start s (.store t.toNat) u with srcs := srcOf g d (tySize t) ++ srcOf g a 2, rel := r }) (!r)
      (fun s l g => accessesOf s l g u fun e =>
        { id := 0, thread := 0, va := e.adr a, len := memSize t, data := storeBytes t (e.z.typed t d) }) hr
      (dataChecks_none u a (memSize t) .store s l g hok)

/-- Settles O31: the twelve instructions are `atomWord` with the number of their operation (atom_started). -/
theorem atomicsStart : Obligations.AtomicsStart := by
  intro c hc d a p o t u s l ls g hr _ _ _ hok hprom
  have hatom : ∀ s, exec (c.1 d a p o t u) s = atomWord (c.1 d a p o t u) c.2 d a p o t u s := by
    simp only [List.mem_cons, List.not_mem_nil, or_false] at hc
    rcases hc with rfl | rfl | rfl | rfl | rfl | rfl | rfl | rfl | rfl | rfl | rfl | rfl <;> intro s <;> rfl
  exact atom_started _ c.2 d a p o t u s l ls g hatom hr hok hprom

/-! ### Address faults (R194, R211, R216) -/

/-- The word raises `code` for thread `th`, naming the address `adr th`, and nothing else changes. -/
def RaisesAt (i : Instr) (code : Nat) (adr : Nat → Nat) (s : State) (l : Lane) (ls : List Lane) (g : Group) (th : Nat) : Prop :=
  ∃ t', exec i s = .next t' ∧ Raised s t' l ls g { code := code, addr := adr th, thread := th }

section
variable {i : Instr} {own : State → Lane → Group → Option Trap} {body : State → Lane → Group → State} {s : State} {l : Lane}
  {ls : List Lane} {g : Group} {u : Bool} (hexec : exec i s = runWord i own body s) (hr : Runs i s l ls g)
include hexec hr

/-- Of the checks of a word the first that some thread fails decides, for the first such thread. -/
theorem raisesAt_of_find (pre post : List (Thr → Option Trap)) {bad : Thr → Bool} {code : Nat} {adr : Thr → Nat} {th : Nat}
    (hown : own s l g = firstFail s l g u (pre ++ failIf bad code adr :: post))
    (hpre : ∀ c ∈ pre, ∀ t ∈ l.execThreads u, c (viewOf s l g false t) = none)
    (hfind : (l.execThreads u).find? (fun t => bad (viewOf s l g false t)) = some th) :
    RaisesAt i code (fun th => adr (viewOf s l g false th)) s l ls g th := by
  have hfail := firstFail_some s l g u pre post (failIf bad code adr) th { code := code, addr := adr (viewOf s l g false th) } hpre
    (findSome_failIf s l g u bad code adr th hfind)
  rw [RaisesAt, hexec]
  exact runWord_own i own body s l ls g _ hr (hown.trans hfail)

/-- Two checks in their order: the first fails for a thread, or no thread fails it and the second fails for one. -/
theorem raisesAt_of_two_checks (post : List (Thr → Option Trap)) {bad bad' : Thr → Bool} {code code' : Nat} {adr : Thr → Nat}
    (hown : own s l g = firstFail s l g u (failIf bad code adr :: failIf bad' code' adr :: post)) :
    (∀ th, (l.execThreads u).find? (fun t => bad (viewOf s l g false t)) = some th →
      RaisesAt i code (fun th => adr (viewOf s l g false th)) s l ls g th) ∧
    ((∀ t ∈ l.execThreads u, bad (viewOf s l g false t) = false) →
      ∀ th, (l.execThreads u).find? (fun t => bad' (viewOf s l g false t)) = some th →
        RaisesAt i code' (fun th => adr (viewOf s l g false th)) s l ls g th) := by
  refine ⟨fun th hfind => raisesAt_of_find hexec hr [] (failIf bad' code' adr :: post) hown (by simp) hfind,
    fun hok th hfind => raisesAt_of_find hexec hr [failIf bad code adr] post hown ?_ hfind⟩
  intro c hc t ht
  rw [List.mem_singleton.mp hc, failIf_none]
  exact hok t ht

/-- ADDR_RANGE and ALIGN_FAULT of a word that makes the checks of R211. -/
theorem dataWord_faults {a : BitVec 7} {n : Nat} {k : AccKind} (hown : own s l g = dataChecks u a n k [] s l g) :
    (∀ th, (l.execThreads u).find? (fun th => decide (2 ^ 57 ≤ pairAt s l g a th)) = some th →
      RaisesAt i 0x0014 (pairAt s l g a) s l ls g th) ∧
    ((∀ th ∈ l.execThreads u, pairAt s l g a th < 2 ^ 57) →
      ∀ th, (l.execThreads u).find? (fun th => decide (pairAt s l g a th % n ≠ 0)) = some th →
        RaisesAt i 0x0012 (pairAt s l g a) s l ls g th) := by
  obtain ⟨hrange, halign⟩ := raisesAt_of_two_checks hexec hr (chkPage (fun e => e.adr a) k) hown
  exact ⟨hrange, fun hok => halign fun th hth => decide_eq_false (Nat.not_le.mpr (hok th hth))⟩

/-- LOCAL_RANGE and ALIGN_FAULT of a word that makes the checks of R194 and R216. -/
theorem localWord_faults {a : BitVec 7} {n : Nat} {tm : Team} (hown : own s l g = localChecks u a n s l g)
    (htm : s.team? l.launch l.team = some tm) :
    (∀ th, (l.execThreads u).find? (fun th => decide ((s.localTarget tm (wordAt s l g a th) 1).isNone = true)) = some th →
      RaisesAt i 0x0013 (wordAt s l g a) s l ls g th) ∧
    ((∀ th ∈ l.execThreads u, (s.localTarget tm (wordAt s l g a th) 1).isSome = true) →
      ∀ th, (l.execThreads u).find? (fun th => decide (wordAt s l g a th % n ≠ 0)) = some th →
        RaisesAt i 0x0012 (wordAt s l g a) s l ls g th) := by
  obtain ⟨hrange, halign⟩ := raisesAt_of_two_checks hexec hr [] hown
  simp only [viewOf, htm] at hrange halign
  simp only [Bool.decide_eq_true]
  exact ⟨hrange, fun hok => halign fun th hth => Option.isNone_eq_false_iff.mpr (hok th hth)⟩

end

/-- Settles O32: the checks of R211, and those of R194 and R216, in their order (raisesAt_of_two_checks). -/
theorem addressFaults : Obligations.AddressFaults := by
  refine ⟨?_, ?_, ?_, ?_, ?_⟩
  · intro d a o t u s l ls g hr
    exact dataWord_faults (show exec (.ld d a o t u) s = loadWord (.ld d a o t u) d a t u _ _ _ s from rfl) hr rfl
  · intro d a k t u s l ls g hr
    exact dataWord_faults (show exec (.ldSpan d a k t u) s = loadWord (.ldSpan d a k t u) d a t u _ _ _ s from rfl) hr rfl
  · intro d a r t u s l ls g hr
    exact dataWord_faults (show exec (.st d a r t u) s = execSt d a r t u s from rfl) hr rfl
  · intro d a q t u s l ls g tm hr htm
    exact localWord_faults (show exec (.ldl d a q t u) s = execLdl d a q t u s from rfl) hr rfl htm
  · intro d a r t u s l ls g tm hr htm
    exact localWord_faults (show exec (.stl d a r t u) s = execStl d a r t u s from rfl) hr rfl htm

/-! ### LDL and STL (R194, R208, R216) -/

/-- The stream entries of the accesses of operation `i`. -/
def streamOf (i : Nat) (bs : List Access) (load rel : Bool) : List LocalAcc :=
  bs.zipIdx.map fun x =>
    { id := x.1.id, addr := x.1.va, kind := if load then .load i x.1.id else .store i x.1.id x.1.data
      rel := rel && decide (x.2 = 0), after := i }

/-- A local-store operation in flight with its accesses `bs`, the entries `es` in its group's stream, and nothing performed. -/
def State.queued (s : State) (l : Lane) (o : Op) (bs : List Access) (es : List LocalAcc) : State :=
  ({ s with nextId := s.nextId + 1 + bs.length, ops := s.ops ++ [{ o with accs := bs, acqDone := !o.acq }] } : State).modGroup
    l.launch l.team l.gnum fun g => { g with stream := g.stream ++ es }

theorem startLocal_eq (s : State) (l : Lane) (o : Op) (accs : List Access) (load rel : Bool) :
    s.startLocal l o accs load rel =
      (s.queued l o (numbered (s.nextId + 1) accs) (streamOf o.id (numbered (s.nextId + 1) accs) load rel)).drainLocal
        l.launch l.team l.gnum false := rfl

/-- Starting a local-store operation stays with its core. -/
theorem near_startLocal (s : State) (l : Lane) (o : Op) (accs : List Access) (load rel : Bool) :
    Near s (s.startLocal l o accs load rel) :=
  Near.trans (t := s.queued l o (numbered (s.nextId + 1) accs) (streamOf o.id (numbered (s.nextId + 1) accs) load rel))
    ⟨rfl, rfl⟩ (near_drainLocal _ _ _ _ _)

theorem group?_names {s : State} {L T G : Nat} {g : Group} (hg : s.group? L T G = some g) :
    g.launch = L ∧ g.team = T ∧ g.gnum = G := by
  have hnames := List.find?_some hg
  simp only [Bool.and_eq_true, beq_iff_eq] at hnames
  obtain ⟨⟨hL, hT⟩, hG⟩ := hnames
  exact ⟨hL, hT, hG⟩

theorem team?_idx {s : State} {L T : Nat} {t : Team} (ht : s.team? L T = some t) : t.idx = T := by
  have hnames := List.find?_some ht
  simp only [Bool.and_eq_true, beq_iff_eq] at hnames
  exact hnames.2

theorem group?_queued {s : State} {l : Lane} {g : Group} (hg : s.laneGroup? l = some g) (hs : g.stream = []) (o : Op) (bs : List Access)
    (es : List LocalAcc) : (s.queued l o bs es).group? l.launch l.team l.gnum = some { g with stream := es } := by
  have hmod := State.group?_modGroup
    ({ s with nextId := s.nextId + 1 + bs.length, ops := s.ops ++ [{ o with accs := bs, acqDone := !o.acq }] } : State)
    l.launch l.team l.gnum (fun g => { g with stream := g.stream ++ es }) fun g => ⟨rfl, rfl, rfl⟩
  have hfind : s.group? l.launch l.team l.gnum = some g := hg
  refine hmod.trans ((congrArg _ hfind).trans ?_)
  rw [Option.map_some, hs, List.nil_append]

theorem numbered_ids (n : Nat) (accs : List Access) : ((numbered n accs).map (·.id)).Nodup := by
  have hids : (numbered n accs).map (·.id) = (List.range' 0 accs.length).map (n + ·) := by
    rw [← List.zipIdx_map_snd 0 accs]
    simp only [numbered, List.map_map]
    rfl
  rw [hids]
  exact List.pairwise_map.mpr (List.Pairwise.imp (fun hne he => hne (Nat.add_left_cancel he)) List.nodup_range')

/-- A view of accesses that does not show their numbers. -/
theorem map_numbered {α : Type} (n : Nat) (accs : List Access) (f : Access → α) (hf : ∀ a i, f { a with id := i } = f a) :
    (numbered n accs).map f = accs.map f := by
  rw [numbered, List.map_map]
  refine Eq.trans (List.map_congr_left fun x _ => hf x.1 (n + x.2)) (Eq.trans (List.map_map (f := Prod.fst) (g := f)).symm ?_)
  rw [List.zipIdx_map_fst]

theorem map_zipIdx_numbered {α : Type} (n : Nat) (accs : List Access) (f : Access → Nat → α)
    (hf : ∀ a i k, f { a with id := i } k = f a k) :
    (numbered n accs).zipIdx.map (fun x => f x.1 x.2) = accs.zipIdx.map (fun x => f x.1 x.2) := by
  refine List.ext_getElem? fun i => ?_
  simp only [numbered, List.getElem?_map, List.getElem?_zipIdx]
  cases accs[i]? with
  | none => rfl
  | some a => exact congrArg some (hf a _ _)

/-! ### The stores of a group stay in its stream -/

/-- A store's entry waits while its operation is in flight: until its flag falls (log 9). -/
theorem localReady_store_eq_false {s : State} {g : Group} {behind : List LocalAcc} {e : LocalAcc} {r : Bool} {i a : Nat} {bs : List Byte}
    (he : e.kind = .store i a bs) (ho : ∃ o ∈ s.ops, o.id = i) : s.localReady g behind e r = false := by
  obtain ⟨o, ho, rfl⟩ := ho
  have hop : (s.op? o.id).isNone = false := by
    rw [Option.isNone_eq_false_iff, State.op?, List.find?_isSome]
    exact ⟨o, ho, beq_self_eq_true _⟩
  simp only [State.localReady, he, hop, Bool.and_false]

/-- Where no entry of the stream may perform, only the list of groups is written, and the group is as it was. -/
theorem drainLocal_stuck {s : State} {L T G : Nat} {g : Group} {r : Bool} (hg : s.group? L T G = some g)
    (h : ∀ e ∈ g.stream, ∀ b, s.localReady g b e r = false) :
    ∃ gs, s.drainLocal L T G r = { s with groups := gs } ∧ ({ s with groups := gs } : State).group? L T G = some g := by
  rw [State.drainLocal, hg]
  dsimp only
  split
  · exact ⟨s.groups, rfl, hg⟩
  · rw [drainList_stuck L T G r g.stream [] s g hg h]
    refine ⟨_, rfl, ?_⟩
    have hmod := State.group?_modGroup s L T G (fun h => { h with stream := [] ++ g.stream }) fun g => ⟨rfl, rfl, rfl⟩
    rw [hg] at hmod
    exact hmod

/-! ### The loads of an idle group perform at once -/

/-- A load's access once it has performed on the team's local store. -/
def Access.filled (tm : Team) (a : Access) : Access := { a with st := .done, data := tm.read a.va a.len }

/-- The stream entry of a load's access. -/
def loadEntry (i : Nat) (a : Access) : LocalAcc := { id := a.id, addr := a.va, kind := .load i a.id, after := i }

theorem streamOf_load (i : Nat) (bs : List Access) : streamOf i bs true false = bs.map (loadEntry i) := by
  refine Eq.trans (List.map_congr_left fun x _ => ?_) (Eq.trans (List.map_map (f := Prod.fst) (g := loadEntry i)).symm ?_)
  · rfl
  · rw [List.zipIdx_map_fst]

theorem updWhere_eq_self {α : Type} {p : α → Bool} {f : α → α} {xs : List α} (h : ∀ x ∈ xs, p x = false) : updWhere p f xs = xs :=
  (List.map_congr_left fun x hx => if_neg (by simp [h x hx])).trans (List.map_id xs)

/-- Changing the one member that `p` finds. -/
theorem updWhere_append_cons {α : Type} {p : α → Bool} {f : α → α} {xs ys : List α} {y : α} (hx : ∀ x ∈ xs, p x = false)
    (hy : p y = true) (hys : ∀ x ∈ ys, p x = false) : updWhere p f (xs ++ y :: ys) = xs ++ f y :: ys := by
  have hsplit : updWhere p f (xs ++ y :: ys) = updWhere p f xs ++ updWhere p f (y :: ys) := List.map_append
  have hhead : updWhere p f (y :: ys) = f y :: updWhere p f ys := by simp only [updWhere, List.map_cons, hy, if_true]
  rw [hsplit, hhead, updWhere_eq_self hx, updWhere_eq_self hys]

theorem find?_append_cons {α : Type} {p : α → Bool} {xs ys : List α} {y : α} (hx : ∀ x ∈ xs, p x = false) (hy : p y = true) :
    (xs ++ y :: ys).find? p = some y := by
  rw [List.find?_append, List.find?_eq_none.mpr fun x h => by simp [hx x h], Option.none_or, List.find?_cons_of_pos hy]

/-- Changing the one operation of its number, the last in flight. -/
theorem modOp_last {s : State} {pre : List Op} {p : Op} {i : Nat} (hs : s.ops = pre ++ [p]) (hpre : ∀ x ∈ pre, x.id < i) (hp : p.id = i)
    (f : Op → Op) : s.modOp i f = { s with ops := pre ++ [f p] } := by
  rw [State.modOp, hs, updWhere_append_cons (fun x hx => beq_false_of_ne (Nat.ne_of_lt (hpre x hx))) (beq_iff_eq.mpr hp)
    fun x hx => absurd hx List.not_mem_nil]

section
variable {s : State} {g : Group} {tm : Team} {pre : List Op} {o : Op} {done rest : List Access} {a : Access}

/-- The one operation `o` of the group is in flight, the last of all, with the accesses `done ++ rest`; the group's team `tm` has
no ring write waiting. -/
structure LoadsOwn (s : State) (g : Group) (tm : Team) (pre : List Op) (o : Op) (done rest : List Access) : Prop where
  group : s.group? g.launch g.team g.gnum = some g
  team : s.team? g.launch g.team = some tm
  calm : tm.ringWrites = []
  others : ∀ p ∈ pre, p.id < o.id ∧ p.ofGroup g.launch g.team g.gnum = false
  ops : s.ops = pre ++ [{ o with accs := done ++ rest }]
  relDone : o.relDone = true
  ids : ((done ++ rest).map (·.id)).Nodup
  own : ∀ a ∈ rest, a.va < 2 ^ 19

theorem LoadsOwn.not_older (h : LoadsOwn s g tm pre o done rest) (p : Op) (hp : p ∈ s.ops) :
    (p.ofGroup g.launch g.team g.gnum && decide (p.id < o.id)) = false := by
  rw [h.ops, List.mem_append, List.mem_singleton] at hp
  rcases hp with hp | rfl
  · rw [(h.others p hp).2, Bool.false_and]
  · simp

theorem LoadsOwn.streamTeam (h : LoadsOwn s g tm pre o done (a :: rest)) : s.streamTeam g.launch g.team a.va = some tm := by
  have hown : a.va / 524288 = 0 := Nat.div_eq_of_lt (h.own a List.mem_cons_self)
  simp [State.streamTeam, h.team, hown]

theorem LoadsOwn.op? (h : LoadsOwn s g tm pre o done rest) : s.op? o.id = some { o with accs := done ++ rest } := by
  rw [State.op?, h.ops]
  exact find?_append_cons (fun p hp => beq_false_of_ne (Nat.ne_of_lt (h.others p hp).1)) (beq_self_eq_true o.id)

theorem LoadsOwn.localReady (h : LoadsOwn s g tm pre o done (a :: rest)) : s.localReady g [] (loadEntry o.id a) false = true := by
  have hown : a.va / 524288 = 0 := Nat.div_eq_of_lt (h.own a List.mem_cons_self)
  have hacq : s.acquiresDone g.launch g.team g.gnum o.id = true :=
    List.all_eq_true.mpr fun p hp => by simp [h.not_older p hp]
  have hatoms : s.atomsDone g.launch g.team g.gnum o.id = true :=
    List.all_eq_true.mpr fun p hp => by rw [h.not_older p hp]; rfl
  have hslots : s.slotsRead g.launch g.team g.gnum o.id = true :=
    List.all_eq_true.mpr fun p hp => by rw [h.not_older p hp]; rfl
  simp [State.localReady, loadEntry, h.streamTeam, h.calm, hown, hacq, hatoms, hslots, h.op?, h.relDone]

/-- No other access of the operation bears the number of the next one. -/
theorem LoadsOwn.id_ne (h : LoadsOwn s g tm pre o done (a :: rest)) :
    (∀ b ∈ done, (b.id == a.id) = false) ∧ ∀ b ∈ rest, (b.id == a.id) = false := by
  have hids := h.ids
  rw [List.map_append, List.map_cons, List.nodup_append] at hids
  obtain ⟨-, hrest, hdone⟩ := hids
  refine ⟨fun b hb => beq_false_of_ne (hdone b.id (List.mem_map_of_mem hb) a.id List.mem_cons_self), fun b hb => ?_⟩
  exact beq_false_of_ne fun he => (List.nodup_cons.mp hrest).1 (he ▸ List.mem_map_of_mem hb)

theorem LoadsOwn.performLocal (h : LoadsOwn s g tm pre o done (a :: rest)) :
    s.performLocal g (loadEntry o.id a) = { s with ops := pre ++ [{ o with accs := done ++ a.filled tm :: rest }] } := by
  obtain ⟨hdone, hrest⟩ := h.id_ne
  have hoff : localOff a.va = a.va := Nat.mod_eq_of_lt (h.own a List.mem_cons_self)
  have hteam : s.team? g.launch tm.idx = some tm := by rw [team?_idx h.team, h.team]
  have hacc : (done ++ a :: rest).find? (fun x => x.id == a.id) = some a := find?_append_cons hdone (beq_self_eq_true a.id)
  have hlen : (loadEntry o.id a).len s = a.len := by simp [LocalAcc.len, loadEntry, h.op?, hacc]
  have hperform : s.performLocal g (loadEntry o.id a) =
      s.modAcc o.id a.id (fun x => { x with st := .done, data := tm.read a.va a.len }) := by
    simp only [State.performLocal, hlen]
    simp only [loadEntry, h.streamTeam, hoff, Option.map_some, Option.getD_some, hteam]
  rw [hperform, State.modAcc, modOp_last h.ops (fun p hp => (h.others p hp).1) rfl]
  dsimp only
  rw [updWhere_append_cons hdone (beq_self_eq_true a.id) hrest]
  rfl

/-- The step of the stream at a load's entry: it performs, and completes its acquire where it is the last to. -/
theorem LoadsOwn.next (h : LoadsOwn s g tm pre o done (a :: rest)) : ∃ b,
    (s.performLocal g (loadEntry o.id a)).modOp o.id (fun o => { o with acqDone := o.acqDone || o.accs.all Access.performed }) =
      { s with ops := pre ++ [{ o with acqDone := b, accs := (done ++ [a.filled tm]) ++ rest }] } := by
  rw [h.performLocal, modOp_last (p := { o with accs := done ++ a.filled tm :: rest }) rfl (fun p hp => (h.others p hp).1) rfl]
  exact ⟨_, by simp only [List.append_assoc, List.singleton_append]; rfl⟩

theorem LoadsOwn.step (h : LoadsOwn s g tm pre o done (a :: rest)) (b : Bool) :
    LoadsOwn { s with ops := pre ++ [{ o with acqDone := b, accs := (done ++ [a.filled tm]) ++ rest }] } g tm pre
      { o with acqDone := b } (done ++ [a.filled tm]) rest where
  group := h.group
  team := h.team
  calm := h.calm
  others := h.others
  ops := rfl
  relDone := h.relDone
  ids := by simpa [Access.filled] using h.ids
  own := fun x hx => h.own x (List.mem_cons_of_mem a hx)

/-- The accesses of the group's load perform in turn, each with the bytes of the team's local store. -/
theorem drainList_loads (rest : List Access) (s : State) (o : Op) (done : List Access) (h : LoadsOwn s g tm pre o done rest) :
    ∃ gs b, drainList g.launch g.team g.gnum false (rest.map (loadEntry o.id)) [] s =
      { s with groups := gs, ops := pre ++ [{ o with acqDone := b, accs := done ++ rest.map (Access.filled tm) }] } := by
  induction rest generalizing s o done with
  | nil =>
    have hops := h.ops
    rw [List.append_nil] at hops
    refine ⟨(s.modGroup g.launch g.team g.gnum fun g => { g with stream := [] }).groups, o.acqDone, ?_⟩
    rw [List.map_nil, List.map_nil, List.append_nil, drainList, ← hops]
    rfl
  | cons a rest ih =>
    obtain ⟨b, hnext⟩ := h.next
    obtain ⟨gs, b', hrest⟩ := ih _ _ _ (h.step b)
    refine ⟨gs, b', ?_⟩
    rw [List.map_cons, drainList, h.group]
    simp only [h.localReady, if_true]
    refine (congrArg (drainList g.launch g.team g.gnum false (rest.map (loadEntry o.id)) []) hnext).trans (hrest.trans ?_)
    simp only [List.map_cons, List.append_assoc, List.singleton_append]

end

/-! ### LDL and STL as words -/

section
variable {s : State} {l : Lane} {ls : List Lane} {g : Group} {tm : Team} {u : Bool} {a : BitVec 7} {n : Nat}

/-- R194 and the alignment find nothing. -/
theorem localChecks_none (hok : ∀ th ∈ l.execThreads u, LocalByte s l (wordAt s l g a th) ∧ wordAt s l g a th % n = 0) :
    localChecks u a n s l g = none := by
  rw [localChecks, firstFail_none]
  intro c hc th hth
  obtain ⟨⟨t, ht, hbyte⟩, halign⟩ := hok th hth
  simp only [List.mem_cons, List.not_mem_nil, or_false] at hc
  rcases hc with rfl | rfl
  · rw [chkLocal, failIf_none]
    simp only [viewOf, ht]
    exact Option.isNone_eq_false_iff.mpr hbyte
  · rw [chkAlign, failIf_none]
    exact decide_eq_false fun hne => hne halign

/-- A word that starts a local-store operation goes on, with everything beyond its core as it was. -/
theorem localWord_next {i : Instr} {own : State → Lane → Group → Option Trap} {o : State → Lane → Group → Op}
    {accs : State → Lane → Group → List Access} {load rel : Bool}
    (hexec : exec i s = runWord i own (fun s l g => s.startLocal l (o s l g) (accs s l g) load rel) s) (hr : Runs i s l ls g)
    (hown : own s l g = none) : ∃ t', exec i s = .next t' ∧ t'.lanes = l.after :: ls ∧ t'.beyond = s.beyond ∧
      t'.teams = (s.startLocal l (o s l g) (accs s l g) load rel).teams ∧
      t'.dies = (s.startLocal l (o s l g) (accs s l g) load rel).dies ∧
      t'.groups = (s.startLocal l (o s l g) (accs s l g) load rel).groups ∧
      t'.ops = (s.startLocal l (o s l g) (accs s l g) load rel).ops := by
  obtain ⟨hbeyond, hlanes⟩ := near_startLocal s l (o s l g) (accs s l g) load rel
  refine ⟨_, hexec.trans (runWord_next i own _ s l ls g hr hown), ?_⟩
  rw [advance_of _ l ls (hlanes.trans hr.1)]
  exact ⟨rfl, hbeyond, rfl, rfl, rfl, rfl⟩

/-- Where nothing of the group's is under way, its loads from the team's own local store perform as they start. -/
theorem startLocal_loads (hg : s.laneGroup? l = some g) (hidle : LocalIdle s l g tm) (o : Op) (ho : o.id = s.nextId)
    (hrel : o.relDone = true) (accs : List Access) (hown : ∀ x ∈ accs, x.va < 2 ^ 19) :
    (s.startLocal l o accs true false).teams = s.teams ∧ (s.startLocal l o accs true false).dies = s.dies ∧
      ∃ b, (s.startLocal l o accs true false).ops =
        s.ops ++ [{ o with acqDone := b, accs := (numbered (s.nextId + 1) accs).map (Access.filled tm) }] := by
  obtain ⟨hteam, hstream, -, hcalm, hops⟩ := hidle
  obtain ⟨hL, hT, hG⟩ := group?_names hg
  have hfind := group?_queued hg hstream o (numbered (s.nextId + 1) accs) ((numbered (s.nextId + 1) accs).map (loadEntry o.id))
  rw [startLocal_eq, streamOf_load, State.drainLocal, hfind]
  dsimp only
  split
  · next hnil =>
    rw [List.isEmpty_iff, List.map_eq_nil_iff] at hnil
    rw [hnil]
    exact ⟨rfl, rfl, !o.acq, rfl⟩
  · have hloads : LoadsOwn (s.queued l o (numbered (s.nextId + 1) accs) ((numbered (s.nextId + 1) accs).map (loadEntry o.id)))
        { g with stream := (numbered (s.nextId + 1) accs).map (loadEntry o.id) } tm s.ops { o with acqDone := !o.acq } []
        (numbered (s.nextId + 1) accs) :=
      { group := by simpa only [hL, hT, hG] using hfind
        team := by rw [hL, hT]; exact hteam
        calm := hcalm
        others := fun p hp => by rw [hL, hT, hG, ho]; exact hops p hp
        ops := rfl
        relDone := hrel
        ids := numbered_ids _ _
        own := fun x hx => by
          obtain ⟨y, hy, rfl⟩ := List.mem_map.mp hx
          exact hown y.1 (List.fst_mem_of_mem_zipIdx hy) }
    obtain ⟨gs, b, hdrain⟩ := drainList_loads _ _ _ _ hloads
    rw [hL, hT, hG] at hdrain
    rw [hdrain]
    exact ⟨rfl, rfl, b, rfl⟩

/-- Where the group's stream was empty, its stores stand there, and no team and no die has changed. -/
theorem startLocal_stores (hg : s.laneGroup? l = some g) (hs : g.stream = []) (o : Op) (accs : List Access) (rel : Bool) :
    (s.startLocal l o accs false rel).teams = s.teams ∧ (s.startLocal l o accs false rel).dies = s.dies ∧
      (s.startLocal l o accs false rel).ops =
        s.ops ++ [{ o with accs := numbered (s.nextId + 1) accs, acqDone := !o.acq }] ∧
      (s.startLocal l o accs false rel).laneGroup? l =
        some { g with stream := streamOf o.id (numbered (s.nextId + 1) accs) false rel } := by
  have hfind := group?_queued hg hs o (numbered (s.nextId + 1) accs) (streamOf o.id (numbered (s.nextId + 1) accs) false rel)
  obtain ⟨gs, hdrain, hgroup⟩ := drainLocal_stuck (r := false) hfind (by
    intro e he b
    obtain ⟨x, -, rfl⟩ := List.mem_map.mp he
    exact localReady_store_eq_false rfl ⟨_, List.mem_append_right _ List.mem_cons_self, rfl⟩)
  rw [startLocal_eq, hdrain]
  exact ⟨rfl, rfl, rfl, hgroup⟩

end

/-- Settles O33: an idle group's loads perform as they start (startLocal_loads), its stores wait for their flag to fall
(startLocal_stores). -/
theorem localLoadsAndStores : Obligations.LocalLoadsAndStores := by
  refine ⟨?_, ?_⟩
  · intro d a q t u s l ls g hr hok
    obtain ⟨t', hnext, hlanes, hbeyond, hteams, hdies, -, hops⟩ :=
      localWord_next (show exec (.ldl d a q t u) s = execLdl d a q t u s from rfl) hr (localChecks_none hok)
    refine ⟨t', hnext, hlanes, hbeyond, fun tm hidle hown => ?_⟩
    obtain ⟨steams, sdies, b, sops⟩ := startLocal_loads hr.2.1 hidle
      { l.start s (.localLoad t.toNat) u with dst := dstOf g d (tySize t), acq := q } rfl rfl
      (accessesOf s l g u fun e => { id := 0, thread := 0, va := e.ladr a, len := memSize t, st := .sent }) (by
        intro x hx
        obtain ⟨th, hth, rfl⟩ := List.mem_map.mp hx
        exact hown th hth)
    refine ⟨hteams.trans steams, hdies.trans sdies, _, by rw [hops, sops]; exact List.mem_append_right _ List.mem_cons_self,
      rfl, rfl, rfl, rfl, rfl, ?_⟩
    dsimp only
    rw [List.map_map, map_numbered _ _ _ fun _ _ => rfl, accessesOf, List.map_map]
    rfl
  · intro d a r t u s l ls g hr hok
    obtain ⟨t', hnext, hlanes, hbeyond, hteams, hdies, hgroups, hops⟩ :=
      localWord_next (show exec (.stl d a r t u) s = execStl d a r t u s from rfl) hr (localChecks_none hok)
    refine ⟨t', hnext, hlanes, hbeyond, fun tm hidle => ?_⟩
    obtain ⟨-, hstream, -⟩ := hidle
    obtain ⟨steams, sdies, sops, sgroup⟩ := startLocal_stores hr.2.1 hstream
      { l.start s (.localStore t.toNat) u with srcs := srcOf g d (tySize t) ++ srcOf g a 1 }
      (accessesOf s l g u fun e =>
        { id := 0, thread := 0, va := e.ladr a, len := memSize t, data := storeBytes t (e.z.typed t d), st := .done }) r
    refine ⟨hteams.trans steams, hdies.trans sdies,
      ⟨_, by rw [hops, sops]; exact List.mem_append_right _ List.mem_cons_self, rfl, rfl, rfl, rfl⟩, _,
      by rw [State.laneGroup?, State.group?, hgroups]; exact sgroup, ?_, ?_⟩
    · dsimp only
      rw [streamOf, List.map_map]
      refine (map_zipIdx_numbered _ _ (fun x k => (x.va, r && decide (k = 0))) fun _ _ _ => rfl).trans ?_
      rw [accessesOf, List.zipIdx_map, List.map_map]
      rfl
    · dsimp only
      rw [streamOf, List.map_map]
      refine (map_zipIdx_numbered _ _ (fun x _ => x.data) fun _ _ _ => rfl).trans ?_
      rw [accessesOf, List.zipIdx_map, List.map_map]
      refine Eq.trans (List.map_map (f := Prod.fst) (g := fun th => storeBytes t ((viewOf s l g false th).z.typed t d))).symm ?_
      rw [List.zipIdx_map_fst]

/-! ### A block whose data lists one byte twice (R264)

`State.RindOk` does not ask that a block's data be in the canonical form of `Cells.wf`. The byte at its home is the first entry
listed for its offset (`Cells.get`); a block that joins a new neighbour is written over entry by entry (`joinBlock`), so that the
last entry stays. -/

/-- Grain 0 of frame 0, dirty; its first byte is listed as 1, and again as 2. -/
def doubledBlock : Block := { frame := 0, lo := 0, hi := 0, grain := 32, dirty := [0], data := [(0, 1), (0, 2)] }

/-- Die 0 alone, holding that block. -/
def doubled : State := { State.reset with dies := [{ blocks := [doubledBlock] }] }

theorem doubled_rindOk : doubled.RindOk := by
  intro d x hx
  obtain ⟨rfl, rfl⟩ : d = 0 ∧ x = { blocks := [doubledBlock] } := by
    cases d with
    | zero => exact ⟨rfl, (Option.some.inj hx).symm⟩
    | succ d => cases hx
  refine ⟨List.pairwise_singleton .., fun b hb => ?_⟩
  obtain rfl := List.mem_singleton.mp hb
  refine ⟨.inl rfl, by decide, by decide, by decide, by decide, fun _ => ⟨rfl, by decide, rfl, by decide, ?_⟩⟩
  intro i _ hi hclean
  have hgrain : i / 32 = 0 := Nat.div_eq_of_lt hi
  exact absurd (List.mem_singleton.mpr hgrain) hclean

theorem doubled_homeByte : doubled.homeByte 0 = 1 := rfl

/-- Refutes O47 at the write of one byte to grain 1 of frame 0 of `doubled`: the grain is allocated and joins grain 0 (R264), whose
first byte then reads 2, though it lies outside the bytes written. -/
theorem not_homeWriteThenRead : ¬ Obligations.HomeWriteThenRead := by
  rintro ⟨hwrite, -, -⟩
  obtain ⟨-, -, hkept, -⟩ := hwrite doubled 32 32 [5] doubled_rindOk (.inl rfl) (by decide)
  have hchanged : (doubled.homeWrite 32 32 [5]).homeByte 0 = 2 := by decide
  exact absurd (hchanged.symm.trans ((hkept 0 (by decide)).trans doubled_homeByte)) (by decide)

/-- A store of one byte to grain 1 of frame 0, on its way to die 0. -/
def byteStore : Store := { id := 0, op := 0, tr := { page := 0, size := 65536, pa := 0, leaf := 0x0F }, parts := [(32, [5])] }
def byteSent : Sent := { die := 0, launch := 1, team := 0, gnum := 0, op := 0, access := 0, store := some byteStore, at_ := 0 }

/-- That store is the first of core 0's path to die 0 of `doubled`. -/
def arriving : State := { doubled with cores := [{ id := 0, path := [byteSent] }], subj := [0, 0] }

/-- The state that the store leaves as it performs. -/
def arrived : State :=
  match exec .homeApply arriving with
  | .next t => t
  | _ => arriving

theorem homeApply_arriving : exec .homeApply arriving = .next arrived := rfl

theorem arrived_homeByte : arrived.homeByte 0 = 2 := by decide

/-- Refutes O48 at the plain store that performs at its home: in `arriving` it allocates grain 1 of frame 0, which joins grain 0
(R264), and byte 0, outside the store, reads 2 where it read 1. -/
theorem not_memoryEvents : ¬ Obligations.MemoryEvents := by
  rintro ⟨-, happly, -⟩
  have hfirst : (arriving.core (arriving.sub 0)).path.find? (fun x => decide (x.die = arriving.sub 1) && !x.applied) = some byteSent :=
    rfl
  obtain ⟨t', hexec, -, -, hplain, -⟩ := happly arriving byteSent hfirst (by decide)
  obtain rfl : arrived = t' := Host.Outcome.next.inj (homeApply_arriving.symm.trans hexec)
  obtain ⟨hkept, -⟩ := hplain byteStore 32 [5] rfl rfl rfl doubled_rindOk (by decide)
  exact absurd (arrived_homeByte.symm.trans ((hkept 0 (by decide)).trans doubled_homeByte)) (by decide)

end Sys2Proof.Machine

/-! ## The near-cache engine (09_near_cache_engine): CFLUSH, CINV and CSPAN -/

namespace Sys2Proof.Machine

/-! ### Lookups of a byte range (R233, R240) -/

theorem ops_noteWalk (s : State) (d launch va : Nat) : (s.noteWalk d launch va).ops = s.ops := by
  show (List.foldl State.walkRead s _).ops = s.ops
  refine List.foldlRecOn _ _ (motive := fun t : State => t.ops = s.ops) rfl fun t ht adr _ => ?_
  rw [State.walkRead]
  split
  · exact ht
  · exact ht

theorem ops_noteLook (s : State) (c launch : Nat) (slot : Option (Nat × Nat)) (lk : Look) : (s.noteLook c launch slot lk).ops = s.ops := by
  cases lk with
  | moving t => exact ops_noteWalk ..
  | absent page size fill entry at_ => exact ops_noteWalk ..
  | present t =>
    simp only [State.noteLook]
    split
    · rfl
    · obtain ⟨ks, hks⟩ := State.exists_modCore_eq _ _ _
      rw [hks]
      dsimp only
      split
      · rfl
      · exact ops_noteWalk ..

theorem calm_noteSpan (s : State) (e : Thr) (va n : Nat) : Calm s (s.noteSpan e va n) :=
  calm_foldl _ (fun s _ => calm_noteLook s _ _ _ _) _ s

theorem ops_noteSpan (s : State) (e : Thr) (va n : Nat) : (s.noteSpan e va n).ops = s.ops :=
  List.foldlRecOn _ _ (motive := fun t : State => t.ops = s.ops) rfl fun _ ht _ _ => (ops_noteLook ..).trans ht

/-! ### Dies under a calm change -/

/-- A die without its walker's cache. -/
def Die.butWalker (x : Die) : Die := { x with walker := [] }

section
variable {s t : State} (h : Calm s t)
include h

theorem Calm.dies_eq : t.dies.map Die.butWalker = s.dies.map Die.butWalker := congrArg State.dies h.1

theorem Calm.dies_length : t.dies.length = s.dies.length := by
  simpa only [List.length_map] using congrArg List.length h.dies_eq

theorem Calm.die_eq (d : Nat) : (t.die d).butWalker = (s.die d).butWalker := by
  have hat : (t.dies.map Die.butWalker)[d]?.getD (Die.butWalker {}) = (s.dies.map Die.butWalker)[d]?.getD (Die.butWalker {}) :=
    congrArg (fun ds : List Die => ds[d]?.getD (Die.butWalker {})) h.dies_eq
  rw [List.getElem?_map, List.getElem?_map, Option.getD_map, Option.getD_map] at hat
  rwa [State.die, State.die, List.getD_eq_getElem?_getD, List.getD_eq_getElem?_getD]

theorem Calm.predictor_eq (d : Nat) : (t.die d).predictor = (s.die d).predictor := by
  show (t.die d).butWalker.predictor = (s.die d).butWalker.predictor
  rw [h.die_eq]

theorem Calm.predKey_eq (d frame : Nat) : predKey (t.die d) frame = predKey (s.die d) frame := by
  show predKey (t.die d).butWalker frame = predKey (s.die d).butWalker frame
  rw [h.die_eq]

end

/-! ### CFLUSH and CINV start (R284, R291) -/

/-- The checks of CFLUSH and CINV. -/
theorem flushChecks_none {s : State} {l : Lane} {g : Group} {a b : BitVec 7} {u : Bool}
    (hok : ∀ th ∈ l.execThreads u, Spans .load (yWordAt s l g b th) (viewOf s l g false th) (pairAt s l g a th)) :
    firstFail s l g u [
      chkSpan (fun e => e.adr a) (fun e => (e.y.v32 b).toNat),
      onPages (fun e => e.adr a) (fun e => (e.y.v32 b).toNat) (fun _ => false) (fun _ a t =>
        if !t.scratch && badPermission t .load a then some Code.accessFault else none),
      onPages (fun e => e.adr a) (fun e => (e.y.v32 b).toNat) (fun _ => false) (fun e _ t =>
        if !t.scratch && badMode t .load (dieOfCore e.l.core) then some Code.pageMode else none),
      onPages (fun e => e.adr a) (fun e => (e.y.v32 b).toNat) (fun _ => false) (fun e _ t =>
        if t.scratch then none else e.s.absentCode t.home) ] = none := by
  rw [firstFail_none]
  intro c hc th hth
  obtain ⟨hlow, hend, hpages⟩ := hok th hth
  simp only [List.mem_cons, List.not_mem_nil, or_false] at hc
  rcases hc with rfl | rfl | rfl | rfl
  · rw [chkSpan, failIf_none, Bool.or_eq_false_iff]
    exact ⟨decide_eq_false (Nat.not_le.mpr hlow), decide_eq_false (Nat.not_lt.mpr hend)⟩
  · refine onPages_none _ _ _ _ _ fun _ p hp => ?_
    obtain ⟨hperm, -, -⟩ := hpages p hp
    simp [hperm]
  · refine onPages_none _ _ _ _ _ fun _ p hp => ?_
    obtain ⟨-, hmode, -⟩ := hpages p hp
    simp [hmode]
  · refine onPages_none _ _ _ _ _ fun _ p hp => ?_
    obtain ⟨-, -, hhome⟩ := hpages p hp
    cases hscratch : p.2.scratch with
    | true => rfl
    | false => exact hhome hscratch

/-- A body that leaves what `State.still` keeps, and adds one operation, has started it. -/
theorem started_advance {s b : State} {l : Lane} {ls : List Lane} {o : Op} (hlanes : b.lanes = l :: ls) (hstill : b.still = s.still)
    (hops : b.ops.map Op.asked = s.ops.map Op.asked ++ [o.asked]) : Started s b.advance l ls o := by
  rw [advance_of b l ls hlanes]
  exact ⟨rfl, hstill, hops⟩

/-- A word that R284 lets pass puts the bytes of each executing thread in flight, whether their pages are in transition or not. -/
theorem flushWord_started {i : Instr} {inv : Bool} {a b : BitVec 7} {u : Bool} {s : State} {l : Lane} {ls : List Lane} {g : Group}
    (hexec : exec i s = flushWord i inv a b u s) (hr : Runs i s l ls g)
    (hok : ∀ th ∈ l.execThreads u, Spans .load (yWordAt s l g b th) (viewOf s l g false th) (pairAt s l g a th)) :
    ∃ t', exec i s = .next t' ∧ Started s t' l ls { opOf s l u (.flush inv) with
      accs := (l.execThreads u).map (fun th => ({ id := 0, thread := th, va := pairAt s l g a th, len := yWordAt s l g b th } : Access)) } := by
  rw [hexec, flushWord, runWord_next i _ _ s l ls g hr (flushChecks_none hok)]
  refine ⟨_, rfl, ?_⟩
  dsimp only
  generalize haccs : accessesOf s l g u _ = accs
  have hasked : accs.map Access.asked = (l.execThreads u).map (fun th =>
      ({ id := 0, thread := th, va := pairAt s l g a th, len := yWordAt s l g b th } : Access).asked) := by
    rw [← haccs, accessesOf, List.map_map]
    refine List.map_congr_left fun th _ => ?_
    dsimp only [Function.comp]
    split
    · rfl
    · rfl
  have hlooks : Calm s (accs.foldl (fun s x => s.noteSpan (thr s l g x.thread) x.va x.len) { s with nextId := s.nextId + 1 }) :=
    (calm_nextId s _).trans (calm_foldl _ (fun s _ => calm_noteSpan s _ _ _) _ _)
  generalize accs.foldl (fun s x => s.noteSpan (thr s l g x.thread) x.va x.len) { s with nextId := s.nextId + 1 } = s0 at hlooks ⊢
  obtain ⟨hstill, hlanes, hops⟩ := hlooks
  refine started_advance (hlanes.trans hr.1) hstill ?_
  simp only [List.map_append, List.map_cons, List.map_nil, hops, Op.asked, map_numbered _ _ Access.asked fun _ _ => rfl, hasked,
    List.map_map]
  rfl

/-! ### What CSPAN leaves (R240, R268, R292) -/

/-- A die without its predictor and its walker's cache. -/
def Die.butHints (x : Die) : Die := { x with predictor := [], walker := [] }

/-- From s to t no clause or operation has changed, and of what `State.still` keeps only predictor entries. -/
def Hinted (s t : State) : Prop :=
  t.lanes = s.lanes ∧ t.ops = s.ops ∧ { t.still with dies := [] } = { s.still with dies := [] } ∧
    t.dies.map Die.butHints = s.dies.map Die.butHints

theorem Hinted.refl (s : State) : Hinted s s := ⟨rfl, rfl, rfl, rfl⟩

theorem Hinted.trans {s t v : State} (h : Hinted s t) (k : Hinted t v) : Hinted s v := by
  obtain ⟨hlanes, hops, hstill, hdies⟩ := h
  obtain ⟨klanes, kops, kstill, kdies⟩ := k
  exact ⟨klanes.trans hlanes, kops.trans hops, kstill.trans hstill, kdies.trans hdies⟩

theorem hinted_foldl {α : Type} (f : State → α → State) (h : ∀ s x, Hinted s (f s x)) (xs : List α) (s : State) :
    Hinted s (xs.foldl f s) :=
  List.foldlRecOn xs f (motive := Hinted s) (Hinted.refl s) fun t ht x _ => ht.trans (h t x)

theorem hinted_noteSpan (s : State) (e : Thr) (va n : Nat) : Hinted s (s.noteSpan e va n) := by
  have hcalm := calm_noteSpan s e va n
  have hdies := congrArg (List.map Die.butHints) hcalm.dies_eq
  rw [List.map_map, List.map_map] at hdies
  obtain ⟨hstill, hlanes, -⟩ := hcalm
  exact ⟨hlanes, ops_noteSpan s e va n, congrArg (fun z : State => { z with dies := [] }) hstill, hdies⟩

/-- The predictor entry of a frame pinned to the length code k, or cleared of its pin (R268, R292). -/
def Die.setSpan (x : Die) (frame : Nat) (clear : Bool) (k : Nat) : Die :=
  let old := Cells.get 0 x.predictor (predKey x frame)
  { x with predictor := Cells.set 0 x.predictor (predKey x frame) (if clear then old &&& 7#4 else 8#4 ||| BitVec.ofNat 4 (k % 8)) }

theorem Die.get_setSpan (x : Die) (frame : Nat) (clear : Bool) (k : Nat) :
    Cells.get 0 (x.setSpan frame clear k).predictor (predKey x frame) =
      if clear then Cells.get 0 x.predictor (predKey x frame) &&& 7#4 else 8#4 ||| BitVec.ofNat 4 (k % 8) :=
  Cells.get_set_same ..

theorem hinted_setSpan (s : State) (d frame : Nat) (clear : Bool) (k : Nat) : Hinted s (s.modDie d fun x => x.setSpan frame clear k) :=
  ⟨rfl, rfl, rfl, map_setNth_getD _ s.dies d _ (fun x => x.setSpan frame clear k) fun _ => rfl⟩

theorem hinted_setSpans (s : State) (e : Thr) (va n : Nat) (clear : Bool) (k : Nat) : Hinted s (s.setSpans e va n clear k) := by
  rw [State.setSpans]
  split
  · exact Hinted.refl s
  · refine hinted_foldl _ (fun s i => ?_) _ s
    dsimp only
    split
    · exact Hinted.refl s
    · split
      · exact Hinted.refl s
      · split
        · exact Hinted.refl s
        · exact hinted_setSpan s ..

/-- Bytes within one 4 KiB frame of a present page outside die scratch: the frame's entry at its home is set. -/
theorem setSpans_eq_modDie {e : Thr} {va n : Nat} {t : Tr} (hpresent : e.present (va / 4096 * 4096) = some t)
    (hscratch : t.scratch = false) (hva : va < 2 ^ 57) (hn : 0 < n) (hframe : va % 4096 + n ≤ 4096) (s : State) (clear : Bool) (k : Nat) :
    s.setSpans e va n clear k = s.modDie t.home fun x => x.setSpan (t.phys (va / 4096 * 4096) / 4096) clear k := by
  have hone : (va + n - 1) / 4096 + 1 - va / 4096 = 1 := by omega
  have hlow : ¬ 2 ^ 57 ≤ va / 4096 * 4096 := by omega
  rw [State.setSpans, if_neg (Nat.ne_of_gt hn), hone]
  simp only [List.range_one, List.foldl_cons, List.foldl_nil, Nat.zero_mul, Nat.add_zero, if_neg hlow, hpresent, hscratch,
    Bool.false_eq_true, if_false]
  rfl

/-- What CSPAN sets before it holds the group, for threads es: their lookups, and the entries of those none of whose pages is in
transition. -/
def State.spansSet (s : State) (es : List Thr) (adr len : Thr → Nat) (clear : Bool) (k : Nat) : State :=
  (es.filter (fun e => !e.anyMoving (adr e) (len e))).foldl (fun s e => s.setSpans e (adr e) (len e) clear k)
    (es.foldl (fun s e => s.noteSpan e (adr e) (len e)) s)

theorem hinted_spansSet (s : State) (es : List Thr) (adr len : Thr → Nat) (clear : Bool) (k : Nat) :
    Hinted s (s.spansSet es adr len clear k) :=
  (hinted_foldl _ (fun s e => hinted_noteSpan s e _ _) es s).trans (hinted_foldl _ (fun s e => hinted_setSpans s e _ _ clear k) _ _)

/-- Holding the group adds an operation at most, and none where nothing waits. -/
theorem holdHint_spec (s : State) (l : Lane) (kind : OpKind) (u : Bool) (accs : List Access) :
    (s.holdHint l kind u accs).lanes = s.lanes ∧ (s.holdHint l kind u accs).still = s.still ∧
    (s.holdHint l kind u accs).dies = s.dies ∧ (accs = [] → (s.holdHint l kind u accs).ops = s.ops) := by
  rw [State.holdHint]
  split
  · exact ⟨rfl, rfl, rfl, fun _ => rfl⟩
  · next hwaits => exact ⟨rfl, rfl, rfl, fun hnil => absurd (List.isEmpty_iff.mpr hnil) hwaits⟩

/-- The accesses of the threads that CSPAN holds: a page of theirs is in transition. -/
def heldSpans (es : List Thr) (adr len : Thr → Nat) : List Access :=
  (es.filter (fun e => e.anyMoving (adr e) (len e))).map (fun e => { id := 0, thread := e.t, va := adr e, len := len e })

theorem heldSpans_eq_nil {es : List Thr} {adr len : Thr → Nat} (h : ∀ e ∈ es, e.anyMoving (adr e) (len e) = false) :
    heldSpans es adr len = [] := by
  rw [heldSpans, List.map_eq_nil_iff, List.filter_eq_nil_iff]
  exact fun e he => Bool.eq_false_iff.mp (h e he)

/-- CSPAN sets entries, then holds the group for the threads whose pages are in transition. -/
theorem exec_cspan (d a : BitVec 7) (c : Bool) (k : BitVec 3) (u : Bool) (s : State) :
    exec (.cspan d a c k u) s = runWord (.cspan d a c k u) noOwn (fun s l g =>
      (s.spansSet ((l.execThreads u).map (thr s l g)) (fun e => e.adr a) (fun e => (e.z.v32 d).toNat) c k.toNat).holdHint l
        (.cspan c k.toNat) u (heldSpans ((l.execThreads u).map (thr s l g)) (fun e => e.adr a) (fun e => (e.z.v32 d).toNat))) s := rfl

/-- CSPAN completes, and the dies are as `State.spansSet` leaves them. -/
theorem cspan_next {d a : BitVec 7} {c : Bool} {k : BitVec 3} {u : Bool} {s : State} {l : Lane} {ls : List Lane} {g : Group}
    (hr : Runs (.cspan d a c k u) s l ls g) :
    ∃ t', exec (.cspan d a c k u) s = .next t' ∧ t'.lanes = l.after :: ls ∧
      { t'.still with dies := [] } = { s.still with dies := [] } ∧
      t'.dies = (s.spansSet ((l.execThreads u).map (thr s l g)) (fun e => e.adr a) (fun e => (e.z.v32 d).toNat) c k.toNat).dies ∧
      ((∀ th ∈ l.execThreads u, (viewOf s l g false th).anyMoving (pairAt s l g a th) (zWordAt s l g d th) = false) →
        t'.ops = s.ops) := by
  obtain ⟨hlanes, hops, hstill, -⟩ :=
    hinted_spansSet s ((l.execThreads u).map (thr s l g)) (fun e => e.adr a) (fun e => (e.z.v32 d).toNat) c k.toNat
  rw [exec_cspan, runWord_next _ noOwn _ s l ls g hr rfl]
  generalize s.spansSet _ _ _ c k.toNat = s1 at hlanes hops hstill ⊢
  obtain ⟨klanes, kstill, kdies, kops⟩ := holdHint_spec s1 l (.cspan c k.toNat) u
    (heldSpans ((l.execThreads u).map (thr s l g)) (fun e => e.adr a) (fun e => (e.z.v32 d).toNat))
  rw [advance_of _ l ls (klanes.trans (hlanes.trans hr.1))]
  refine ⟨_, rfl, rfl, (congrArg (fun z : State => { z with dies := [] }) kstill).trans hstill, kdies, fun hsettled =>
    (kops (heldSpans_eq_nil fun e he => ?_)).trans hops⟩
  obtain ⟨th, hth, rfl⟩ := List.mem_map.mp he
  exact hsettled th hth

/-! ### The entry of one frame (R292) -/

/-- CSPAN of one thread on bytes of one frame sets the frame's entry from what it was. -/
theorem get_spansSet_single {e : Thr} {adr len : Thr → Nat} {t : Tr} {s : State}
    (hsettled : e.anyMoving (adr e) (len e) = false) (hpresent : e.present (adr e / 4096 * 4096) = some t)
    (hscratch : t.scratch = false) (hhome : t.home < s.dies.length) (hva : adr e < 2 ^ 57) (hn : 0 < len e)
    (hframe : adr e % 4096 + len e ≤ 4096) (clear : Bool) (k : Nat) :
    let key := predKey (s.die t.home) (t.phys (adr e / 4096 * 4096) / 4096)
    Cells.get 0 ((s.spansSet [e] adr len clear k).die t.home).predictor key =
      if clear then Cells.get 0 (s.die t.home).predictor key &&& 7#4 else 8#4 ||| BitVec.ofNat 4 (k % 8) := by
  intro key
  have hlook := calm_noteSpan s e (adr e) (len e)
  have hset : s.spansSet [e] adr len clear k = (s.noteSpan e (adr e) (len e)).modDie t.home fun x =>
      x.setSpan (t.phys (adr e / 4096 * 4096) / 4096) clear k := by
    rw [State.spansSet, List.filter_cons_of_pos (by rw [hsettled]; rfl)]
    exact setSpans_eq_modDie hpresent hscratch hva hn hframe _ clear k
  rw [hset, State.die_modDie _ _ _ (hlook.dies_length.symm ▸ hhome), ← hlook.predictor_eq, show key = _ from (hlook.predKey_eq ..).symm, Die.get_setSpan]

/-- Settles O37: CFLUSH and CINV are `flushWord` (flushWord_started); CSPAN changes predictor entries alone (cspan_next,
hinted_spansSet), of one frame the one that it names (get_spansSet_single). -/
theorem cacheControl : Obligations.CacheControl := by
  refine ⟨fun x a b u s l ls g hr hok => flushWord_started rfl hr hok, fun x a b u s l ls g hr hok => flushWord_started rfl hr hok, ?_⟩
  intro d a c k u s l ls g hr
  obtain ⟨t', hnext, hlanes, hstill, hdies, hops⟩ := cspan_next hr
  obtain ⟨-, -, -, hhints⟩ :=
    hinted_spansSet s ((l.execThreads u).map (thr s l g)) (fun e => e.adr a) (fun e => (e.z.v32 d).toNat) c k.toNat
  refine ⟨t', hnext, hlanes, hstill, (congrArg (List.map Die.butHints) hdies).trans hhints, hops, ?_⟩
  rintro t rfl hsettled hpresent hscratch hhome hva hn hframe
  have hcode : BitVec.ofNat 4 (k.toNat % 8) = k.setWidth 4 := by
    rw [Nat.mod_eq_of_lt k.isLt, BitVec.ofNat_toNat]
  have hdie : t'.die t.home = _ := congrArg (fun ds : List Die => ds.getD t.home {}) hdies
  rw [hdie, ← hcode]
  exact get_spansSet_single (e := thr s l g l.lowest) (adr := fun e => e.adr a) (len := fun e => (e.z.v32 d).toNat) hsettled hpresent
    hscratch hhome hva hn hframe c k.toNat

end Sys2Proof.Machine
